-- ==== Sys2Proof/Word.lean ====
section
/-! DEFINITION. The word types of the model and the operand types of its commands. -/

namespace Sys2Proof

/-- One byte. -/
abbrev Byte := BitVec 8

/-- One 32-bit register or steward word. -/
abbrev Word := BitVec 32

/-- One 64-bit token value. -/
abbrev Dword := BitVec 64

/-- The address space of a register: the IO ports as one steward reads them, PF0 BAR0, the PF1 window, the I3C map,
and a function's PCI Express configuration space. -/
inductive Space where
  | io (st : Nat)
  | bar0
  | pf1
  | i3c
  | cfg (fn : Nat)
  deriving DecidableEq, Repr

/-- An object of the arbiter table of R414: a site, a power domain, the job throttle, a sentinel rule, the pair role. -/
inductive ArbObj where
  | site (n : Nat)
  | domain (n : Nat)
  | throttle
  | rule (n : Nat)
  | pairRole
  deriving DecidableEq, Repr

/-- Where a command that both a mailbox and a port write can carry comes from. -/
inductive CmdSrc where
  | mb (n : Nat)
  | port (st : Nat) (w : Word)
  deriving DecidableEq, Repr

/-- An endpoint of a kill or a drain fence: a physical PE, a lane group, the I-structure units. -/
inductive KillEnd where
  | pe (n : Nat)
  | lg (n : Nat)
  | istr
  deriving DecidableEq, Repr

/-- What the check codes of a matching-store or Cabinet entry report when it is read (R76): the fault is the
surroundings' doing, so a command that reads entries carries it. -/
inductive EntErr where
  | none
  | corrected
  | value
  | tag
  deriving DecidableEq, Repr

/-- A journal record as it arrives at the standby: its type, its fields and its data bytes (R439). -/
structure JRec where
  ty : Nat
  args : List Nat
  data : List Byte
  deriving DecidableEq, Repr

/-- A heartbeat's contents as it arrives (R444). -/
structure Heartbeat where
  role : Nat
  term : Nat
  epoch : Nat
  acked : Nat
  live : Nat
  echo : Nat
  deriving DecidableEq, Repr

/-- What a reseat copies to the partner (R457): block images and site setup images, entries of the cohort store, the ports of
compare and outlet settings, DDR5 shares and Cabinet settings with their values, and the descriptors of queued jobs. -/
structure SeamCfg where
  blocks : List (Nat × List Byte) := []
  sites : List (List Byte) := []
  cohorts : List (Nat × Nat) := []
  ports : List (Nat × Nat) := []
  queued : List (List Byte) := []
  deriving DecidableEq, Repr

/-- What the partner sends as the Bridge trains (R438). -/
structure BridgeParams where
  serial : Nat
  e : Nat
  size : Nat
  rate : Nat
  base : Nat
  limit : Nat
  deriving DecidableEq, Repr

end Sys2Proof
end

