-- ==== Sys2Proof/Syntax.lean ====
section
/-! DEFINITION. The commands of the block: one constructor for every row of the opcode table, with the operands that
say which unit it happens at and what its surroundings supply. Among the latter are the faults that the spec lets a unit
meet: `err` is what a check code reports (0 nothing, 1 corrected, 2 uncorrectable; for a flit, 3 errored), `upset` an error
that strikes stored bits: an entry of the matching store or of a Cabinet region by its index, a word of an outlet record by
its index and bits, a 128-byte DDR5 line and what its check code will report; `ptr` and `m` the outlet pointer whose second
copy differs and its bits; `symbols` the symbols in error of a received codeword. -/

namespace Sys2Proof

/-- An error that strikes stored bits (R523): where, and `err` what the structure's check code then reports (1 corrected,
2 uncorrectable); a parity code corrects nothing. -/
inductive Upset where
  /-- A cell of a PE's presence summary. -/
  | cell (pe n err : Nat)
  /-- A token in a compare unit's fail FIFO. -/
  | fail (lane n : Nat)
  /-- A vector-engine table of a site. -/
  | table (site err : Nat)
  /-- A site's burst queue. -/
  | burst (site : Nat)
  /-- The CAM entries of a tally unit's space. -/
  | tally (unit space err : Nat)
  /-- A line of the context-table cache. -/
  | context (line err : Nat)
  /-- A word of a steward's I-space, by its address. -/
  | iword (st a err : Nat)
  /-- A word of a steward's private D-space. -/
  | dword (st a err : Nat)
  /-- A slot of the event recorder. -/
  | record (slot err : Nat)
  /-- An accumulator of the life ledger, by its section and its index there. -/
  | ledger (sec n err : Nat)
  deriving DecidableEq, Repr

/-- The commands. -/
inductive Instr where
  /-- `TOKEN_ENQUEUE` (R117): A token from the local fire halves or the router enters a PE input sub-queue, takes an
  arrival number and has its CRC checked. -/
  | tokenEnqueue (pe : Nat)
  /-- `MATCH_DECISION` (R77): A match half takes a token from the input queue and decides it: fire, insert, spill,
  park for a Cabinet lookup, discard or fault. -/
  | matchDecision (pe : Nat) (upset : Option (Nat × EntErr))
  /-- `CABINET_LOOKUP_RETURN` (R78): A Cabinet lookup returns; the parked and chained tokens are decided again with
  the returned partners. -/
  | cabinetLookupReturn (pe : Nat) (upset : Option (Nat × EntErr))
  /-- `SPILL_ACK` (R85): The Cabinet engine has written a spilled entry to the region and acknowledges, freeing the
  spill-buffer slot. -/
  | spillAck (pe : Nat)
  /-- `CABINET_SWEEP_BUCKET` (R95): The Cabinet sweep visits one bucket, removing dead entries, recomputing through
  flags, recounting saturated cells and correcting errors. -/
  | cabinetSweepBucket
  /-- `CAPACITY_ABORT` (R101): While a PE is Exhausted the youngest live job is killed with cause capacity and,
  after sweeps, the procedure repeats. -/
  | capacityAbort
  /-- `OVERFLOW_REFILL` (R125): The ready list refills from the ready overflow in sequence order once occupancy
  falls below refill_lwm. -/
  | overflowRefill (pe : Nat)
  /-- `FK_RELEASE` (R130): A flow-keep firing is released into its group queue once its flow has no firing in
  service and no earlier token or firing. -/
  | fkRelease (pe : Nat)
  /-- `FIRING_ISSUE` (R127): The scheduler fills an issue slot with the oldest G0 firing or one chosen by the
  weighted procedure, dropping firings of killed contexts. -/
  | firingIssue (pe pipe : Nat)
  /-- `ADD` (R150): Actor opcode 0x01: emits a + b. -/
  | add (pe pipe : Nat)
  /-- `SUB` (R150): Actor opcode 0x02: emits a − b. -/
  | sub (pe pipe : Nat)
  /-- `AND` (R150): Actor opcode 0x03: emits a and b. -/
  | and (pe pipe : Nat)
  /-- `OR` (R150): Actor opcode 0x04: emits a or b. -/
  | or (pe pipe : Nat)
  /-- `XOR` (R150): Actor opcode 0x05: emits a xor b. -/
  | xor (pe pipe : Nat)
  /-- `ANDN` (R150): Actor opcode 0x06: emits a and not b. -/
  | andn (pe pipe : Nat)
  /-- `SHL` (R150): Actor opcode 0x07: emits a shifted left by b[5:0]. -/
  | shl (pe pipe : Nat)
  /-- `SHR` (R150): Actor opcode 0x08: emits a shifted right by b[5:0] with zero fill. -/
  | shr (pe pipe : Nat)
  /-- `SAR` (R150): Actor opcode 0x09: emits a shifted right by b[5:0] with sign fill. -/
  | sar (pe pipe : Nat)
  /-- `ROTL` (R150): Actor opcode 0x0A: emits a rotated left by b[5:0]. -/
  | rotl (pe pipe : Nat)
  /-- `MIN` (R150): Actor opcode 0x0B: emits the signed minimum. -/
  | min (pe pipe : Nat)
  /-- `MAX` (R150): Actor opcode 0x0C: emits the signed maximum. -/
  | max (pe pipe : Nat)
  /-- `MINU` (R150): Actor opcode 0x0D: emits the unsigned minimum. -/
  | minu (pe pipe : Nat)
  /-- `MAXU` (R150): Actor opcode 0x0E: emits the unsigned maximum. -/
  | maxu (pe pipe : Nat)
  /-- `MUL` (R150): Actor opcode 0x10: emits the low 64 bits of a × b. -/
  | mul (pe pipe : Nat)
  /-- `MULHU` (R150): Actor opcode 0x11: emits the high 64 bits of the unsigned product. -/
  | mulhu (pe pipe : Nat)
  /-- `MULHS` (R150): Actor opcode 0x12: emits the high 64 bits of the signed product. -/
  | mulhs (pe pipe : Nat)
  /-- `DIVU` (R151): Actor opcode 0x14: unsigned division on the iterative unit, without faults. -/
  | divu (pe pipe : Nat)
  /-- `DIVS` (R151): Actor opcode 0x15: signed division truncated toward zero. -/
  | divs (pe pipe : Nat)
  /-- `REMU` (R151): Actor opcode 0x16: unsigned remainder. -/
  | remu (pe pipe : Nat)
  /-- `REMS` (R151): Actor opcode 0x17: signed remainder with the sign of a. -/
  | rems (pe pipe : Nat)
  /-- `RDTIME` (R152): Actor opcode 0x18: emits TIME in the fc of issue. -/
  | rdtime (pe pipe : Nat)
  /-- `CEQ` (R153): Actor opcode 0x20: emits 1 when a = b. -/
  | ceq (pe pipe : Nat)
  /-- `CNE` (R153): Actor opcode 0x21: emits 1 when a ≠ b. -/
  | cne (pe pipe : Nat)
  /-- `CLT` (R153): Actor opcode 0x22: signed less-than. -/
  | clt (pe pipe : Nat)
  /-- `CLE` (R153): Actor opcode 0x23: signed less-or-equal. -/
  | cle (pe pipe : Nat)
  /-- `CLTU` (R153): Actor opcode 0x24: unsigned less-than. -/
  | cltu (pe pipe : Nat)
  /-- `CLEU` (R153): Actor opcode 0x25: unsigned less-or-equal. -/
  | cleu (pe pipe : Nat)
  /-- `BTST` (R153): Actor opcode 0x26: emits bit b[5:0] of a. -/
  | btst (pe pipe : Nat)
  /-- `SWITCH` (R154): Actor opcode 0x28: sends a to DST0 or DST1 by a bit of the control operand. -/
  | switch (pe pipe : Nat)
  /-- `MERGE` (R154): Actor opcode 0x29: sends a or the immediate to both destinations by c[0]. -/
  | merge (pe pipe : Nat)
  /-- `GATE` (R154): Actor opcode 0x2A: sends a to both destinations or nothing by a control bit. -/
  | gate (pe pipe : Nat)
  /-- `FAN` (R153): Actor opcode 0x2B: sends a to both destinations. -/
  | fan (pe pipe : Nat)
  /-- `SETFLOW` (R155): Actor opcode 0x2C: emits a with FLOW replaced by b[9:0]. -/
  | setflow (pe pipe : Nat)
  /-- `NEXTITER` (R157): Actor opcode 0x30: emits a with ITER advanced by the step, faulting outside 28 bits. -/
  | nextiter (pe pipe : Nat)
  /-- `SETITER` (R157): Actor opcode 0x31: emits a with ITER set to b, faulting outside 28 bits. -/
  | setiter (pe pipe : Nat)
  /-- `NEWCTX` (R158): Actor opcode 0x32: requests a new context of the job, injects its entry token and returns its
  base tag. -/
  | newctx (pe pipe : Nat)
  /-- `SEND` (R159): Actor opcode 0x33: sends a to the tag held in b through the context manager. -/
  | sendTag (pe pipe : Nat)
  /-- `RETURN` (R160): Actor opcode 0x34: sends a to the context's return link and optionally frees the context. -/
  | returnLink (pe pipe : Nat)
  /-- `FREECTX` (R160): Actor opcode 0x35: frees the firing's own context through the kill procedure. -/
  | freectx (pe pipe : Nat)
  /-- `GETTAG` (R161): Actor opcode 0x36: emits a tag of the firing's CTX and ITER with ACT and PORT from the
  modifier. -/
  | gettag (pe pipe : Nat)
  /-- `ILOAD` (R163): Actor opcode 0x40: requests an I-structure element, answered at once when full or deferred
  until written. -/
  | iload (pe pipe : Nat)
  /-- `ISTORE` (R163): Actor opcode 0x41: writes an I-structure element and answers its deferred readers. -/
  | istore (pe pipe : Nat)
  /-- `RESET` (R163): Actor opcode 0x42: sets an I-structure element empty, faulting on a deferred element. -/
  | resetElem (pe pipe : Nat)
  /-- `ISTRUCT_REQUEST` (R163): The I-structure controller takes an ILOAD, ISTORE or RESET request for an element
  and acts on it in arrival order. -/
  | istructRequest (dc : Nat)
  /-- `LD` (R167): Actor opcode 0x50: reads the data or Shelf window. -/
  | ldMem (pe pipe : Nat)
  /-- `ST` (R167): Actor opcode 0x51: writes b to the data or Shelf window. -/
  | stMem (pe pipe : Nat)
  /-- `SWAP` (R168): Actor opcode 0x52: far atomic swap. -/
  | swapMem (pe pipe : Nat)
  /-- `CAS` (R168): Actor opcode 0x53: far atomic compare-and-swap. -/
  | casMem (pe pipe : Nat)
  /-- `FADD` (R168): Actor opcode 0x54: far atomic add. -/
  | faddMem (pe pipe : Nat)
  /-- `FOR` (R168): Actor opcode 0x55: far atomic or. -/
  | farOr (pe pipe : Nat)
  /-- `FMAXU` (R168): Actor opcode 0x56: far atomic unsigned maximum. -/
  | fmaxuMem (pe pipe : Nat)
  /-- `ATOMIC_SERVICE` (R360): An atomic unit performs the highest-priority waiting atomic on a word once the word
  is free. -/
  | atomicService (unit err : Nat)
  /-- `ATOMIC_AGING` (R361): Each full µs a waiting atomic request rises one priority level. -/
  | atomicAging (unit : Nat)
  /-- `BURST` (R169): Actor opcode 0x60: sends a burst lane token to the target site or cohort. -/
  | burstSite (pe pipe : Nat)
  /-- `HALT` (R172): Actor opcode 0x61: sends a halt lane token to the target site or the site of a fail token. -/
  | haltSite (pe pipe : Nat)
  /-- `BRANCH` (R169): Actor opcode 0x62: sends a branch lane token to the targets. -/
  | branchSite (pe pipe : Nat)
  /-- `SITECTL` (R175): Actor opcode 0x63: sends a site-control lane token with a command. -/
  | sitectl (pe pipe : Nat)
  /-- `COHORT_COPY` (R339): A cohort lane token is copied at the quad router to each lane group in the cohort
  summary. -/
  | cohortCopy (quad : Nat)
  /-- `LANE_BURST` (R173): A burst lane token reaches a lane group; each target site is delivered into its burst
  queue or skipped. -/
  | laneBurst (lg : Nat)
  /-- `LANE_HALT` (R248): A halt lane token reaches a site's vector engine, which sends the halt flit and drops
  staged and queued stimulus. -/
  | laneHalt (lg : Nat)
  /-- `LANE_BRANCH` (R250): A branch lane token reaches a site's vector engine and re-seats the generators at the
  branch point. -/
  | laneBranch (site : Nat)
  /-- `PAUSE` (R251): SITECTL PAUSE lets the burst in expansion finish and holds queued bursts. -/
  | pause (site : Nat)
  /-- `RESUME` (R175): SITECTL RESUME lets held bursts continue. -/
  | resume (site : Nat)
  /-- `REARM` (R251): SITECTL REARM clears the halted mark once the halt report is in and resumes at the restart
  index. -/
  | rearm (site : Nat)
  /-- `REFLEX_ON` (R175): SITECTL REFLEX_ON arms the site's reflex stop. -/
  | reflexOn (site : Nat)
  /-- `REFLEX_OFF` (R175): SITECTL REFLEX_OFF disarms the site's reflex stop. -/
  | reflexOff (site : Nat)
  /-- `RELEASE` (R251): SITECTL RELEASE removes the site from its job and drops its queued bursts. -/
  | release (site : Nat)
  /-- `COMPLETION_NOTICE` (R174): A lane group creates the completion notice of a lane operation once every
  delivered site has finished. -/
  | completionNotice (lg : Nat)
  /-- `ARBITER_WINDOW_CLOSE` (R417): A 64 ns arbitration window closes; contradicting lower-rank commands are
  superseded and the rest take effect in rank order. -/
  | arbiterWindowClose (obj : ArbObj)
  /-- `APPEND` (R178): Actor opcode 0x70: sends a word of an outlet record to its writer port. -/
  | appendRec (pe pipe : Nat)
  /-- `COMMIT` (R178): Actor opcode 0x71: commits or rewinds an open outlet record. -/
  | commitRec (pe pipe : Nat)
  /-- `OUTLET_APPEND_ACCEPT` (R178): An outlet writer port accepts an APPEND word, opening the record if needed, and
  answers the PE. -/
  | outletAppendAccept (outlet port : Nat)
  /-- `OUTLET_COMMIT_ACCEPT` (R282): An outlet writer port accepts a COMMIT, assigns a sequence number or rewinds,
  and answers the PE. -/
  | outletCommitAccept (outlet port : Nat)
  /-- `POISON_MARK` (R178): A poisoned APPEND control word marks the record of its key poisoned in both outlets. -/
  | poisonMark (outlet port : Nat)
  /-- `POPC` (R180): Actor opcode 0x80: emits the number of set bits. -/
  | popc (pe pipe : Nat)
  /-- `FFS` (R180): Actor opcode 0x81: emits the index of the lowest or highest set bit. -/
  | ffs (pe pipe : Nat)
  /-- `BITSCATTER` (R180): Actor opcode 0x82: places the low bits of a at the set positions of b. -/
  | bitscatter (pe pipe : Nat)
  /-- `BITGATHER` (R180): Actor opcode 0x83: packs the bits of a at the set positions of b. -/
  | bitgather (pe pipe : Nat)
  /-- `UNSCRAMBLE` (R181): Actor opcode 0x84: maps a field of a through an unscramble map. -/
  | unscramble (pe pipe : Nat)
  /-- `TALLY` (R182): Actor opcode 0x85: sends a tally request to a tally unit. -/
  | tally (pe pipe : Nat)
  /-- `TALLY_SETUP` (R182): Tally operation 0 clears a space and sets its spare counts. -/
  | tallySetup (tu : Nat)
  /-- `TALLY_ADD` (R183): Tally operation 1 counts a failing cell once and returns counts and must-repair flags. -/
  | tallyAdd (tu : Nat)
  /-- `TALLY_QRY_ROW` (R182): Tally operation 2 returns the counts of a row. -/
  | tallyQryRow (tu : Nat)
  /-- `TALLY_QRY_COL` (R182): Tally operation 3 returns the counts of a column. -/
  | tallyQryCol (tu : Nat)
  /-- `TALLY_SCAN` (R183): Tally operation 4 returns the next must-repair line from a cursor. -/
  | tallyScan (tu : Nat)
  /-- `TALLY_CLEAR` (R182): Tally operation 5 frees a space's entries. -/
  | tallyClear (tu : Nat)
  /-- `HSUM` (R185): Actor opcode 0x90: unsigned sum of the lanes of a. -/
  | hsum (pe pipe : Nat)
  /-- `HMAXU` (R185): Actor opcode 0x91: largest lane. -/
  | hmaxu (pe pipe : Nat)
  /-- `HMINU` (R185): Actor opcode 0x92: smallest lane. -/
  | hminu (pe pipe : Nat)
  /-- `HNZ` (R185): Actor opcode 0x93: bit per non-zero lane. -/
  | hnz (pe pipe : Nat)
  /-- `VADDSU` (R185): Actor opcode 0x94: lane-wise saturating unsigned sum. -/
  | vaddsu (pe pipe : Nat)
  /-- `RESERVED_OPCODE_TRAP` (R188): A reserved opcode fires as class T and sends a trap message to a steward or
  module. -/
  | reservedOpcodeTrap (pe pipe : Nat)
  /-- `TRAP_RETURN_ARRIVAL` (R189): A trap-return token reaches its PE and emits as flagged, completing the firing
  when final or faulting. -/
  | trapReturnArrival (pe : Nat)
  /-- `MEMORY_RESPONSE` (R133): A response to a class R request reaches its PE, freeing the slot and emitting the
  result tokens. -/
  | memoryResponse (pe : Nat)
  /-- `CONTEXT_REPLY` (R133): A context-manager reply to a class C firing reaches its PE and completes it. -/
  | contextReply (pe : Nat)
  /-- `OUTLET_ANSWER` (R133): The outlet's answer to an APPEND or COMMIT reaches the PE and the firing emits its
  result. -/
  | outletAnswer (pe : Nat)
  /-- `CONTEXT_GRANT` (R208): The context manager grants the next grantable request of its grant queue from the free
  list. -/
  | contextGrant
  /-- `CONTEXT_TABLE_MISS_FILL` (R209): A context-table cache miss is filled from DDR5 after writing back a dirty
  line. -/
  | contextTableMissFill
  /-- `LOAD_BLOCK` (R564): Mailbox command 0x10 checks and loads a code-block image into code memory. -/
  | loadBlock (mb : Nat)
  /-- `UNLOAD_BLOCK` (R196): Mailbox command 0x11 frees a block ID and its code memory. -/
  | unloadBlock (mb : Nat)
  /-- `SITE_MAP_IMAGE` (R228): SITE_MAP form 0 checks a site setup image and binds the site. -/
  | siteMapImage (mb : Nat)
  /-- `SITE_MAP_COHORT` (R242): SITE_MAP form 1 writes one cohort store entry and its lane-group summaries. -/
  | siteMapCohort (mb : Nat)
  /-- `SITE_REJOIN` (R321): Mailbox command 0x21 returns a quarantined site to service at a restart index. -/
  | siteRejoin (mb : Nat)
  /-- `SITE_RETIRE` (R322): Mailbox command 0x22 halts, releases and unbinds a site. -/
  | siteRetire (mb : Nat)
  /-- `LANE_SEND` (R411): Mailbox command 0x23 queues an FE_CMD control message on a lane. -/
  | laneSend (mb : Nat)
  /-- `LANE_RECV` (R411): Mailbox command 0x24 returns the head received control message. -/
  | laneRecv (mb : Nat)
  /-- `JOB_SUBMIT` (R200): Mailbox command 0x30 validates a descriptor and places the job in the job queue. -/
  | jobSubmit (mb : Nat)
  /-- `DOORBELL_SUBMIT` (R201): A write to JQ_DB_HI submits a job descriptor by address. -/
  | doorbellSubmit (hi : Word)
  /-- `DESCRIPTOR_FETCH_DONE` (R201): The fetched descriptor of a doorbell arrives and is checked and queued or
  refused. -/
  | descriptorFetchDone (readError : Bool)
  /-- `DOORBELL_HELD_RELEASE` (R202): A doorbell held on a full queue proceeds once an entry frees. -/
  | doorbellHeldRelease
  /-- `JOB_ABORT_BY_JOB` (R217): JOB_ABORT form 0 kills a job by number. -/
  | jobAbortByJob (mb : Nat)
  /-- `JOB_ABORT_BY_COOKIE` (R217): JOB_ABORT form 1 kills every queued or live job with the cookie. -/
  | jobAbortByCookie (mb : Nat)
  /-- `JOB_ADMISSION` (R204): The head job is admitted once all conditions hold: weights written, sites bound, root
  granted, initial tokens injected. -/
  | jobAdmission
  /-- `RUN_LIMIT_EXPIRY` (R215): A job's run-time limit expires and the job is killed with TIMEOUT. -/
  | runLimitExpiry (job : Nat)
  /-- `CONTEXT_KILL` (R211): The context manager starts a kill: contexts set dying, grants stopped, sites halted,
  kill notices broadcast. -/
  | contextKill
  /-- `KILL_NOTICE` (R211): A kill notice reaches a PE, lane group or I-structure controller, which marks and sweeps
  the dying contexts. -/
  | killNotice (ep : KillEnd)
  /-- `KILL_ACK` (R211): A kill acknowledgement reaches the context manager; when all are in and rewinds done the
  contexts are dead. -/
  | killAck
  /-- `COMPLETION_POST` (R218): A job completion record and its lost list are written to the completion ring once
  room and outlet reports allow. -/
  | completionPost
  /-- `FENCE_TOKEN` (R214): A drain fence token reaches a PE or lane group in one channel and is counted toward the
  fence waves. -/
  | fenceToken (ep : KillEnd)
  /-- `FENCE_BATCH_START` (R214): A fence batch for completed kills begins its first wave. -/
  | fenceBatchStart
  /-- `CONTEXT_FREED` (R214): A draining context returns to the free list once its fence batch ended and its Cabinet
  count is zero. -/
  | contextFreed (ctx : Nat)
  /-- `OUTLET_CONFIG_OUTLET` (R411): OUTLET_CONFIG form 0 configures an outlet's ring and enable. -/
  | outletConfigOutlet (mb : Nat)
  /-- `OUTLET_CONFIG_COMPARE` (R411): OUTLET_CONFIG form 1 sets the window, flood and summary settings of compare
  units. -/
  | outletConfigCompare (mb : Nat)
  /-- `PAIR_STATUS` (R411): Mailbox command 0x50 returns the pair role, term, flags and epochs. -/
  | pairStatus (mb : Nat)
  /-- `PAIR_SWAP` (R455): Mailbox command 0x51 performs a planned swap of active and standby. -/
  | pairSwap (mb : Nat)
  /-- `PAIR_RESEAT` (R456): Mailbox command 0x52 starts a reseat of a DETACHED partner. -/
  | pairReseat (mb : Nat)
  /-- `FW_STAGE` (R507): Mailbox command 0x60 writes and verifies a firmware image in the other slot. -/
  | fwStage (mb : Nat)
  /-- `FW_ACTIVATE` (R508): Mailbox command 0x61 starts a trial of the staged firmware by restarting the steward
  cluster. -/
  | fwActivate (mb : Nat)
  /-- `FW_CONFIRM` (R509): Mailbox command 0x62 confirms a trial and copies settings to the backup. -/
  | fwConfirm (mb : Nat)
  /-- `FW_REVERT` (R510): Mailbox command 0x63 reverts a trial to the previous image. -/
  | fwRevert (mb : Nat)
  /-- `TAMPER_CLEAR_CHALLENGE` (R520): TAMPER_CLEAR step 0 returns a fresh nonce. -/
  | tamperClearChallenge (mb : Nat)
  /-- `TAMPER_CLEAR_ANSWER` (R520): TAMPER_CLEAR step 1 verifies a signature over the nonce and clears the tamper
  latch. -/
  | tamperClearAnswer (mb : Nat)
  /-- `KEY_LOAD` (R513): Mailbox command 0x71 unwraps a customer key into a key slot. -/
  | keyLoad (mb : Nat)
  /-- `EXT_LOAD` (R392): Mailbox command 0x72 verifies and loads an extension module. -/
  | extLoad (mb : Nat)
  /-- `EXT_UNLOAD` (R396): Mailbox command 0x73 stops and unloads an extension module. -/
  | extUnload (mb : Nat)
  /-- `LEDGER_READ` (R536): Mailbox command 0x80 returns live life-ledger bytes. -/
  | ledgerRead (mb : Nat)
  /-- `EVENTS_READ` (R535): Mailbox command 0x81 returns consistent event records from an index. -/
  | eventsRead (mb : Nat)
  /-- `POWER_POLICY_DOMAIN` (R471): POWER_POLICY op 0, or PWR_CMD, sets the state of one power domain. -/
  | powerPolicyDomain (src : CmdSrc)
  /-- `POWER_POLICY_INSERTIONS` (R473): POWER_POLICY op 1 sets the policy level and hold-off between insertions. -/
  | powerPolicyInsertions (mb : Nat)
  /-- `POWER_POLICY_THROTTLE` (R474): POWER_POLICY op 2 sets the host fabric throttle level. -/
  | powerPolicyThrottle (mb : Nat)
  /-- `SENTINEL_RULES_READ` (R485): SENTINEL_RULES op 0 returns a rule image. -/
  | sentinelRulesRead (mb : Nat)
  /-- `SENTINEL_RULES_WRITE` (R485): SENTINEL_RULES op 1, or SN_RULE_CMD write, checks and installs a rule image. -/
  | sentinelRulesWrite (src : CmdSrc)
  /-- `SENTINEL_RULES_DISABLE` (R485): SENTINEL_RULES op 2, or SN_RULE_CMD disable, disables a rule. -/
  | sentinelRulesDisable (src : CmdSrc)
  /-- `SN_RULE_COPY` (R492): SN_RULE_CMD 3 copies a rule image into the staging words. -/
  | snRuleCopy
  /-- `TRACE_CONFIG` (R411): Mailbox command 0xA0 writes trace settings to PEs and the ring and issues a trace
  command. -/
  | traceConfig (mb : Nat)
  /-- `FLASH_ERASE` (R501): Mailbox command 0xB0 erases a flash range in 4 KiB units. -/
  | flashErase (mb : Nat)
  /-- `FLASH_PROGRAM` (R501): Mailbox command 0xB1 programs a blank flash range and verifies it. -/
  | flashProgram (mb : Nat)
  /-- `FLASH_READ` (R411): Mailbox command 0xB2 returns flash bytes. -/
  | flashRead (mb : Nat)
  /-- `GET_INFO` (R412): Mailbox command 0x01 returns the identity and firmware information. -/
  | getInfo (mb : Nat)
  /-- `GET_CAPS` (R413): Mailbox command 0x02 returns the capability response. -/
  | getCaps (mb : Nat)
  /-- `FLASH_UNIT_STEP` (R502): The flash engine completes one erase, page program or read unit step and starts the
  next. -/
  | flashUnitStep (cs : Nat)
  /-- `MSIX_PENDING_SEND` (R420): A pending MSI-X message is sent once its vector is unmasked and its function can
  send. -/
  | msixPendingSend (fn vector : Nat)
  /-- `PF0_RESET` (R423): A function-level reset of PF0 or PERST_N resets PF0 state, releases host pegs and pauses
  the completion ring. -/
  | pf0Reset (perst : Bool)
  /-- `PF1_RESET` (R424): A function-level reset of PF1 resets its configuration and moderation. -/
  | pf1Reset (perst : Bool)
  /-- `PF1_MODERATION_TIMER` (R405): The PF1 moderation timer expires and the outlet vector is signalled. -/
  | pf1ModerationTimer (outlet : Nat)
  /-- `BAR2_WRITE` (R404): A host write through the DDR5 aperture is performed inside the job area or counted as a
  violation. -/
  | bar2Write (offset : Nat) (data : List Byte)
  /-- `ENTDAA` (R426): I3C CCC assigning a dynamic address. -/
  | entdaa (addr : Nat)
  /-- `RSTDAA` (R426): I3C CCC resetting the dynamic address. -/
  | rstdaa
  /-- `ENEC` (R426): I3C CCC enabling target events. -/
  | enec (events : Byte)
  /-- `DISEC` (R426): I3C CCC disabling target events. -/
  | disec (events : Byte)
  /-- `GETPID` (R426): I3C CCC returning the provisioned ID. -/
  | getpid
  /-- `GETBCR` (R426): I3C CCC returning the bus characteristics register. -/
  | getbcr
  /-- `GETDCR` (R426): I3C CCC returning the device characteristics register. -/
  | getdcr
  /-- `GETSTATUS` (R426): I3C CCC returning target status. -/
  | getstatus
  /-- `GETMWL` (R426): I3C CCC returning the maximum write length. -/
  | getmwl
  /-- `GETMRL` (R426): I3C CCC returning the maximum read length. -/
  | getmrl
  /-- `RSTACT` (R426): I3C target reset: resets I3C state and BMC alert enables and releases BMC pegs. -/
  | rstact
  /-- `I3C_PRIVATE_WRITE` (R427): An I3C private write sets the register address and writes data bytes. -/
  | i3cPrivateWrite (data : List Byte)
  /-- `I3C_PRIVATE_READ` (R427): An I3C private read returns bytes from the address, which advances per byte. -/
  | i3cPrivateRead (count : Nat)
  /-- `IN_BAND_INTERRUPT` (R428): The target offers an in-band interrupt for an alert or mailbox 15 completion until
  accepted. -/
  | inBandInterrupt (accepted : Bool)
  /-- `PEG_ACQUIRE` (R363): An acquire of a peg by a master grants it when free and permitted. -/
  | pegAcquire (master ownerId n : Nat)
  /-- `PEG_ACQUIRE_WAIT` (R388): A steward acquire-or-wait grants a free peg or suspends the task as a waiter. -/
  | pegAcquireWait (st n rd : Nat)
  /-- `PEG_RELEASE` (R363): A release by the owner frees a peg or hands it to the highest-priority waiter. -/
  | pegRelease (master ownerId n : Nat)
  /-- `PARTNER_PEG_ACQUIRE` (R465): BR_PEG_OP 1 acquires a peg at the partner over the Bridge. -/
  | partnerPegAcquire (n : Nat)
  /-- `PARTNER_PEG_READ` (R465): BR_PEG_OP 2 reads a peg word at the partner. -/
  | partnerPegRead (n : Nat)
  /-- `PARTNER_PEG_RELEASE` (R465): BR_PEG_OP 3 releases a peg at the partner. -/
  | partnerPegRelease (n : Nat)
  /-- `PARTNER_PEG_RESULT` (R465): The partner's peg word for a BR_PEG_OP returns into BR_PEG_RES. -/
  | partnerPegResult (pegWord : Word)
  /-- `TOKEN_INJECT` (R53): A write to TI_GO injects the staged token, computing its CRC. -/
  | tokenInject (st : Nat)
  /-- `CTL_MESSAGE_QUEUE` (R330): A write to LG_CTL_GO queues the staged control message on its lane. -/
  | ctlMessageQueue (lg : Nat)
  /-- `CTL_FIFO_POP_READ` (R330): Reading the 33rd word of a received control or MEAS entry removes it from its
  FIFO. -/
  | ctlFifoPopRead (lg : Nat) (meas : Bool)
  /-- `EVR_GO` (R540): A write to EVR_GO submits the staged event record stamped with TIME. -/
  | evrGo
  /-- `EVR_RD_IDX_WRITE` (R540): A write to EVR_RD_IDX selects a slot and restarts the word counter. -/
  | evrRdIdxWrite (v : Word)
  /-- `EVR_RD_DATA_READ` (R540): A read of EVR_RD_DATA returns one word and advances the word counter. -/
  | evrRdDataRead
  /-- `VE_IND_ACCESS` (R258): An access to VE_IND_DATA reads or writes an indirect word and may advance the address.
  -/
  | veIndAccess (lane : Nat) (write : Option Word)
  /-- `LATCHING_READ` (R278): A read of a low counter or TIME register latches its high half. -/
  | latchingRead (space : Space) (addr : Nat)
  /-- `MS_CNT_CLR` (R110): A write resets the matching-store counters of a PE. -/
  | msCntClr (pe : Nat)
  /-- `SCHED_CNT_CLR` (R141): A write resets the scheduling counters of a PE. -/
  | schedCntClr (pe : Nat)
  /-- `VE_CNT_CLR` (R258): A write resets the vector-engine counters. -/
  | veCntClr (lane : Nat)
  /-- `CU_CNT_CLR` (R292): A write resets the compare-unit counters and optionally the per-pin counters. -/
  | cuCntClr (lane : Nat) (v : Word)
  /-- `CU_FLOOD_CLR` (R277): A write clears a site's FLOODED mark. -/
  | cuFloodClr (lane : Nat)
  /-- `FLOOD_CLR` (R277): A host write to FLOOD_CLR0–3 clears FLOODED marks of sites. -/
  | floodClr (idx : Nat) (v : Word)
  /-- `LP_CNT_CLR` (R331): A write resets the lane-port counters. -/
  | lpCntClr (lane : Nat)
  /-- `LANE_RETRAIN` (R320): LP_CMD 1 loses the lane with cause 0x08 and starts training. -/
  | laneRetrain (lane : Nat)
  /-- `LANE_FORCE_DOWN` (R320): LP_CMD 2 loses the lane with cause 0x08 and holds it DOWN without signal. -/
  | laneForceDown (lane : Nat)
  /-- `TRACE_ARM` (R140): TR_CMD 1 arms the trace ring, resetting its index, status and sampling counts. -/
  | traceArm
  /-- `TRACE_TRIGGER_NOW` (R139): TR_CMD 2 triggers the trace at once. -/
  | traceTriggerNow
  /-- `TRACE_STOP` (R139): TR_CMD 3 stops the trace ring. -/
  | traceStop
  /-- `TRACE_COLLECTOR_WRITE` (R135): A trace collector writes buffered records to the ring, preceded by a LOSS
  record after drops. -/
  | traceCollectorWrite (quad : Nat)
  /-- `OUT_RD_WRITE` (R295): A write to OUT_RD frees ring space or is ignored and flagged rd_bad. -/
  | outRdWrite (outlet : Nat) (v : Word)
  /-- `JQ_CR_HEAD_WRITE` (R219): A write to JQ_CR_HEAD advances the completion ring read index unless beyond the
  tail. -/
  | jqCrHeadWrite (v : Word)
  /-- `COMPLETION_RING_ENABLE` (R219): Setting JQ_CR_CFG.enable zeroes head and tail, sets phase 1 and releases
  waiting completions. -/
  | completionRingEnable (v : Word)
  /-- `CAB_CFG_WRITE` (R112): A write to CAB_CFG sets Cabinet geometry or enable under its restrictions. -/
  | cabCfgWrite (v : Word)
  /-- `DDR_SHARE_WRITE` (R354): A write to a DDR5 share is accepted for the next window or refused when the sum
  would exceed DDR_USABLE. -/
  | ddrShareWrite (user : Nat) (v : Word)
  /-- `DC_CFG_ENABLE` (R368): A write that enables a DDR5 channel, which rescales unchanged shares. -/
  | dcCfgEnable (chan : Nat) (v : Word)
  /-- `PWR_AVS_WRITE` (R480): A write to PWR_AVS sets the VDD_CORE target over AVSBus. -/
  | pwrAvsWrite (v : Word)
  /-- `TMP_CFG_WRITE` (R517): A write to TMP_CFG sets tamper sources and policy, or is ignored after lock. -/
  | tmpCfgWrite (v : Word)
  /-- `SN_KILL_HOLD_WRITE` (R490): A write to SN_KILL_HOLD changes the firmware hold on DUT_KILL_N lines. -/
  | snKillHoldWrite (v : Word)
  /-- `SC_CTL_INVALIDATE` (R398): Writing 1 to SC_CTL[1] invalidates every steward data-cache line. -/
  | scCtlInvalidate (st : Nat)
  /-- `DSP_FLAGS_SET` (R386): A write sets event flags of a task slot. -/
  | dspFlagsSet (st slot : Nat) (v : Word)
  /-- `DSP_FLAGS_CLR` (R399): A write clears event flags of a task slot. -/
  | dspFlagsClr (st slot : Nat) (v : Word)
  /-- `DSP_XSIG` (R386): A write sets event flags of a slot of any steward. -/
  | dspXsig (st slot : Nat) (v : Word)
  /-- `DSP_START` (R385): DSP_CMD 1 starts a FREE or STOPPED task slot at its entry. -/
  | dspStart (st slot : Nat)
  /-- `DSP_STOP` (R385): DSP_CMD 2 stops a task slot. -/
  | dspStop (st slot : Nat)
  /-- `DSP_FREE` (R385): DSP_CMD 3 frees a STOPPED task slot. -/
  | dspFree (st slot : Nat)
  /-- `DSP_CTL_WRITE` (R399): A write to DSP_CTL changes base priority at once and other fields at the next start.
  -/
  | dspCtlWrite (st slot : Nat) (v : Word)
  /-- `REGISTER_WRITE` (R10): A write to any register without a row of its own takes effect by its access code and
  reserved-encoding rules. -/
  | registerWrite (space : Space) (addr : Nat) (v : Word)
  /-- `ST_ADD` (R379): Steward ALU fn 0: rd = ra + rb. -/
  | stAdd (st : Nat)
  /-- `ST_SUB` (R379): Steward ALU fn 1: rd = ra − rb. -/
  | stSub (st : Nat)
  /-- `ST_AND` (R379): Steward ALU fn 2: rd = ra and rb. -/
  | stAnd (st : Nat)
  /-- `ST_OR` (R379): Steward ALU fn 3: rd = ra or rb. -/
  | stOr (st : Nat)
  /-- `ST_XOR` (R379): Steward ALU fn 4: rd = ra xor rb. -/
  | stXor (st : Nat)
  /-- `ST_ANDN` (R379): Steward ALU fn 5: rd = ra and not rb. -/
  | stAndn (st : Nat)
  /-- `ST_SHL` (R379): Steward ALU fn 6: shift left by rb[4:0]. -/
  | stShl (st : Nat)
  /-- `ST_SHR` (R379): Steward ALU fn 7: logical shift right. -/
  | stShr (st : Nat)
  /-- `ST_SAR` (R379): Steward ALU fn 8: arithmetic shift right. -/
  | stSar (st : Nat)
  /-- `ST_ROTL` (R379): Steward ALU fn 9: rotate left. -/
  | stRotl (st : Nat)
  /-- `SLT` (R379): Steward ALU fn 10: signed set-less-than. -/
  | slt (st : Nat)
  /-- `SLTU` (R379): Steward ALU fn 11: unsigned set-less-than. -/
  | sltu (st : Nat)
  /-- `ST_MUL` (R379): Steward ALU fn 12: low product. -/
  | stMul (st : Nat)
  /-- `ST_MULHU` (R379): Steward ALU fn 13: high unsigned product. -/
  | stMulhu (st : Nat)
  /-- `ST_MULHS` (R379): Steward ALU fn 14: high signed product. -/
  | stMulhs (st : Nat)
  /-- `ST_DIVU` (R379): Steward ALU fn 15: unsigned quotient. -/
  | stDivu (st : Nat)
  /-- `ST_REMU` (R379): Steward ALU fn 16: unsigned remainder. -/
  | stRemu (st : Nat)
  /-- `ST_DIVS` (R379): Steward ALU fn 17: signed quotient. -/
  | stDivs (st : Nat)
  /-- `ST_REMS` (R379): Steward ALU fn 18: signed remainder. -/
  | stRems (st : Nat)
  /-- `ADDI` (R379): Steward major 0x02: rd = ra + imm18. -/
  | addi (st : Nat)
  /-- `SLTI` (R379): Steward major 0x03: signed compare with immediate. -/
  | slti (st : Nat)
  /-- `SLTIU` (R379): Steward major 0x04: unsigned compare with immediate. -/
  | sltiu (st : Nat)
  /-- `ANDI` (R379): Steward major 0x05: and with zero-extended immediate. -/
  | andi (st : Nat)
  /-- `ORI` (R379): Steward major 0x06: or with zero-extended immediate. -/
  | ori (st : Nat)
  /-- `XORI` (R379): Steward major 0x07: xor with zero-extended immediate. -/
  | xori (st : Nat)
  /-- `SHI_SHL` (R379): SHI with imm[6:5] = 0: shift left by an immediate amount. -/
  | shiShl (st : Nat)
  /-- `SHI_SHR` (R379): SHI with imm[6:5] = 1: logical shift right by an immediate. -/
  | shiShr (st : Nat)
  /-- `SHI_SAR` (R379): SHI with imm[6:5] = 2: arithmetic shift right by an immediate. -/
  | shiSar (st : Nat)
  /-- `SHI_ROTL` (R379): SHI with imm[6:5] = 3: rotate left by an immediate. -/
  | shiRotl (st : Nat)
  /-- `LUI` (R379): Steward major 0x09: rd = imm22 << 10. -/
  | lui (st : Nat)
  /-- `LB` (R379): Steward load of a sign-extended byte. -/
  | lb (st : Nat)
  /-- `LBU` (R379): Steward load of a zero-extended byte. -/
  | lbu (st : Nat)
  /-- `LH` (R379): Steward load of a sign-extended half-word. -/
  | lh (st : Nat)
  /-- `LHU` (R379): Steward load of a zero-extended half-word. -/
  | lhu (st : Nat)
  /-- `LW` (R379): Steward load of a word. -/
  | lw (st : Nat)
  /-- `SB` (R379): Steward posted store of a byte. -/
  | sb (st : Nat)
  /-- `SH` (R379): Steward posted store of a half-word. -/
  | sh (st : Nat)
  /-- `SW` (R379): Steward posted store of a word. -/
  | sw (st : Nat)
  /-- `STORE_RESPONSE` (R376): The response to a posted steward store arrives, setting PSW.wc on WRITE_COLLIDED. -/
  | storeResponse (st : Nat)
  /-- `BEQ` (R379): Steward branch if equal. -/
  | beq (st : Nat)
  /-- `BNE` (R379): Steward branch if not equal. -/
  | bne (st : Nat)
  /-- `BLT` (R379): Steward branch if signed less. -/
  | blt (st : Nat)
  /-- `BGE` (R379): Steward branch if signed greater or equal. -/
  | bge (st : Nat)
  /-- `BLTU` (R379): Steward branch if unsigned less. -/
  | bltu (st : Nat)
  /-- `BGEU` (R379): Steward branch if unsigned greater or equal. -/
  | bgeu (st : Nat)
  /-- `J` (R379): Steward relative jump. -/
  | jump (st : Nat)
  /-- `CALL` (R380): Steward call: pushes the return address and jumps. -/
  | call (st : Nat)
  /-- `JR` (R379): Steward jump to register. -/
  | jr (st : Nat)
  /-- `CALLR` (R380): Steward call through register. -/
  | callr (st : Nat)
  /-- `RET` (R380): Steward return: pops the return stack. -/
  | ret (st : Nat)
  /-- `IN` (R377): Steward read of an IO port. -/
  | inPort (st : Nat)
  /-- `OUT` (R377): Steward write of an IO port. -/
  | outPort (st : Nat)
  /-- `ATOM_SWAP` (R379): Steward far atomic swap. -/
  | atomSwap (st : Nat)
  /-- `ATOM_CAS` (R379): Steward far atomic compare-and-swap. -/
  | atomCas (st : Nat)
  /-- `ATOM_FADD` (R379): Steward far atomic add. -/
  | atomFadd (st : Nat)
  /-- `ATOM_FOR` (R379): Steward far atomic or. -/
  | atomFor (st : Nat)
  /-- `ATOM_FMAXU` (R379): Steward far atomic unsigned maximum. -/
  | atomFmaxu (st : Nat)
  /-- `SYSCALL` (R395): SYS fn 0 raises SYSCALL for a service in g1. -/
  | syscall (st : Nat)
  /-- `BREAK` (R379): SYS fn 1 raises BREAK. -/
  | breakpoint (st : Nat)
  /-- `RETE` (R382): SYS fn 2 returns from an exception from the stack or fault shelf. -/
  | rete (st : Nat)
  /-- `FENCE` (R379): SYS fn 3 waits until earlier stores, OUTs and atomics have responses. -/
  | fence (st : Nat)
  /-- `WAITANY` (R387): SYS fn 4 waits until any masked flag is set or the time-out expires. -/
  | waitany (st : Nat)
  /-- `WAITALL` (R387): SYS fn 5 waits until all masked flags are set or the time-out expires. -/
  | waitall (st : Nat)
  /-- `YIELD` (R390): SYS fn 6 moves the task behind READY tasks of equal priority. -/
  | yield (st : Nat)
  /-- `MFPSW` (R371): SYS fn 7 reads the PSW. -/
  | mfpsw (st : Nat)
  /-- `MTPSW` (R371): SYS fn 8 writes the PSW, limited to sticky bits in extension mode. -/
  | mtpsw (st : Nat)
  /-- `IRDW` (R372): SYS fn 9 reads an I-space word. -/
  | irdw (st : Nat)
  /-- `IWRW` (R372): SYS fn 10 writes an I-space word. -/
  | iwrw (st : Nat)
  /-- `RSPUSH` (R380): SYS fn 11 pushes a value on the return stack. -/
  | rspush (st : Nat)
  /-- `RSPOP` (R380): SYS fn 12 pops the return stack. -/
  | rspop (st : Nat)
  /-- `RSDEPTH` (R379): SYS fn 13 returns the return-stack depth. -/
  | rsdepth (st : Nat)
  /-- `CINV` (R375): SYS fn 14 drops the cache line holding an address. -/
  | cinv (st : Nat)
  /-- `ST_HALT` (R379): SYS fn 15 stops the core until the cluster restarts. -/
  | stHalt (st : Nat)
  /-- `STEWARD_ADOPTION` (R383): The adopting steward restarts the halted steward's tasks, completes its commands
  with TIMEOUT and requeues its traps. -/
  | stewardAdoption (st : Nat)
  /-- `STEWARD_CLUSTER_RESTART` (R383): The steward cluster restarts from the active slot after the last steward
  halts or at activation. -/
  | stewardClusterRestart
  /-- `EXIT` (R395): Extension service 0x00 stops the calling task. -/
  | exit (st : Nat)
  /-- `EVENT` (R395): Extension service 0x01 writes one event record. -/
  | event (st : Nat)
  /-- `TASK_START` (R395): Extension service 0x02 starts a task of the module. -/
  | taskStart (st : Nat)
  /-- `INFO` (R395): Extension service 0x03 returns module id, steward and Shelf address. -/
  | info (st : Nat)
  /-- `TRAP_NEXT` (R395): Extension service 0x04 copies the oldest trap message of the module's range. -/
  | trapNext (st : Nat)
  /-- `TRAP_RETURN` (R395): Extension service 0x05 sends a trap return for a trap delivered to the module. -/
  | trapReturn (st : Nat)
  /-- `EVENT_ROUTED` (R386): A hardware event source reaches the flag of its routed task slot and may ready the
  task. -/
  | eventRouted (source : Nat)
  /-- `WAIT_TIMEOUT` (R387): A task's wait time-out expires and it becomes READY with rd = 0. -/
  | waitTimeout (st slot : Nat)
  /-- `PREEMPTION` (R390): The dispatcher switches to a READY task of higher effective priority at an instruction
  boundary. -/
  | preemption (st : Nat)
  /-- `DSP_TIMER_EXPIRY` (R386): The periodic dispatcher timer expires and raises event source 28. -/
  | dspTimerExpiry
  /-- `CACHE_INVALIDATION` (R352): An invalidation notice drops a line from a steward data cache before the write
  responds. -/
  | cacheInvalidation (st line : Nat)
  /-- `VECTOR_STAGE` (R245): The leader stages the next vector of a site and sends it in its send slot. -/
  | vectorStage (site : Nat)
  /-- `FRET_WRITE` (R246): The follower writes and arms a fret with expected data, enables and sidecar. -/
  | fretWrite (lane : Nat)
  /-- `PLAYBACK_RECORD_FETCH` (R256): A stream reader's DDR5 read of stored-vector records completes into its
  buffer. -/
  | playbackRecordFetch (reader : Nat)
  /-- `FLIT_SLOT_START` (R308): At each flit slot an end chooses the highest-priority flit to transmit. -/
  | flitSlotStart (lane : Nat)
  /-- `CAPT_RECEIVED` (R262): A capture flit arrives and is matched to its fret and compared, or classified as
  LATE_CAPTURE. -/
  | captReceived (lane ty field flags payload err : Nat)
  /-- `REFLEX_STOP` (R272): A mismatch at an armed site sends the reflex stop to its vector engine, which halts the
  site. -/
  | reflexStop (site : Nat)
  /-- `FRET_DEADLINE` (R261): An armed fret reaches its deadline and is resolved as MISSING_CAPTURE or deferred
  during a halt. -/
  | fretDeadline (lane err : Nat)
  /-- `FAIL_TOKEN_INJECT` (R271): The lane group's injection port sends the next fail token from a lane's fail FIFO.
  -/
  | failTokenInject (lg : Nat)
  /-- `SUMMARY_INTERVAL_END` (R275): A summary interval ends and the lane writes a summary record. -/
  | summaryIntervalEnd (lane : Nat)
  /-- `HELD_RECORD_WRITE` (R276): A held summary or SITE_GAP record enters its outlet once the filling bank has
  room. -/
  | heldRecordWrite (lane : Nat)
  /-- `HALT_RPT_RECEIVED` (R314): A halt report or break report arrives and resolves the site's deferred frets. -/
  | haltRptReceived (lane seq : Nat) (payload : List Byte)
  /-- `HALT_REPORT_TIMEOUT` (R314): No halt report 8 µs after a HALT and the lane is lost with cause 0x07. -/
  | haltReportTimeout (lane : Nat)
  /-- `LINK_STATUS_RECEIVED` (R304): An IDLE or CREDIT flit arrives and updates credits, acknowledgements and pair
  presence. -/
  | linkStatusReceived (lane : Nat) (credit : Bool) (payload : List Byte)
  /-- `CREDIT_REFRESH_DUE` (R307): 2 µs have passed since the last IDLE or CREDIT flit and a CREDIT becomes due. -/
  | creditRefreshDue (lane : Nat)
  /-- `CTRL_RECEIVED` (R309): A control message arrives and is accepted in sequence, queued for firmware or acted
  on. -/
  | ctrlReceived (lane : Nat) (payload : List Byte)
  /-- `CTRL_RETRANSMIT` (R309): A control message unacknowledged for 4 µs is sent again, and after four sends the
  lane is lost. -/
  | ctrlRetransmit (lane : Nat)
  /-- `MEAS_RECEIVED` (R306): A MEAS flit arrives into the measure FIFO under credit. -/
  | measReceived (lane tag : Nat) (payload : List Byte)
  /-- `TRAIN_RECEIVED` (R316): A TRAIN flit arrives, advancing LOCK or losing an UP lane with cause 0x05. -/
  | trainReceived (lane field : Nat) (done : Bool)
  /-- `NO_INTACT_FLIT_TIMEOUT` (R319): No intact flit for 1 µs loses the lane with cause 0x04. -/
  | noIntactFlitTimeout (lane : Nat)
  /-- `STIM_CREDIT_TIMEOUT` (R319): The leader waited 10 µs for STIM credit and the lane is lost with cause 0x06. -/
  | stimCreditTimeout (lane : Nat)
  /-- `SIGNAL_LOST` (R319): Loss of received signal loses the lane with cause 0x01 and moves it DOWN. -/
  | signalLost (lane : Nat)
  /-- `SIGNAL_DETECTED` (R315): Signal returns on a DOWN lane after signal loss and training starts. -/
  | signalDetected (lane : Nat)
  /-- `TRAINING_PHASE_TIMEOUT` (R316): A training phase exceeds its timeout and the lane returns to phase EQ. -/
  | trainingPhaseTimeout (lane : Nat)
  /-- `EQ_COMPLETE` (R316): Equaliser training ends and the lane enters phase LOCK. -/
  | eqComplete (lane : Nat)
  /-- `HELLO_RECEIVED` (R317): A HELLO arrives in PARAM and is checked; training ends in UP or IDLE_HELD or fails.
  -/
  | helloReceived (lane : Nat) (body : List Byte)
  /-- `HELLO_RESEND` (R316): An unacknowledged HELLO is sent again every 4 µs in PARAM. -/
  | helloResend (lane : Nat)
  /-- `OUTLET_BANK_SWAP` (R283): The outlet banks swap roles once the draining bank is empty of committed records.
  -/
  | outletBankSwap (outlet : Nat)
  /-- `OUTLET_RECORD_DRAIN` (R284): The read side copies the next committed record of the draining bank into the
  ring when it fits. -/
  | outletRecordDrain (outlet : Nat) (upset : Option (Nat × Nat))
  /-- `OUTLET_RESET` (R289): Disagreeing pointer copies reset the outlet, dropping open and unwritten records. -/
  | outletReset (outlet ptr m : Nat)
  /-- `PACKET_FORWARD` (R336): A router forwards a packet one hop under credit along the dimension-ordered route. -/
  | packetForward (net chan router inport : Nat) (linkOk : Bool)
  /-- `NOTICE_BROADCAST` (R340): A notice is broadcast over the notice network and delivered once to each present
  endpoint. -/
  | noticeBroadcast
  /-- `DOMAIN_TRANSITION_DONE` (R470): A domain completes a power transition and held packets or notices are
  delivered. -/
  | domainTransitionDone (d : Nat)
  /-- `DOMAIN_IDLE_HOLDOFF` (R472): A woken domain idle for the hold-off returns to its set state. -/
  | domainIdleHoldoff (d : Nat)
  /-- `POLICY_APPLY` (R473): No job live or queued for the hold-off and the insertion policy rests the domains. -/
  | policyApply
  /-- `FABRIC_SLEEP_STEP` (R475): The next step of fabric-sleep entry starts once the previous one completes. -/
  | fabricSleepStep
  /-- `FABRIC_WAKE` (R475): A wake input starts fabric wake or abandons an entry in progress. -/
  | fabricWake (input : Nat)
  /-- `QUAD_TRACE_FLUSH` (R479): A quad entering sleep writes a SLEEP record and flushes its collector for up to 1
  µs. -/
  | quadTraceFlush (quad : Nat)
  /-- `AO_TICK` (R477): An AO tick advances TIME by 500 while the fabric sleeps. -/
  | aoTick
  /-- `RAIL_BAD` (R481): A rail stays below its bad level for 0.5 µs and the domains it feeds are reset. -/
  | railBad (rail : Nat)
  /-- `RAIL_GOOD` (R480): A rail stays at its good level for 100 µs and domains needing it leave reset. -/
  | railGood (rail : Nat)
  /-- `FREF_LOSS` (R481): Loss of FREF while the fabric runs is handled as a loss of VDD_CORE. -/
  | frefLoss
  /-- `LREF_LOSS` (R481): Loss of LREF[k] loses every lane it clocks with cause 0x01. -/
  | lrefLoss (k : Nat)
  /-- `SENTINEL_SAMPLE` (R484): Every 10 µs the rule engine samples all inputs, evaluates rules and applies their
  actions. -/
  | sentinelSample (samples : List Int)
  /-- `DPF_ASSERT` (R488): A low pulse on DPF_N[k] asserts DUT_KILL_N[k] through the hardware path. -/
  | dpfAssert (k : Nat)
  /-- `DPF_RELEASE_TIMER` (R488): 1 ms after DPF_N[k] returns high the hardware path releases DUT_KILL_N[k]. -/
  | dpfReleaseTimer (k : Nat)
  /-- `RESET_ASSERT` (R494): RESET_N low holds every domain except PD00 in reset. -/
  | resetAssert
  /-- `RESET_RELEASE` (R495): RESET_N rises and the boot ROM starts the boot sequence. -/
  | resetRelease (bootSel : Nat)
  /-- `BOOT_STEP` (R495): A boot step completes and the next starts: tamper check, flash, slot verify, firmware
  settings, KEK. -/
  | bootStep (fails : List (Nat × Nat))
  /-- `CONFIRMATION_TIMEOUT` (R498): The confirmation timer of a trial expires and the sentinel orders a revert. -/
  | confirmationTimeout
  /-- `TAMPER_ALARM` (R518): A tamper source alarms; the latch sets, keys are zeroized and encrypted blocks are
  unloaded. -/
  | tamperAlarm (source : Nat)
  /-- `ENTROPY_FAILURE` (R515): The entropy source fails a health test and random-number operations are refused. -/
  | entropyFailure
  /-- `PWR_WARN` (R502): PWR_WARN_N asserts and a ledger snapshot write goes ahead on CS1. -/
  | pwrWarn
  /-- `LEDGER_SNAPSHOT` (R536): Every 10 minutes firmware writes a life-ledger snapshot and recomputes the wear
  index. -/
  | ledgerSnapshot
  /-- `PATROL_UNIT` (R525): Patrol marches the next unit of a target and repairs what fails; `upset` is an error that has
  struck an array in the meantime. -/
  | patrolUnit (failed : Bool) (upset : Option Upset)
  /-- `PE_FAILURE` (R527): A PE fails; jobs using its logical PE are killed and a spare is taken into service. -/
  | peFailure (pe cause : Nat)
  /-- `SPARE_IN_SERVICE` (R527): A spare PE is loaded and begins serving the failed logical PE. -/
  | spareInService (spare : Nat)
  /-- `EVENT_RECORD_INTAKE` (R533): The recorder takes an event from its intake and writes a new record or a repeat.
  -/
  | eventRecordIntake
  /-- `RECORD_CHANGE_APPLY` (R534): A pending repeat change is applied to a record once 50 µs have passed since its
  last change. -/
  | recordChangeApply
  /-- `DDR_SCHEDULE_WINDOW` (R354): Each 1 µs window a DDR5 channel serves requests within shares first, then beyond
  share in user order. -/
  | ddrScheduleWindow (chan : Nat) (upset : Option (Nat × Nat))
  /-- `DDR_REQUEST_SERVED` (R351): A DDR5 controller serves a line access, correcting or poisoning errors. -/
  | ddrRequestServed (chan err : Nat)
  /-- `REFRESH_DERATE` (R353): A device reporting above 85 °C doubles refresh and the shares are derated. -/
  | refreshDerate (chan : Nat) (hot : Bool)
  /-- `PATROL_SCRUB` (R351): Patrol scrub reads the next DDR5 line within its period. -/
  | patrolScrub (chan err : Nat)
  /-- `SHELF_ACCESS` (R358): A Shelf bank serves the lowest-numbered port's access, with collisions flagged. -/
  | shelfAccess (bank err : Nat)
  /-- `EPOCH_BOUNDARY` (R440): An epoch boundary of TIME closes the journal with END and starts the next epoch. -/
  | epochBoundary
  /-- `JOURNAL_RECORD_RECEIVED` (R441): The standby receives a journal record and applies it in order. -/
  | journalRecordReceived (rec : JRec)
  /-- `EPOCH_ACK` (R443): The standby acknowledges an epoch and the active releases its held items. -/
  | epochAck (epoch : Nat)
  /-- `HEARTBEAT_SEND` (R439): Every 250 ns a package sends a heartbeat over the Bridge. -/
  | heartbeatSend
  /-- `HEARTBEAT_RECEIVED` (R439): A heartbeat arrives with the partner's role, term and epochs, ending any
  suspicion. -/
  | heartbeatReceived (hb : Heartbeat)
  /-- `SUSPICION` (R449): No heartbeat for 1 µs and the standby suspects the active. -/
  | suspicion
  /-- `CONFIRMATION_EXPIRY` (R454): A suspicion unconfirmed for 2 µs is treated as Bridge loss. -/
  | confirmationExpiry
  /-- `TAKEOVER` (R450): A confirmed suspicion makes the standby claim ACTIVE with a new term. -/
  | takeover
  /-- `PRIM_CLAIM_IN_CHANGE` (R435): PRIM_CLAIM_IN changes level after two equal samples. -/
  | primClaimInChange (level : Bool)
  /-- `FORMATION_TIMEOUT` (R436): A PAIR_PREF-high package waits 2 s for the Bridge and then claims ACTIVE. -/
  | formationTimeout
  /-- `SEAT_MESSAGE` (R436): A seat message makes an initial partner STANDBY at the active's term. -/
  | seatMessage (term : Nat)
  /-- `DUAL_CLAIM_CHECK` (R437): 10 µs after seeing a partner's claim, a package not followed by a quorum drops its
  claim. -/
  | dualClaimCheck
  /-- `BRIDGE_TRAINED` (R438): The Bridge completes training and the packages exchange and compare parameters. -/
  | bridgeTrained (params : BridgeParams)
  /-- `BRIDGE_LANE_LOSS` (R438): A Bridge lane leaves link and retrains while the rest carry on. -/
  | bridgeLaneLoss (k : Nat)
  /-- `MIRROR_WRITE` (R457): A mirrored DDR5 write reaches the reseating partner and is written at the same address.
  -/
  | mirrorWrite (addr : Nat) (data : List Byte)
  /-- `RESEAT_COPY_DONE` (R457): The reseat copy ends and SEAM is sent at the next epoch boundary. -/
  | reseatCopyDone
  /-- `SEAM` (R457): The partner applies SEAM and becomes STANDBY at the active's term. -/
  | seam (term : Nat) (liveJobs : List Nat) (cfg : SeamCfg)
  /-- `RESEAT_FAILURE` (R459): Excess mirror traffic or Bridge failure fails the reseat and the partner stays
  DETACHED. -/
  | reseatFailure
  /-- `UNPROTECTED_JOB_END` (R458): The last unprotected job ends and UNPROTECTED clears. -/
  | unprotectedJobEnd
  /-- `BRIDGE_LOSS_AT_ACTIVE` (R454): 3 µs after its last heartbeat from the partner, the active becomes
  UNPROTECTED, ends journalling, releases every held item and the partner's pegs, and sets alert bit 7. -/
  | bridgeLossAtActive
  /-- `TRIG_RISING_EDGE` (R145): A rising edge on the TRIG input selected by TR_TRIG_CFG.pin triggers the trace when
  src is 2, writing a TRIGGER record with origin 0xFF. -/
  | trigRisingEdge (pin : Nat)
  /-- `FREF_RETURN` (R481): FREF returns after a loss, so the PLLs can lock again, the domains reset as for VDD_CORE
  restart, and the AO oscillator returns to disciplined operation. -/
  | frefReturn
  /-- `UNCORRECTABLE_CODEWORD` (R319): A received codeword is uncorrectable in FEC mode, or a flit CRC fails in
  bypass mode, so the flits in it are errored and counted, and eight in a row lose the lane with cause 0x02. -/
  | uncorrectableCodeword (lane flits symbols : Nat)
  /-- `KILL_SWEEP_END` (R212): A PE's kill sweep of its drawers, spill buffer, lookup table, ready list and firings
  ends, and the PE sends its kill acknowledgement once every awaited response has also arrived. -/
  | killSweepEnd (pe : Nat)
  /-- `STANDBY_FIRMWARE_RUNNING` (R511): The standby reports over the Bridge that its new firmware runs, and the
  active releases the journalled mailbox commands and register writes that it held. -/
  | standbyFirmwareRunning
  /-- `MB_GO_UNDEFINED_ID` (R409): An MB_GO is accepted with a command id that Table 12-7 does not list, and the
  command completes with BAD_ARG without effect, or earlier with BUSY or NOT_ACTIVE under orders 1 and 2. -/
  | mbGoUndefinedId (mb : Nat)
  deriving DecidableEq, Repr

end Sys2Proof
end

