-- ==== Sys2Proof/Config.lean ====
section
/-! DEFINITION. What one implementation or a published standard fixes and the manual does not: opaque constants, so
that nothing can be proved of their values. -/

namespace Sys2Proof.Config

/-- A value the manual leaves open, taken at the model's counter of such values (log entry 4, DESIGN CHOICE). -/
opaque freeNat : Nat → Nat

/-- The SECDED code of a matching-store or Cabinet entry's half: the manual names the code, not its bits (R73; log entry 98,
DESIGN CHOICE). -/
opaque secded : Nat → Nat

/-- One less than the writer-port credits that a PE holds: the manual states no number (Table 04-4; log entry 17, DESIGN
CHOICE). -/
opaque writerCredits : Nat

/-- The RS(544,514) parity of a codeword's 5,140 message bits, 300 bits (R299: the standard is named, not restated; log entry 5,
DESIGN CHOICE). -/
opaque rs544 : Nat → Nat

/-- SHA-384 of a byte string (R9, R497; the standard is named, not restated; log entry 5, DESIGN CHOICE). -/
opaque sha384 : List Byte → List Byte

/-- ECDSA P-384 verification: public key, digest, signature (R392, R497, R520; log entry 5, DESIGN CHOICE). -/
opaque ecdsaOk : List Byte → List Byte → List Byte → Bool

/-- AES-256-GCM opening: key, IV, additional data, ciphertext, tag; none when the tag fails (R514; log entry 5, DESIGN
CHOICE). -/
opaque gcmOpen : List Byte → List Byte → List Byte → List Byte → List Byte → Option (List Byte)

/-- RFC 3394 unwrap of a wrapped key under the KEK; none when the integrity check fails (R513; log entry 5, DESIGN CHOICE). -/
opaque keyUnwrap : List Byte → List Byte → Option (List Byte)

/-- The KEK derived from root and serial (R512; log entry 5, DESIGN CHOICE). -/
opaque kdf : List Byte → List Byte → List Byte

/-- The vendor's firmware key, of which the OTP memory holds the digest (R497, R520; log entry 5, DESIGN CHOICE). -/
opaque vendorKey : List Byte → List Byte

/-- The n-th 32-byte output of the DRBG (R515, R520; log entry 5, DESIGN CHOICE). -/
opaque drbg : Nat → List Byte

/-- The actor ISA level that this die reports (Table 12-5; log entry 4, DESIGN CHOICE). -/
opaque actorIsa : Nat

/-- The 48-bit provisioned ID that a serial number gives (R426; log entry 4, DESIGN CHOICE). -/
opaque i3cPid : Nat → Nat

/-- What the target answers to GETBCR, GETDCR, GETMWL and GETMRL, by CCC code (R426; log entry 4, DESIGN CHOICE). -/
opaque i3cConst : Nat → Nat

/-- What a firmware image's body puts into a steward's I-space: the body's content is internal to the vendor's firmware
(R497; log entry 42, DESIGN CHOICE). -/
opaque fwCode : List Byte → Nat → List Byte

/-- The system block that firmware loads into context 0, its image by part and the block ID it takes (log entry 16, DESIGN
CHOICE). -/
opaque sysImage : Nat → List Byte
opaque sysBlock : Nat

/-- The VDD_CORE target in millivolts above 720 that firmware's standard table gives a part of trim A (R544; log entry 123,
DESIGN CHOICE). -/
opaque avsStandard : Nat → Nat

end Sys2Proof.Config
end

