-- ==== Sys2Proof/Machine/Bits.lean ====
section
/-! DEFINITION. Bit fields, little-endian byte strings (R8, R9), the two check codes, tables keyed by number, and
byte memories in one canonical form. -/

namespace Sys2Proof.Machine
open Sys2Proof

/-- Bits [hi:lo] of a number (R8: both ends included). -/
def bits (v hi lo : Nat) : Nat := (v / 2 ^ lo) % 2 ^ (hi + 1 - lo)

/-- Bit i of a number as a Bool. -/
def bit (v i : Nat) : Bool := bits v i i == 1

/-- `v` with bits [hi:lo] replaced by `x`. -/
def setBits (v hi lo x : Nat) : Nat :=
  v - bits v hi lo * 2 ^ lo + (x % 2 ^ (hi + 1 - lo)) * 2 ^ lo

/-- 1 for true, 0 for false. -/
def b2n (b : Bool) : Nat := if b then 1 else 0

/-- A number's sign-extended reading of its low `w` bits. -/
def sext (w v : Nat) : Int :=
  let u := v % 2 ^ w
  if u < 2 ^ (w - 1) then (u : Int) else (u : Int) - 2 ^ w

/-- The low `w` bits of an integer, two's complement. -/
def wrap (w : Nat) (i : Int) : Nat := (i % (2 ^ w : Int)).toNat

/-- `n` bytes of a number, least significant first (R9). -/
def leBytes : Nat → Nat → List Byte
  | 0, _ => []
  | n + 1, v => BitVec.ofNat 8 v :: leBytes n (v / 256)

/-- The number that little-endian bytes hold (R9). -/
def leNat : List Byte → Nat
  | [] => 0
  | b :: r => b.toNat + 256 * leNat r

/-- `n` bytes of a string from offset `o`; bytes beyond its end are left out. -/
def slice (bs : List Byte) (o n : Nat) : List Byte := (bs.drop o).take n

/-- The little-endian number in `n` bytes at offset `o`. -/
def fld (bs : List Byte) (o n : Nat) : Nat := leNat (slice bs o n)

/-- Whether every byte is zero. -/
def allZero (bs : List Byte) : Bool := bs.all (· == 0)

/-- `n` zero bytes. -/
def zeros (n : Nat) : List Byte := List.replicate n 0

/-- A string cut or padded with zeros to `n` bytes. -/
def padTo (n : Nat) (bs : List Byte) : List Byte := (bs ++ zeros n).take n

/-- Set bits of a number below `n`, ascending. -/
def setBitsOf (n v : Nat) : List Nat := (List.range n).filter fun i => bit v i

/-- The number whose set bits are listed. -/
def maskOf (l : List Nat) : Nat := l.foldl (fun m i => m ||| 2 ^ i) 0

/-- Number of set bits below `n`. -/
def popcount (n v : Nat) : Nat := (setBitsOf n v).length

/-- Parity of the low `n` bits. -/
def parity (n v : Nat) : Bool := popcount n v % 2 == 1

/-- Number of significant bits: 0 for zero. -/
def sigBits (v : Nat) : Nat := if v = 0 then 0 else Nat.log2 v + 1

/-- Ceiling division. -/
def cdiv (a b : Nat) : Nat := (a + b - 1) / b

/-- A saturating sum. -/
def satAdd (mx a b : Nat) : Nat := min mx (a + b)

/-- One bit of the token CRC of R52: polynomial 0x8BB7, most significant bit first. -/
def crc16Bit (c : Nat) (b : Bool) : Nat :=
  let top := (bit c 15) != b
  let c' := (c * 2) % 65536
  if top then c' ^^^ 0x8BB7 else c'

/-- One byte of the token CRC, most significant bit first. -/
def crc16Byte (c : Nat) (b : Byte) : Nat :=
  [7, 6, 5, 4, 3, 2, 1, 0].foldl (fun c i => crc16Bit c (b.getLsbD i)) c

/-- The CRC-16 of R52: initial value 0, no reflection, no final XOR. -/
def crc16 (bs : List Byte) : BitVec 16 := BitVec.ofNat 16 (bs.foldl crc16Byte 0)

/-- One bit of the IEEE 802.3 CRC-32, least significant bit first. -/
def crc32Bit (c : Nat) (b : Bool) : Nat :=
  if (bit c 0) != b then (c / 2) ^^^ 0xEDB88320 else c / 2

/-- One byte of the CRC-32. -/
def crc32Byte (c : Nat) (b : Byte) : Nat :=
  [0, 1, 2, 3, 4, 5, 6, 7].foldl (fun c i => crc32Bit c (b.getLsbD i)) c

/-- The CRC-32 with the IEEE 802.3 polynomial (R62, R226, R286, R500): the standard's initial value and final
inversion (log entry 6, PRESUMED). -/
def crc32 (bs : List Byte) : Nat := (bs.foldl crc32Byte 0xFFFFFFFF) ^^^ 0xFFFFFFFF

/-! ### Tables keyed by number -/

/-- Sparse data by number, keys rising. -/
abbrev Tbl (α : Type) := List (Nat × α)

/-- The entry at a key, or the given default. -/
def Tbl.get {α : Type} (d : α) : Tbl α → Nat → α
  | [], _ => d
  | (j, v) :: r, k => if j = k then v else Tbl.get d r k

/-- The entry at a key, if listed. -/
def Tbl.find {α : Type} : Tbl α → Nat → Option α
  | [], _ => none
  | (j, v) :: r, k => if j = k then some v else Tbl.find r k

/-- The table with one entry written. -/
def Tbl.put {α : Type} : Tbl α → Nat → α → Tbl α
  | [], k, v => [(k, v)]
  | (j, w) :: r, k, v =>
    if k < j then (k, v) :: (j, w) :: r
    else if k = j then (k, v) :: r
    else (j, w) :: Tbl.put r k v

/-- The table without one entry. -/
def Tbl.del {α : Type} (t : Tbl α) (k : Nat) : Tbl α := t.filter fun p => p.1 != k

/-- The table with one entry changed (or made from the default). -/
def Tbl.upd {α : Type} (d : α) (t : Tbl α) (k : Nat) (f : α → α) : Tbl α := t.put k (f (t.get d k))

/-! ### Byte memories -/

/-- A byte memory: cells at rising addresses, none equal to the fill byte that an unlisted address reads as. -/
abbrev Mem := List Host.Cell

/-- The byte at an address; an unlisted address reads as the fill byte (log entry 2, DESIGN CHOICE). -/
def Mem.read (d : Byte) : Mem → Nat → Byte
  | [], _ => d
  | (j, v) :: r, a => if j = a then v else Mem.read d r a

/-- The memory with one byte written, still in canonical form. -/
def Mem.write (d : Byte) : Mem → Nat → Byte → Mem
  | [], a, b => if b = d then [] else [(a, b)]
  | (j, v) :: r, a, b =>
    if a < j then (if b = d then (j, v) :: r else (a, b) :: (j, v) :: r)
    else if a = j then (if b = d then r else (a, b) :: r)
    else (j, v) :: Mem.write d r a b

/-- Whether every listed address lies above `lo` (none: no bound), rising, and no byte equals the fill. -/
def Mem.above (d : Byte) : Option Nat → Mem → Bool
  | _, [] => true
  | lo, (a, b) :: r => (match lo with | none => true | some l => decide (l < a)) && b != d && Mem.above d (some a) r

/-- The canonical form. -/
def Mem.wf (d : Byte) (m : Mem) : Bool := Mem.above d none m

/-- `n` bytes from an address. -/
def Mem.readBytes (d : Byte) (m : Mem) (a : Nat) : Nat → List Byte
  | 0 => []
  | n + 1 => Mem.read d m a :: Mem.readBytes d m (a + 1) n

/-- Bytes written to consecutive addresses. -/
def Mem.writeBytes (d : Byte) : Mem → Nat → List Byte → Mem
  | m, _, [] => m
  | m, a, b :: r => Mem.writeBytes d (Mem.write d m a b) (a + 1) r

/-- The little-endian number in `n` bytes. -/
def Mem.readN (d : Byte) (m : Mem) (a n : Nat) : Nat := leNat (Mem.readBytes d m a n)

/-- A number written as `n` little-endian bytes. -/
def Mem.writeN (d : Byte) (m : Mem) (a n v : Nat) : Mem := Mem.writeBytes d m a (leBytes n v)

end Sys2Proof.Machine
end

