-- ==== Sys2Proof/Machine/State.lean ====
section
/-! DEFINITION. The state of the block: one record for each unit the manual gives state to, as plain data, with the
values after reset as the fields' defaults. -/

namespace Sys2Proof.Machine
open Sys2Proof

/-! ### Tokens, firings and packets (chapters 02, 04, 10) -/

/-- A token (R36): the tag's four fields, the value, the attributes and the check field. -/
structure Tok where
  ctx : BitVec 20 := 0
  act : BitVec 14 := 0
  iter : BitVec 28 := 0
  port : BitVec 2 := 0
  value : Dword := 0
  flow : BitVec 10 := 0
  grp : BitVec 3 := 0
  poison : Bool := false
  kind : BitVec 2 := 0
  crc : BitVec 16 := 0
  deriving DecidableEq, Repr

/-- A waiting token in a drawer, the spill buffer or a Cabinet region (R73); valid is being listed. `err` is what its check
codes will report when it is read next (R76). -/
structure Ent where
  tok : Tok := {}
  pin : Bool := false
  age : Nat := 0
  err : EntErr := .none
  deriving DecidableEq, Repr

/-- An enabled firing as a ready-list entry carries it (R123): actor word, block, match key, operand tokens by port
with the immediate, weight, arrival number and FLOW of the enabling token; `dead` once a kill sweep has met it, so that it is
dropped at issue (R103, R132). -/
structure Firing where
  word : Nat := 0
  block : Nat := 0
  ctx : Nat := 0
  act : Nat := 0
  iter : Nat := 0
  a : Option Tok := none
  b : Option Tok := none
  c : Option Tok := none
  imm : Option Nat := none
  grp : Nat := 0
  job : Nat := 0
  weight : Nat := 1
  arr : Nat := 0
  flow : Nat := 0
  at_ : Nat := 0
  issued : Nat := 0
  pipe : Nat := 0
  held : Bool := false
  dead : Bool := false
  deriving DecidableEq, Repr

/-- The resource that a firing in service holds (Table 04-4). -/
inductive Slot where
  | rsp (n : Nat)
  | ctx (n : Nat)
  | trap (n : Nat)
  | writer (outlet : Nat)
  deriving DecidableEq, Repr

/-- A firing in service that waits for a response, a reply, an answer or a trap return; `dead` once a kill sweep has
completed it while its request is still out (R132). A COMMIT that goes to both outlets (R179) has two: `twin` is the other's
slot while its answer is out, `part` the result word of the answer that came first. -/
structure Svc where
  f : Firing := {}
  slot : Slot := .rsp 0
  pipe : Nat := 0
  dead : Bool := false
  twin : Option Nat := none
  part : Option Nat := none
  deriving DecidableEq, Repr

/-- The operations that a memory-side unit performs for a PE (Tables 05-6 and 05-7). -/
inductive MemOp where
  | ld (size : Nat) (signed : Bool)
  | st (size : Nat)
  | swap
  | cas
  | fadd
  | for_
  | fmaxu
  | iload
  | istore
  | ireset
  deriving DecidableEq, Repr

/-- A request to a memory: who asks, which slot the response takes, the address, the operands, the priority of R360
and the time it began to wait; `seq` numbers the requests of its PE in their order of issue (R167). -/
structure MemReq where
  op : MemOp := .ld 8 false
  shelf : Bool := false
  addr : Nat := 0
  b : Nat := 0
  c : Nat := 0
  pe : Nat := 0
  slot : Nat := 0
  ctx : Nat := 0
  prio : Nat := 0
  user : Nat := 2
  since : Nat := 0
  sched : Bool := false
  seq : Nat := 0
  deriving DecidableEq, Repr

/-- A tally request (R182). -/
structure TallyReq where
  pe : Nat := 0
  slot : Nat := 0
  ctx : Nat := 0
  a : Nat := 0
  op : Nat := 0
  space : Nat := 0
  deriving DecidableEq, Repr

/-- A class C request to the context manager (R158 to R160), or a token from the injection port (R210). -/
inductive CtxAsk where
  | newctx (b : Nat) (link : Option Nat) (tok : Tok)
  | send (t : Tok) (job : Nat)
  | ret (t : Tok) (free : Bool)
  | free
  | inject (t : Tok)
  deriving DecidableEq, Repr

/-- What a PE sends to an outlet's writer port (R178): its key, and the word, the commit or the poison mark. -/
inductive OutAsk where
  | append (ctl value : Nat) (poison : Bool)
  | commit (ctl : Nat)
  | commitPoisoned
  | mark
  deriving DecidableEq, Repr

/-- A trap message's content (Table 05-19). -/
structure TrapMsg where
  time : Nat := 0
  word : Nat := 0
  key : Nat := 0
  pe : Nat := 0
  slot : Nat := 0
  present : Nat := 0
  job : Nat := 0
  a : List Byte := []
  b : List Byte := []
  c : List Byte := []
  deriving DecidableEq, Repr

/-- An endpoint of the fabric (Table 01-2). -/
inductive Ep where
  | pe (n : Nat)
  | lg (n : Nat)
  | cm
  | cab
  | dc (n : Nat)
  | shelf
  | tu (n : Nat)
  | outlet (n : Nat) (port : Nat)
  | stew
  | pcie
  | sec
  | bridge
  | sync
  deriving DecidableEq, Repr

/-- What a packet carries. A lane token's routing header holds its job, its firing PE and, for a cohort copy, the
store entry (R171, R339). A response names the PE's slot. -/
inductive Body where
  | tok (t : Tok)
  | lane (t : Tok) (job pe : Nat) (mask : Option Nat)
  | mem (r : MemReq)
  | tally (r : TallyReq)
  | ctx (pe slot ctx : Nat) (k : CtxAsk)
  | out (pe slot ctx flow : Nat) (k : OutAsk)
  | trap (m : TrapMsg)
  | rsp (slot value : Nat) (poison : Bool) (fault : Nat)
  | reply (slot value : Nat) (fault : Nat)
  | answer (outlet slot value : Nat) (fault : Nat)
  deriving DecidableEq, Repr

/-- A packet in a router's input port (0 N, 1 E, 2 S, 3 W, 4 local) of one network and channel (R334): `src` is the
fire half 2·PE + pipe that sent it, or 1000 and above for another source. `chk` is the token that a request to a tally
unit, a writer port or the context manager carries, which its receiver checks (R53, R54). -/
structure Pkt where
  net : Nat := 0
  chan : Nat := 0
  router : Nat := 0
  inport : Nat := 4
  src : Nat := 1000
  dst : Ep := .cm
  body : Body := .tok {}
  chk : Option Tok := none
  deriving DecidableEq, Repr

/-- A notice waiting for broadcast (Table 10-1, R340): a kill notice, the invalidation of a 64-byte line (R352), an epoch mark,
the sleep or wake mark of a domain. -/
inductive Notice where
  | kill (id ctx : Nat)
  | inval (line : Nat)
  | epoch (n : Nat)
  | sleep (d : Nat)
  | wake (d : Nat)
  deriving DecidableEq, Repr

/-- A link of one router and direction (0 N, 1 E, 2 S, 3 W): consecutive failed transfers, and the failure of R338. -/
structure Link where
  bad : Nat := 0
  failed : Bool := false
  deriving DecidableEq, Repr

/-- The Scatrix fabric (R334 to R345). `regHold` are the register accesses that wait for a sleeping domain (R343). -/
structure Net where
  transit : List Pkt := []
  rr : Tbl Nat := []
  links : Tbl Link := []
  replay : Tbl Nat := []
  hold : Tbl Nat := []
  holdBuf : List Pkt := []
  regHold : List (Nat × Instr) := []
  notices : List Notice := []
  heldNotices : List (Nat × Notice) := []
  killIn : List (KillEnd × Nat × Nat) := []
  invIn : List (Nat × Nat) := []
  cohortQ : List Pkt := []
  deriving DecidableEq, Repr
/-! ### Processing elements, matching store and Cabinet (chapters 03, 04) -/

/-- A spill-buffer entry: its number in issue order and whether its Cabinet write is still to be acknowledged
(R79, R85). -/
structure Spill where
  id : Nat := 0
  ent : Ent := {}
  deriving DecidableEq, Repr

/-- A parked token with the tokens chained behind it (R77, R78); once its lookup has returned, the partners that joined no
firing yet, and whether the parked token itself is decided. -/
structure Park where
  tok : Tok := {}
  arr : Nat := 0
  at_ : Nat := 0
  pipe : Nat := 0
  chain : List (Nat × Tok) := []
  ret : Option (List Ent) := none
  tokDone : Bool := false
  deriving DecidableEq, Repr

/-- A kill that a PE is sweeping or has swept and whose acknowledgement waits for responses (R211). -/
structure Sweep where
  id : Nat := 0
  ctx : Nat := 0
  swept : Bool := false
  deriving DecidableEq, Repr

/-- One physical PE (Tables 03-1 and 04-1). Fire-half slots: `fire` keys 0 and 1 for the pipes, 2 and 3 for their
iterative units. `half` holds the token that a match half could not finish, with
its arrival number and the time it entered. `bp` tells since when a router credit is withheld (BP_CNT);
`reqs` counts the memory requests sent (R167). `cnt` holds the counters under their port offsets (R110, R141). -/
structure Pe where
  arr : Nat := 0
  qU : List (Nat × Tok) := []
  qG : List (Nat × Tok) := []
  inU : List Tok := []
  inG : List Tok := []
  outL : Tbl (List Tok) := []
  half : Tbl (Nat × Nat × Tok) := []
  ents : Tbl Ent := []
  retired : List Nat := []
  spill : List Spill := []
  spillId : Nat := 0
  park : List Park := []
  summary : Tbl Nat := []
  stage : Nat := 0
  ready : List Firing := []
  fk : List Firing := []
  ovf : List (Nat × Firing) := []
  ovfSeq : Nat := 0
  ptr : Nat := 0
  q : Nat := 0
  fire : Tbl Firing := []
  svc : List Svc := []
  rsp : List Body := []
  trapIn : List Tok := []
  dying : List Nat := []
  sweeps : List Sweep := []
  sample : Nat := 0
  bp : Option Nat := none
  reqs : Nat := 0
  failed : Bool := false
  cnt : Tbl Nat := []
  remaps : Nat := 0
  deriving DecidableEq, Repr

/-- One Cabinet region (R89 to R93): entries by 8 × bucket + place, buckets whose through flag is set, entries in use
counting the ready overflow, and the longest probe since the last pass. -/
structure Region where
  ents : Tbl Ent := []
  through : List Nat := []
  probeMax : Nat := 0
  deriving DecidableEq, Repr

/-- The Cabinet engine (R89 to R101). -/
structure Cabinet where
  regions : Tbl Region := []
  bgRegion : Nat := 0
  bgBucket : Nat := 0
  exh : List Nat := []
  exBucket : Nat := 0
  exhDone : List Nat := []
  exhCnt : Nat := 0
  devStage : Nat := 0
  ctxCnt : Tbl Nat := []
  abortWait : Bool := false
  deriving DecidableEq, Repr

/-- A trace record (Table 04-6). -/
structure TraceRec where
  time : Nat := 0
  ty : Nat := 0
  flags : Nat := 0
  origin : Nat := 0
  ctl : Nat := 0
  key : Nat := 0
  data : Nat := 0
  flow : Nat := 0
  aux : Nat := 0
  deriving DecidableEq, Repr

/-- A trigger condition of one fc (R134, R139): when and from which source, the record that meets it in its ordinary form,
with whether sampling would have sent it, and what the ring held where a TRIGGER record of origin 0xFF went. -/
structure TrigCond where
  at_ : Nat := 0
  src : Nat := 0
  orig : TraceRec := {}
  sampled : Bool := false
  under : List Byte := []
  deriving DecidableEq, Repr

/-- The trace collectors and the ring (R135 to R140): `posting` once the TRIGGER record is in the ring; `cond` the latest
trigger condition, and `before` the origin and the time that TR_STATUS and TR_TRIG_TIME held before it. -/
structure Trace where
  coll : Tbl (List TraceRec) := []
  lost : Tbl Nat := []
  wrIdx : Nat := 0
  armed : Bool := false
  triggered : Bool := false
  stopped : Bool := false
  wrapped : Bool := false
  loss : Bool := false
  origin : Nat := 0
  trigTime : Nat := 0
  post : Nat := 0
  posting : Bool := false
  lossCnt : Nat := 0
  cond : Option TrigCond := none
  before : Nat × Nat := (0, 0)
  deriving DecidableEq, Repr

/-- A tally unit's line: row or column address, distinct failing cells (R183). -/
structure TallyLine where
  space : Nat := 0
  addr : Nat := 0
  count : Nat := 0
  deriving DecidableEq, Repr

/-- One space of a tally unit. -/
structure TallySpace where
  rs : Nat := 0
  cs : Nat := 0
  ovf : Bool := false
  deriving DecidableEq, Repr

/-- A tally unit: its requests and its three CAMs by entry index (R182). -/
structure Tally where
  q : List TallyReq := []
  cells : List (Nat × Nat × Nat) := []
  rows : Tbl TallyLine := []
  cols : Tbl TallyLine := []
  spaces : Tbl TallySpace := []
  deriving DecidableEq, Repr
/-! ### Jobs, contexts and code blocks (chapters 02, 06) -/

/-- A PE-set descriptor (R65). -/
structure PeSet where
  members : Nat := 0
  shift : Nat := 0
  mode : Nat := 0
  deriving DecidableEq, Repr

/-- A resident code block (R62 to R68): what the loader has written to code memory, route sidecars and PE-set
tables; `loading` while its load is in progress (R195), `sys` when firmware runs it in context 0. -/
structure Block where
  flags : Nat := 0
  words : List Nat := []
  place : List Nat := []
  pool : List Nat := []
  sets : List PeSet := []
  isa : Nat := 0
  w : Nat := 0
  keyId : Nat := 0
  loading : Bool := false
  sys : Bool := false
  deriving DecidableEq, Repr

/-- An initial-token entry (R198). -/
structure Init where
  act : Nat := 0
  port : Nat := 0
  iter : Nat := 0
  value : Nat := 0
  deriving DecidableEq, Repr

/-- A job: its descriptor's fields (R197), its initial tokens as read once, one more than the fc of the JOB_SUBMIT that queued
it (R203), what admission adds (R205), and `desc`, the descriptor itself, which SEAM carries (R457). -/
structure Job where
  flags : Nat := 0
  cookie : Nat := 0
  block : Nat := 0
  grp : Nat := 0
  failGrp : Nat := 0
  failAct : Nat := 0
  failEn : Bool := false
  cohortFirst : Nat := 0
  cohortCount : Nat := 0
  weights : List Nat := []
  runLimit : Nat := 0
  ctxMax : Nat := 0
  sites : Nat := 0
  lostLen : Nat := 0
  lostAddr : Nat := 0
  istrBase : Nat := 0
  istrElems : Nat := 0
  dataBase : Nat := 0
  dataSize : Nat := 0
  shelfBase : Nat := 0
  shelfSize : Nat := 0
  inits : List Init := []
  sub : Nat := 0
  root : Nat := 0
  start : Nat := 0
  order : Nat := 0
  w : Nat := 0
  ended : Bool := false
  normal : Bool := false
  desc : List Byte := []
  deriving DecidableEq, Repr

/-- A context-table entry (R209); state 0 free, 1 live, 2 dying, 3 draining. -/
structure Ctx where
  link : Nat := 0
  linkValid : Bool := false
  block : Nat := 0
  state : Nat := 0
  job : Nat := 0
  granted : Nat := 0
  dead : Bool := false
  deriving DecidableEq, Repr

/-- A request in the grant queue: its job, the PE slot that asks, and the ask. -/
structure Grant where
  job : Nat := 0
  pe : Nat := 0
  slot : Nat := 0
  ctx : Nat := 0
  b : Nat := 0
  link : Option Nat := none
  tok : Tok := {}
  deriving DecidableEq, Repr

/-- A kill that the context manager is to start (R211): whole job or single contexts, end and cause of Table 06-6,
the contexts at fault, and the flag of R55. -/
structure KillReq where
  job : Nat := 0
  whole : Bool := true
  ctxs : List Nat := []
  end_ : Nat := 0
  cause : Nat := 0
  fault : List Nat := []
  unver : Bool := false
  deriving DecidableEq, Repr

/-- The completion of a job that has ended, or the refusal of a submission (Table 06-6), waiting to be posted. -/
structure Completion where
  status : Nat := 0
  end_ : Nat := 0
  cause : Nat := 0
  job : Nat := 0xFFFF
  unver : Bool := false
  cookie : Nat := 0
  lost : List Nat := []
  lostAddr : Nat := 0
  lostLen : Nat := 0
  ddrList : Bool := false
  quiet : Bool := false
  heldEpoch : Option Nat := none
  deriving DecidableEq, Repr

/-- A kill in progress: the acknowledgements and the rewinds it awaits. -/
structure Kill where
  id : Nat := 0
  job : Nat := 0
  whole : Bool := false
  normal : Bool := false
  ctxs : List Nat := []
  await : List (KillEnd × Nat) := []
  comp : Completion := {}
  deriving DecidableEq, Repr

/-- A running drain fence (R214): the contexts it covers and how many fences each endpoint still awaits. -/
structure Fence where
  ctxs : List Nat := []
  wave1 : List (KillEnd × Nat) := []
  wave2 : List (KillEnd × Nat) := []
  deriving DecidableEq, Repr

/-- Doorbells under way (R201 to R203): the descriptors that are being fetched, with whether the doorbell was refused and when
it arrived; `posted` are the host's later posted writes, which wait behind a doorbell that is held. -/
structure Doorbell where
  lo : Nat := 0
  fetching : List (Nat × Bool × Nat) := []
  held : Option Nat := none
  posted : List Instr := []
  deriving DecidableEq, Repr

/-- The context manager and the job queue (R197 to R220); `istrDying` are the contexts whose kill notice the I-structure
controllers have taken (R163). -/
structure Cm where
  ctxs : Tbl Ctx := []
  freeNext : Nat := 1
  freed : List Nat := []
  cache : Tbl (Nat × Bool) := []
  missQ : List (Nat × Nat × Nat × CtxAsk) := []
  missCnt : Nat := 0
  grantQ : List Grant := []
  queue : List Job := []
  jobs : Tbl Job := []
  order : Nat := 0
  killQ : List KillReq := []
  kills : List Kill := []
  killId : Nat := 0
  acks : List (KillEnd × Nat × Nat) := []
  fence : Option Fence := none
  fenced : List Nat := []
  waiting : List Completion := []
  head : Nat := 0
  tail : Nat := 0
  phase : Bool := true
  refusedCnt : Nat := 0
  refused : Bool := false
  db : Doorbell := {}
  blocks : Tbl Block := []
  drainW : List (Nat × List Nat) := []
  istrDying : List Nat := []
  deriving DecidableEq, Repr
/-! ### Sites, vector engines, compare units and lanes (chapters 07, 08, 09) -/

/-- A burst at a site: the lane operation whose notice it answers, its descriptor, its origin, the cycles expanded so
far and the cycle at which it ends (R236, R250). -/
structure Burst where
  op : Nat := 0
  desc : Nat := 0
  org : Option (Nat × Nat) := none
  k : Nat := 0
  total : Nat := 0
  deriving DecidableEq, Repr

/-- One lane's share of a staged vector: stimulus, compare enables, expected bits, and the sidecar's instances as
(start cycle, generator address) (R231, R241, R260). -/
structure LaneVec where
  stim : Nat := 0
  en : Nat := 0
  exp : Nat := 0
  side : List (Nat × Nat) := []
  deriving DecidableEq, Repr

/-- A staged vector: its send slot in fc and, exactly, in 1/32 fc, whether it had to wait for credit there, which lanes still
have to send it and to write its fret, the bursts that end in it, and the stream record that each lane's follower needs, as
address and position (R222, R245, R246, R256). -/
structure Staged where
  idx : Nat := 0
  at_ : Nat := 0
  slot : Nat := 0
  late : Bool := false
  vecs : List LaneVec := []
  toSend : Nat := 0
  toFret : Nat := 0
  ends : List Nat := []
  stream : List (Nat × Nat) := []
  deriving DecidableEq, Repr

/-- A BRANCH that has arrived, as its window closed, and is not yet applied; `land` is the fc in which it landed at the
arbiter (R23, R250, R417). -/
structure PendBranch where
  op : Nat := 0
  pe : Nat := 0
  at_ : Nat := 0
  land : Nat := 0
  word : Nat := 0
  deriving DecidableEq, Repr

/-- A site and its vector engines' common state (R222 to R254). `haltedAt` and `haltFlit` tell when the present halt began and
whether a halt flit belongs to it; `haltIn` is the last HALT delivered, its time, context and actor; `was` holds the halted,
paused, released and reflex marks as the fc of its time began; `brk` is the last break report taken and `rpt` the last report
of a HALT or a break, their time and index; `rejoined` is when SITE_REJOIN last took effect, and its mailbox; `lastSlot`
counts 1/32 fc; `bad` says that SITE_MAP must rewrite the tables (R523). -/
structure Site where
  bound : Bool := false
  first : Nat := 0
  lanes : Nat := 1
  wcode : Nat := 0
  cycU : Nat := 0
  lead : Nat := 0
  reflexFlag : Bool := false
  umap : Nat := 0xFF
  job : Option Nat := none
  next : Nat := 0
  high : Nat := 0
  queue : List Burst := []
  cur : Option Burst := none
  branch : Option PendBranch := none
  staged : List Staged := []
  prev : Tbl Nat := []
  halted : Bool := false
  paused : Bool := false
  released : Bool := false
  reflex : Bool := false
  quar : Bool := false
  flooded : Bool := false
  haltSeq : Nat := 0
  haltDue : Option Nat := none
  rearm : List Nat := []
  trig : Bool := false
  ctl : List (Nat × Nat) := []
  brq : List PendBranch := []
  haltCause : Nat := 0
  haltedAt : Nat := 0
  haltFlit : Bool := false
  haltIn : Option (Nat × Nat × Nat) := none
  was : Option (Nat × Bool × Bool × Bool × Bool) := none
  brk : Option (Nat × Nat) := none
  rpt : Option (Nat × Nat) := none
  rejoined : Option (Nat × Nat) := none
  lastSlot : Nat := 0
  bad : Bool := false
  deriving DecidableEq, Repr

/-- A lane operation that a lane group holds until its completion notice (R174): its token, op code, requested,
delivered and halted sites, whether it was superseded, the sites not finished, the mark of R211 step 3, its job, the PE that
fired it, and when it reached the vector engines. -/
structure LaneOp where
  id : Nat := 0
  tok : Tok := {}
  op : Nat := 0
  req : Nat := 0
  del : Nat := 0
  hlt : Nat := 0
  sup : Bool := false
  wait : Nat := 0
  quiet : Bool := false
  killed : Bool := false
  job : Nat := 0
  pe : Nat := 0
  at_ : Nat := 0
  deriving DecidableEq, Repr

/-- A control message waiting or unacknowledged (R309): payload, sends so far, time of the last send, whether it is to
be sent again, and its sender: 0 the device, 1 firmware's send port, 2 + m the command in mailbox m. -/
structure CtrlMsg where
  seq : Nat := 0
  data : List Byte := []
  sends : Nat := 0
  at_ : Nat := 0
  again : Bool := false
  by_ : Nat := 0
  deriving DecidableEq, Repr

/-- A lane group's control ports, FIFOs and lane operations (R330); `injAt` is when its injection port last took a token
(R271). -/
structure LaneGroup where
  ops : List LaneOp := []
  opId : Nat := 0
  inbox : List Pkt := []
  stage : List Nat := []
  stageIdx : Nat := 0
  busy : Bool := false
  lastSeq : Nat := 0
  lastStat : Nat := 0
  rx : List (Nat × List Byte) := []
  rxIdx : Nat := 0
  meas : List (Nat × Nat × List Byte) := []
  measIdx : Nat := 0
  rr : Nat := 0
  injAt : Option Nat := none
  rejected : Nat := 0
  deriving DecidableEq, Repr

/-- A flit as a lane sends it (R303). -/
structure Flit where
  ty : Nat := 0
  field : Nat := 0
  flags : Nat := 0
  payload : List Byte := []
  deriving DecidableEq, Repr

/-- A fret (R259): index, planes, sidecar, write time, whether its deadline was deferred (R265), and what its check code
reported then. -/
structure Fret where
  idx : Nat := 0
  exp : Nat := 0
  en : Nat := 0
  side : List (Nat × Nat) := []
  at_ : Nat := 0
  deferred : Bool := false
  err : Nat := 0
  deriving DecidableEq, Repr

/-- Summary accumulators (R275): the first index covered, the highest one decided, whether anything was decided, the
counts, and whether this is the first record since entry. -/
structure SumAcc where
  first : Option Nat := none
  top : Option Nat := none
  any : Bool := false
  miss : Nat := 0
  late : Nat := 0
  repl : Nat := 0
  cmp : Nat := 0
  slots : Tbl Nat := []
  entry : Bool := false
  deriving DecidableEq, Repr

/-- A compare-unit record that waits for its outlet (R276): type, body words, key. -/
structure CuRec where
  ty : Nat := 0
  words : List Nat := []
  ctx : Nat := 0
  flow : Nat := 0
  job : Nat := 0
  outlet : Nat := 0
  deriving DecidableEq, Repr

/-- One compare unit (R259 to R278). -/
structure Cu where
  frets : List Fret := []
  high : Nat := 0
  fifo : List Tok := []
  failIdx : List (Nat × Nat) := []
  lastOut : Option Nat := none
  flood : List (Nat × Nat) := []
  summary : Bool := false
  sumAt : Nat := 0
  sumEntry : Nat := 0
  acc : SumAcc := {}
  heldAcc : Option SumAcc := none
  held : List CuRec := []
  destAct : Nat := 0
  destGrp : Nat := 0
  destSet : Bool := false
  destCtx : Nat := 0
  pins : Tbl Nat := []
  pass : Nat := 0
  pinLatch : Nat := 0
  passLatch : Nat := 0
  cnt : Tbl Nat := []
  remaps : Nat := 0
  deriving DecidableEq, Repr

/-- One lane: its link (R297 to R333), its vector engine's own tables and counters (R230, R258). `slot` and `trainNext` are
the positions in the superframe of the next flit sent and received; `txMsg` and `txCrcs` hold the message bits and the flit
CRCs of the codeword that is being sent, `txCw` the last codeword sent, message and parity; `txTest` is the test pattern that
goes out in place of flits. In phase PARAM, `helloIn` is the front-end's HELLO, `helloSent`, `helloAck` and `farDone` whether
the own HELLO has gone and what the far end has acknowledged and reported, `flagged` whether a TRAIN with the own flag [28]
has gone. `retrainAt` tells when LP_CMD retrain last lost the lane; `stallFrom` is from when LP_STALL_CNT has still to count
the wait of `stimWait`. -/
structure Lane where
  state : Nat := 0
  prevState : Nat := 0
  phase : Nat := 0
  fail : Nat := 0
  failPhase : Option Nat := none
  cause : Nat := 0
  forced : Bool := false
  heldOff : Bool := false
  cfgNow : Nat := 0
  dual : Bool := false
  port : Nat := 0
  following : Bool := false
  signal : Bool := true
  feHold : Option Nat := none
  feId : Nat := 0
  feW : Nat := 0
  feModes : Nat := 0
  feWindow : Nat := 1
  purgeStim : Nat := 0
  purgeCtrl : Nat := 0
  stimLimit : Nat := 0
  stimSent : Nat := 0
  measLimit : Nat := 8
  measSeen : Nat := 0
  txSeq : Nat := 0
  rxSeq : Nat := 0
  unacked : List CtrlMsg := []
  ctrlQ : List CtrlMsg := []
  halt : Option Nat := none
  mark : Option Nat := none
  creditDue : Bool := false
  statusAt : Nat := 0
  lastStatus : List Byte := []
  helloAt : Option Nat := none
  helloSent : Bool := false
  helloAck : Bool := false
  helloIn : Option (List Byte) := none
  farDone : Bool := false
  flagged : Bool := false
  retrainAt : Option Nat := none
  trainNext : Nat := 0
  slot : Nat := 0
  txMsg : Nat := 0
  txCrcs : List Nat := []
  txCw : Nat × Nat := (0, 0)
  txTest : Nat := 0
  stimWait : Option Nat := none
  stallFrom : Nat := 0
  rpt : Option (Nat × Nat) := none
  trainOk : Nat := 0
  intactAt : Nat := 0
  errRun : Nat := 0
  errTimes : List Nat := []
  rxBad : Nat := 0
  feErr : Nat := 0
  feRole : Nat := 0
  feTerm : Nat := 0
  phaseAt : Nat := 0
  crcTimes : List Nat := []
  sleepSent : Bool := false
  tx : Flit := {}
  ind : Tbl Nat := []
  ve : Tbl Nat := []
  lp : Tbl Nat := []
  deriving DecidableEq, Repr

/-- A stream reader of the playback engine (R256): stream base and count, the number of records to read in all, the records
held by number, the next record to read, and the lanes served. -/
structure Reader where
  base : Nat := 0
  count : Nat := 0
  last : Nat := 0
  recs : List (Nat × List Byte) := []
  nextRec : Nat := 0
  lanes : List Nat := []
  deriving DecidableEq, Repr

/-- An open or committed outlet record (R178, R280 to R286): bank, words, valid bytes of the last, and `acc`, the CRC-32 that
the writer port has accumulated from the words it accepted. -/
structure ORec where
  ctx : Nat := 0
  flow : Nat := 0
  job : Nat := 0
  ty : Nat := 0
  words : List Nat := []
  partialN : Nat := 0
  poisoned : Bool := false
  discard : Bool := false
  bank : Nat := 0
  seq : Nat := 0
  time : Nat := 0
  device : Bool := false
  acc : Nat := 0
  epoch : Option Nat := none
  deriving DecidableEq, Repr

/-- One outlet (R280 to R296). The pointers that R288 doubles are held twice: `wr`, `wr2` and so on; a bank's free-extent
pointer is 512 less its free extents, and `extX` is what the second copies of the two differ from the first in. -/
structure Outlet where
  ports : Tbl (List Pkt) := []
  open_ : List ORec := []
  done : List ORec := []
  fill : Nat := 0
  seq : Nat := 0
  wr : Nat := 0
  wr2 : Nat := 0
  rd : Nat := 0
  rd2 : Nat := 0
  drain : Nat := 0
  drain2 : Nat := 0
  extX : Nat × Nat := (0, 0)
  ckWr : Nat := 0
  ckRd : Nat := 0
  phase : Bool := true
  ckPhase : Bool := true
  dead : List (Nat × Nat) := []
  rdBad : Bool := false
  dropped : Bool := false
  reset_ : Bool := false
  lostOpen : Nat := 0
  lostDone : Nat := 0
  commitCnt : Nat := 0
  rewindCnt : Nat := 0
  dropCnt : Nat := 0
  resetCnt : Nat := 0
  modCount : Nat := 0
  modSince : Option Nat := none
  deriving DecidableEq, Repr
/-! ### DDR5, Shelf, atomics, pegs and stewards (chapters 10, 11) -/

/-- One DDR5 channel (R349 to R355, R367): its training and refresh, its request queue, counters, the bytes each user
has been charged in the current window, in the current millisecond and in the one before, the scrub position and the start of
its pass. -/
structure Ddr where
  trained : Bool := false
  selfRef : Bool := false
  hot : Bool := false
  q : List MemReq := []
  atomics : List MemReq := []
  istr : List MemReq := []
  ce : Nat := 0
  ue : Nat := 0
  ueAddr : Nat := 0
  used : Tbl Nat := []
  use_ : Tbl Nat := []
  useMs : Tbl Nat := []
  useAt : Nat := 0
  winAt : Nat := 0
  scrub : Nat := 0
  scrubAt : Nat := 0
  invWait : List (Nat × MemReq) := []
  deriving DecidableEq, Repr

/-- A Shelf access waiting at a port of a bank (R358): 0 atomic unit, 1 and 2 stewards, 3 request network. `st` names
the steward whose posted store awaits the response. -/
structure ShAcc where
  port : Nat := 3
  req : MemReq := {}
  st : Option Nat := none
  data : List Byte := []
  deriving DecidableEq, Repr

/-- An acquire of a peg: the master's code and owner_id, and whether it came by the command PEG_ACQUIRE; a steward's destination
register and whether it waits; an actor-engine request's physical PE; and the place of the result, a firing's slot or a position
among the held results (R443). -/
structure PegAsk where
  m : Nat := 0
  id : Nat := 0
  cmd : Bool := false
  rd : Nat := 0
  wait : Bool := false
  pe : Nat := 0
  place : Nat := 0
  deriving DecidableEq, Repr

/-- A peg (R362): holder and waiting steward tasks as (steward, slot, destination register); and what its fc `asksAt` has seen
(R365): the acquire that met it free, and those that have not obtained it. -/
structure Peg where
  held : Bool := false
  owner : Nat := 0
  ownerId : Nat := 0
  waits : List (Nat × Nat × Nat) := []
  won : Option PegAsk := none
  lost : List PegAsk := []
  asksAt : Nat := 0
  deriving DecidableEq, Repr

/-- What a task's dispatcher slot holds (R385 to R389, R398): its state, flags and wait, its settings, and, while it
is not running, its saved registers. -/
structure Task where
  state : Nat := 0
  flags : Nat := 0
  mask : Nat := 0
  all : Bool := false
  waitRd : Nat := 0
  timeout : Option Nat := none
  pegWait : Option (Nat × Nat) := none
  entry : Nat := 0
  ctl : Nat := 0x10
  readySeq : Nat := 0
  g : Tbl Nat := []
  pc : Nat := 0
  psw : Nat := 0x9
  rs : List Nat := []
  stkLo : Nat := 0
  stkHi : Nat := 0
  xio : Tbl Nat := []
  xdr : Tbl Nat := []
  module : Nat := 0
  deriving DecidableEq, Repr

/-- A posted store of a steward that awaits its response (R376). -/
structure Posted where
  collided : Bool := false
  ready : Bool := false
  deriving DecidableEq, Repr

/-- One steward core (R370 to R384, R398): registers, PC, PSW, its three spaces, return stack, data cache lines,
steward-local ports, and its dispatcher. `readyAt` and `pickedAt` are the fc of the last event that made a task READY and of
the idle core's last selection (R397); `ibad` and `dbad` the words of I-space and private D-space found uncorrectable (R523). -/
structure Steward where
  g : Tbl Nat := []
  pc : Nat := 0
  psw : Nat := 0x9
  ispace : Mem := []
  iloaded : List Nat := []
  priv : Mem := []
  rs : List Nat := []
  cache : Tbl (List Byte) := []
  stkLo : Nat := 0
  stkHi : Nat := 0
  dwinSel : Nat := 0
  dwin : Tbl Nat := []
  cacheOn : Bool := false
  xio : Tbl Nat := []
  xdr : Tbl Nat := []
  timeLatch : Nat := 0
  excCnt : Nat := 0
  wcCnt : Nat := 0
  ti : List Nat := []
  tiStat : Nat := 0
  posted : List Posted := []
  halted : Bool := false
  adopt : Bool := false
  tasks : Tbl Task := []
  cur : Nat := 0
  idle : Bool := true
  readySeq : Nat := 0
  readyAt : Option Nat := none
  pickedAt : Option Nat := none
  ibad : List Nat := []
  dbad : List Nat := []
  switches : Nat := 0
  deriving DecidableEq, Repr

/-- A route of an event source (R386). -/
structure Route where
  flag : Nat := 0
  slot : Nat := 0
  st : Nat := 0
  en : Bool := false
  pend : Bool := false
  deriving DecidableEq, Repr

/-- A loaded extension module (R391 to R396): identity, header facts, its pages, its tasks' slots, its own trap queue
and the traps delivered to it. -/
structure Module where
  id : Nat := 0
  flags : Nat := 0
  version : Nat := 0
  api : Nat := 0
  st : Nat := 0
  slots : List Nat := []
  ipages : List Nat := []
  dpages : List Nat := []
  shelf : Nat := 0
  shelfPages : Nat := 0
  ddr : Nat := 0
  ddrSize : Nat := 0
  emulLo : Nat := 0
  emulHi : Nat := 0
  image : List Byte := []
  traps : List TrapMsg := []
  given : List (TrapMsg × Bool) := []
  deriving DecidableEq, Repr

/-- The steward cluster (R370 to R399) with the cluster-wide state. -/
structure Cluster where
  cores : Tbl Steward := []
  routes : Tbl Route := []
  routeSel : Nat := 0
  timer : Nat := 0
  timerAt : Nat := 0
  modules : Tbl Module := []
  fwTraps : List TrapMsg := []
  restarting : Bool := false
  pegRes : Nat := 0
  deriving DecidableEq, Repr
/-! ### Host interface (chapter 12) -/

/-- A mailbox (R407): command word, state (0 IDLE, 1 QUEUED, 2 IN_SERVICE, 3 DONE), orphan mark, tag, id and status of
the last command, response length, configuration, completion time, data bytes; the steward serving it; the epoch, status
and response of a completion that R443 holds; the id, tag, status and response of the last replayed command (R453). -/
structure Mbox where
  cmd : Nat := 0
  state : Nat := 0
  orphan : Bool := false
  tag : Nat := 0
  status : Nat := 0
  rspLen : Nat := 0
  id : Nat := 0
  cfg : Nat := 1
  time : Nat := 0
  data : List Byte := []
  st : Nat := 0
  held : Option (Nat × Nat × List Byte) := none
  replay : Option (Nat × Nat × Nat × List Byte) := none
  deriving DecidableEq, Repr

/-- A physical function: what its configuration space decides (R410, R420, R424), and its MSI-X table (address, data,
mask by vector) and pending bits. -/
structure Func where
  bme : Bool := false
  d3 : Bool := false
  msixEn : Bool := false
  fnMask : Bool := false
  table : Tbl Nat := []
  pend : List Nat := []
  sent : List Nat := []
  deriving DecidableEq, Repr

/-- PCI Express side and alert page (R400 to R425). `bad` are the 4 KiB pages of host memory whose reads end with an error or a
poisoned completion (R410); like `mem` it is the host's (log entry 115, DESIGN CHOICE). -/
structure HostIf where
  pf0 : Func := {}
  pf1 : Func := {}
  mem : Mem := []
  bad : List Nat := []
  timeLatch : Nat := 0
  alert : Nat := 0
  bmcAlert : Nat := 0
  laneAlert : Nat := 0
  mbReject : Nat := 0
  superseded : Nat := 0
  dwinViol : Nat := 0
  deriving DecidableEq, Repr

/-- The I3C target (R426 to R428). -/
structure I3c where
  addr : Option Nat := none
  ev : Nat := 1
  ptr : Nat := 0
  latch : List Byte := []
  latchAt : Option Nat := none
  wbuf : Tbl Byte := []
  timeLatch : Nat := 0
  ibi : List Nat := []
  out : List Byte := []
  deriving DecidableEq, Repr

/-- What a held arbitrated command asks of its object (Tables 12-10 and 12-11). -/
inductive Arb where
  | retire (mb : Nat)
  | rejoin (mb restart : Nat)
  | sitectl (op cmd : Nat)
  | branch (op pe word : Nat)
  | setDomain (src : CmdSrc) (st : Nat)
  | down (rule : Nat)
  | wake (rule : Nat)
  | throttle (mb k : Nat)
  | snThrottle (k : Nat)
  | ruleWrite (src : CmdSrc) (image : List Byte)
  | ruleDisable (src : CmdSrc)
  | swap (mb : Nat)
  | partnerRole (term : Nat)
  deriving DecidableEq, Repr

/-- A command in an arbitration window: its rank, when it landed, and what it asks (R414, R415). -/
structure ArbCmd where
  rank : Nat := 2
  at_ : Nat := 0
  what : Arb := .snThrottle 0
  deriving DecidableEq, Repr

/-- An open arbitration window (R414). -/
structure Window where
  obj : ArbObj := .throttle
  opened : Nat := 0
  cmds : List ArbCmd := []
  deriving DecidableEq, Repr
/-! ### Pair operation (chapter 13) -/

/-- The Bridge and the pair role (R430 to R467). State: 0 single, 1 ACTIVE, 2 STANDBY, 3 DETACHED, 4 FORMING. The active's
journal of the current epoch and the records not yet acknowledged; the standby's records of the epoch that it receives and
the decisions that it has still to follow: grants, values, sequence numbers, branch points, flood modes and site commands.
`lastB` is the last epoch boundary taken, `early` says that the epoch after it has begun before its command (R464); `rxBad` says
that a journal was not held whole (R443); `claimAt` is when PRIM_CLAIM_IN last changed; `seatSent` and `hbSent` are the last seat message and heartbeat sent. -/
structure Pair where
  en : Bool := false
  state : Nat := 0
  term : Nat := 0
  prefHigh : Bool := false
  unprot : Bool := false
  detach : Nat := 0
  detachCnt : Nat := 0
  lanes : Nat := 0
  trained : Bool := false
  claimDown : Bool := false
  claimIn : Bool := false
  claimAt : Nat := 0
  partnerRole : Nat := 0
  partnerTerm : Nat := 0
  partnerSame : Bool := false
  hbIn : Option Nat := none
  hbOut : Nat := 0
  hbMiss : Nat := 0
  claimSeenAt : Option Nat := none
  suspectAt : Option Nat := none
  formAt : Nat := 0
  epoch : Nat := 0
  running : Bool := false
  seatDue : Bool := false
  acked : Option Nat := none
  journal : List JRec := []
  sent : List JRec := []
  digest : Nat := 0
  rxCur : List JRec := []
  rxDigest : Option Nat := none
  values : List (Nat × Nat × Nat × Bool) := []
  grants : List (Nat × Nat × Nat × Nat) := []
  seqs : List (Nat × Nat × Nat × Nat) := []
  branchPts : List (Nat × Nat × Nat) := []
  modes : List (Nat × Nat × Nat × Nat) := []
  ctls : List (Nat × Nat × Nat) := []
  capHeld : Tbl (List (Nat × Nat × Nat)) := []
  jrnlHold : Nat := 0
  takeovers : Nat := 0
  reseat : Bool := false
  reseatPct : Nat := 0
  reseatRes : Nat := 0
  seamPassed : Bool := false
  copyDone : Bool := false
  unprotJobs : List Nat := []
  swapMb : Option Nat := none
  swapAt : Option Nat := none
  fwWait : Bool := false
  epochLatch : Nat := 0
  ackLatch : Nat := 0
  pegReq : Option (Nat × Nat) := none
  pegRes : Nat := 0
  pegHeld : List (Nat × Nat) := []
  lastB : Nat := 0
  early : Bool := false
  rxBad : Bool := false
  seatSent : Option Nat := none
  hbSent : Option Heartbeat := none
  deriving DecidableEq, Repr

/-! ### Power, sentinel, boot, security, flash, recorder, ledger and patrol (chapters 14 to 16) -/

/-- One power domain (R468 to R472): state and set state (0 OFF, 1 RETENTION, 2 ON), the transition in progress,
whether a DOWN action holds it, when it fell idle, whether a packet or a wake action keeps it awake, and the commands
that complete with the transition. -/
structure Domain where
  state : Nat := 0
  set_ : Nat := 2
  going : Option Nat := none
  wake : Bool := false
  down : Nat := 0
  reset_ : Bool := true
  idleSince : Nat := 0
  woken : Bool := false
  rest : Bool := false
  waits : List (CmdSrc × Nat) := []
  deriving DecidableEq, Repr

/-- The power controller, the clocks and the AO timebase (R473 to R483). `flushAt` is when a quad's trace flush began (R479). -/
structure Power where
  doms : Tbl Domain := [(0, { state := 2, reset_ := false })]
  idleAt : Option Nat := some 0
  hostThr : Nat := 0
  snThr : Nat := 0
  asleep : Bool := false
  step : Nat := 0
  ts : Nat := 0
  tw : Nat := 0
  tsLatch : Nat := 0
  twLatch : Nat := 0
  waking : Option Nat := none
  wakeCnt : Nat := 0
  railLoss : Nat := 0
  rails : Nat := 0x7F
  fref : Bool := true
  lref : Nat := 0xF
  undisc : Nat := 0
  avs : Nat := 800
  cmdBusy : Bool := false
  cmdPrev : Nat := 0
  cmdStat : Nat := 0
  flush : List Nat := []
  flushAt : Tbl Nat := []
  slept : List Nat := []
  deriving DecidableEq, Repr

/-- A sentinel rule in force (R485, R486): its image, the image that takes effect at the next sample, its sample history
(newest first), the consecutive samples that meet or end it, its own condition, whether it holds, its latch; `putAt` is when
the waiting image was written (R491). -/
structure SnRule where
  image : List Byte := []
  next : Option (List Byte) := none
  hist : List Int := []
  meets : Nat := 0
  ends : Nat := 0
  own : Bool := false
  holds : Bool := false
  latched : Bool := false
  f : Int := 0
  putAt : Nat := 0
  deriving DecidableEq, Repr

/-- The default image of rule 0 (Table 14-11): above 592 less 16, actions ALERT_N, ALERT and THROTTLE at 4. -/
def snDefault0 : List Byte :=
  [1, 97, 0, 4, 3, 2, 0x0E, 0, 0x50, 2, 0, 0, 16, 0, 0, 0, 0, 4] ++ List.replicate 46 0

/-- The default image of rule 1: above 620, TRIP, latched. -/
def snDefault1 : List Byte :=
  [3, 97, 0, 1, 2, 1, 0, 1, 0x6C, 2, 0, 0, 0, 0, 0, 0, 0, 0] ++ List.replicate 46 0

/-- The sentinel (R484 to R492). -/
structure Sentinel where
  rules : Tbl SnRule := [(0, { image := snDefault0 }), (1, { image := snDefault1 })]
  defaults : Bool := true
  inputs : List Int := []
  prev : List Int := []
  core : Bool := true
  trip : Bool := false
  refused : Bool := false
  killHold : Nat := 0xFF
  killHw : Nat := 0
  dpfHigh : Tbl Nat := []
  dpfCnt : Nat := 0
  alertN : Bool := false
  deriving DecidableEq, Repr

/-- What the end of a flash operation brings: a plain completion, an internal write that no steward halt withdraws, the
bytes read, the check of a staged slot, the completion of a refused stage, the check of R508 step 2, and step 5. -/
inductive FlEnd where
  | done
  | keep
  | bytes
  | stage (slot : Nat)
  | failed
  | fetch (slot timeout : Nat)
  | activate (slot : Nat)
  | confirm
  deriving DecidableEq, Repr

/-- A flash operation in a device's queue (R502): 4 KiB units to erase from the offset on, then bytes to program or to
read, how far each has come, whether a blank check comes first, and its end with the mailbox it answers. -/
structure FlOp where
  off : Nat := 0
  erase : Nat := 0
  data : List Byte := []
  read : Nat := 0
  erased : Nat := 0
  pos : Nat := 0
  blank : Bool := false
  ledger : Bool := false
  ends : FlEnd := .done
  mb : Option Nat := none
  deriving DecidableEq, Repr

/-- A boot record (R500). -/
structure BootRec where
  seq : Nat := 0
  active : Nat := 0
  prev : Nat := 0
  trial : Bool := false
  attempts : Nat := 0
  timeout : Nat := 120
  deriving DecidableEq, Repr

/-- A firmware image that a slot holds, as R497 reads it from the slot's header. -/
structure Image where
  version : Nat := 0
  svn : Nat := 0
  api : Nat := 0
  setFmt : Nat := 0
  raise : Bool := false
  deriving DecidableEq, Repr

/-- Straps, boot, firmware slots and the flash engine (R493 to R510). -/
structure Boot where
  resetLow : Bool := true
  bootSel : Nat := 0
  dev : Nat := 0
  step : Nat := 0
  running : Option Nat := none
  image : Image := {}
  trial : Bool := false
  confAt : Option Nat := none
  prevSlot : Nat := 0
  fmtReset : Bool := false
  record : Option BootRec := none
  cs0 : Mem := []
  cs1 : Mem := []
  q0 : List FlOp := []
  q1 : List FlOp := []
  eraseCnt : Nat := 0
  progCnt : Nat := 0
  refuseCnt : Nat := 0
  flStat : Nat := 0
  opi : Bool := false
  brSector : Nat := 0
  brNext : Nat := 0
  activating : Option Nat := none
  settings : Tbl (List Byte) := []
  setSeq : Nat := 0
  reverting : Bool := false
  deriving DecidableEq, Repr

/-- The one-time-programmable memory (R497) and what is fused at manufacture (R32 to R34, R406): no field of it is
ever cleared. Part: 0 LSR-8128, 1 LSR-8064, 2 LSR-8032. -/
structure Otp where
  part : Nat := 0
  dieRev : Nat := 0
  trim : Nat := 0xA
  serial : Nat := 0
  vendorHash : List Byte := []
  extHash : List Byte := []
  root : List Byte := []
  charData : List Byte := []
  svnFloor : Nat := 0
  deriving DecidableEq, Repr

/-- The security engine and the tamper logic (R511 to R522). Keys by key id, at most 16. -/
structure Sec where
  kek : Option (List Byte) := none
  keys : Tbl (List Byte) := []
  latch : Bool := false
  src : Nat := 0
  cnt : Nat := 0
  nonce : Option (List Byte) := none
  fails : Nat := 0
  entropyBad : Bool := false
  drbg : Nat := 0
  tmpCfg : Nat := 0x3F
  stat : Nat := 0
  purge : List Nat := []
  deriving DecidableEq, Repr

/-- An event on its way to the recorder (R532, R533); `extra` is a firing fault's OPC and VALUE[15:0] (R187, R189). -/
structure EvReq where
  code : Nat := 0
  cls : Nat := 0
  inst : Nat := 0
  arg : Nat := 0
  extra : Nat × Nat := (0, 0)
  alert : Bool := false
  time : Nat := 0
  coarse : Bool := false
  deriving DecidableEq, Repr

/-- An event record (R531). `extra` holds the OPC and the VALUE[15:0] that R187 and R189 put into a firing fault's record;
Table 16-3 gives them no byte, so no read shows them (log entry 29, DEDUCED). -/
structure EvRec where
  seq : Nat := 0
  ver : Nat := 0
  code : Nat := 0
  cls : Nat := 0
  inst : Nat := 0
  time : Nat := 0
  last : Nat := 0
  rep : Nat := 0
  coarse : Bool := false
  coarse2 : Bool := false
  alert : Bool := false
  arg : Nat := 0
  extra : Nat × Nat := (0, 0)
  deriving DecidableEq, Repr

/-- The event recorder (R531 to R535, R540). `chg` is the pending repeat change of the latest record, `takeAt` when the intake
gives its next event. -/
structure Recorder where
  ring : Tbl EvRec := []
  next : Nat := 0
  held : Nat := 0
  intake : List EvReq := [{ code := 0x8000, arg := 1 }]
  lostCnt : Nat := 0
  lostPend : Nat := 0
  chg : Option EvRec := none
  chgAt : Nat := 0
  rdIdx : Nat := 0
  rdWord : Nat := 0
  takeAt : Nat := 0
  deriving DecidableEq, Repr

/-- The life ledger's live sections (R536): section 0's fields, the histograms in 10 µs samples, the error classes, the symbols
corrected on each lane short of 2^20,
the corrected errors and the totals. -/
structure Ledger where
  seq : Nat := 0
  cycles : Nat := 1
  powered : Nat := 0
  wear : Nat := 0
  wearQ : Nat := 0
  snapTime : Nat := 0
  snapAt : Option Nat := none
  tj : Tbl Nat := []
  vdd : Tbl Nat := []
  use_ : Tbl Nat := []
  lane : Tbl Nat := []
  sym : Tbl Nat := []
  ecc : Tbl Nat := []
  tot : Tbl Nat := []
  loaded : Bool := false
  deriving DecidableEq, Repr

/-- Patrol and repair (R524 to R528). -/
structure Patrol where
  target : Nat := 0
  unit : Nat := 0
  done : Nat := 0
  starved : Bool := false
  flagged : List (Nat × Nat) := []
  retired : Nat := 0
  remapped : Nat := 0
  shelfRemaps : Tbl Nat := []
  lmap : Tbl Nat := []
  lost : List Nat := []
  awaiting : List (Nat × Nat × Nat) := []
  linkFail : Nat := 0
  deriving DecidableEq, Repr
/-! ### The whole machine -/

/-- A register with W1C bits that hardware events set (R11), the FLOODED marks with their clears among them (R277, R279). -/
inductive W1c where
  | jq
  | out (o : Nat)
  | budget
  | host
  | bmc
  | lane
  | flood
  deriving DecidableEq, Repr

/-- The families of counters that one write resets (R110, R141, R258, R278, R331): of a PE, a vector engine, a compare unit,
a lane port. -/
inductive CntFam where
  | pe
  | ve
  | cu
  | lp
  deriving DecidableEq, Repr

/-- What the rules on coincident events ask about the fc that is under way: a W1C bit that an event has set, or has set anew;
what a counter has risen by; one more than the value of a register before its first write; that slot 0 of a PE has gone to G0;
flags that an event has set at a task, or that its wait has taken; a peg handed to a task; a store of a steward that collided. -/
inductive FcKey where
  | w1c (r : W1c) (bit : Nat)
  | cnt (fam : CntFam) (unit off : Nat)
  | old (port : Nat)
  | g0slot (pe : Nat)
  | sumEnd (lane : Nat)
  | flags (st slot : Nat)
  | took (st slot : Nat)
  | handed (peg st slot : Nat)
  | wc (st : Nat)
  | rose (r : W1c) (bit : Nat)
  deriving DecidableEq, Repr

/-- The notes of one fc; `caps` are its captures: lane, index, and the lane's compare unit as it was before. -/
structure FcLog where
  at_ : Nat := 0
  notes : List (FcKey × Nat) := []
  caps : List (Nat × Nat × Cu) := []
  deriving DecidableEq, Repr

/-- The state of the block. `ddrPoison` lists the 128-byte lines found uncorrectable, `ddrUpset` the errors that no read has
found yet, `shelfBad` the 8-byte Shelf words found uncorrectable. `regs` holds the registers that keep only what was written
to them, under their space and address (Machine/Regs.lean); `fc` holds what this fc has seen so far (log entry 10, DESIGN CHOICE); `freeCnt`
is the model's own counter of open values (log entry 4, DESIGN CHOICE); `pending` is the queue of commands, first in first
out. -/
structure State where
  time : Nat := 0
  otp : Otp := {}
  pes : Tbl Pe := []
  cab : Cabinet := {}
  trace : Trace := {}
  tally : Tbl Tally := []
  cm : Cm := {}
  net : Net := {}
  sites : Tbl Site := []
  lanes : Tbl Lane := []
  cus : Tbl Cu := []
  lgs : Tbl LaneGroup := []
  cohorts : Tbl Nat := []
  cohIdx : Nat := 0
  readers : Tbl Reader := []
  maps : Tbl (Nat × Tbl Nat) := []
  outlets : Tbl Outlet := []
  ddrs : Tbl Ddr := []
  ddr : Mem := []
  ddrPoison : List Nat := []
  ddrUpset : List (Nat × Nat) := []
  shelf : Mem := []
  shelfBad : List Nat := []
  shelfQ : List ShAcc := []
  shelfAtomics : List MemReq := []
  istr : Tbl (List MemReq) := []
  shareWritten : Nat := 0
  budgetRefused : Bool := false
  pegs : Tbl Peg := []
  st : Cluster := {}
  mbs : Tbl Mbox := []
  host : HostIf := {}
  i3c : I3c := {}
  arb : List Window := []
  pair : Pair := {}
  pwr : Power := {}
  sn : Sentinel := {}
  boot : Boot := {}
  sec : Sec := {}
  rcd : Recorder := {}
  led : Ledger := {}
  pat : Patrol := {}
  regs : Tbl Nat := []
  fc : FcLog := {}
  freeCnt : Nat := 0
  pending : List Instr := []
  deriving DecidableEq, Repr

/-- Why a step faults. The block itself never stops (R403: every access completes); no meaning answers with a fault
(log entry 1, DEDUCED). -/
inductive Fault where
  /-- Never raised: the spec names no fault that stops the block. Safe. -/
  | never
  deriving DecidableEq, Repr

/-- Why a command has no meaning. -/
inductive Refusal where
  /-- Raised by Dispatch for a command with no meaning yet, under its mnemonic. Safe. -/
  | notModelled (mnemonic : String)
  deriving DecidableEq, Repr

/-- The state after the first application of power, with RESET_N still low: every field at the value its rule gives,
and where no rule gives one, at zero or empty (log entry 3, DESIGN CHOICE). -/
def State.reset : State := {}

/-- What a meaning answers. -/
abbrev Out := Host.Outcome State Fault Refusal

end Sys2Proof.Machine
end

