-- ==== Sys2Proof/Machine/Ops.lean ====
section
/-! DEFINITION. The shared operations: which units a part holds, access to each unit's record, the answers of a
meaning, time, registers, event records, alerts, messages, packets, the journal and free values. -/

namespace Sys2Proof.Machine
open Sys2Proof

/-! ### Answers -/

/-- A state that keeps the clock, the OTP memory and the queue of another. -/
def State.keep (n s : State) : State := { n with time := s.time, otp := s.otp, pending := s.pending }

/-- The answer of a command that takes no time and leaves the OTP memory and the queue alone. -/
def State.plain (f : State → State) (s : State) : Out := .next ((f s).keep s)

/-- A change made only when a condition holds. -/
def when (b : Bool) (f : State → State) (s : State) : State := if b then f s else s

/-! ### Status codes (R15) -/

def OK : Nat := 0
def ACCEPTED : Nat := 1
def ABSENT : Nat := 0x101
def BAD_ARG : Nat := 0x102
def DENIED : Nat := 0x103
def BUSY : Nat := 0x104
def QUEUE_FULL : Nat := 0x105
def SUPERSEDED : Nat := 0x106
def NOT_BLANK : Nat := 0x107
def VERIFY_FAIL : Nat := 0x108
def TAMPER_HOLD : Nat := 0x109
def ABORTED_TAMPER : Nat := 0x10A
def CONTEXT_LOST : Nat := 0x10B
def SITE_SKIPPED : Nat := 0x10C
def NOT_ACTIVE : Nat := 0x10D
def TIMEOUT : Nat := 0x10E
def FORMAT_RESET : Nat := 0x10F
def OUTLET_RESET : Nat := 0x112
def SITE_GAP : Nat := 0x113
def FLOODED : Nat := 0x114

/-! ### Units of a part (R1, Table 00-1) -/

/-- Pick by part: LSR-8128, LSR-8064, LSR-8032. -/
def State.byPart (s : State) (a b c : Nat) : Nat :=
  if s.otp.part = 0 then a else if s.otp.part = 1 then b else c

def State.nLanes (s : State) : Nat := s.byPart 128 64 32
def State.nLg (s : State) : Nat := s.byPart 16 8 4
def State.nPq (s : State) : Nat := s.byPart 16 8 4
def State.nPe (s : State) : Nat := s.byPart 64 32 16
def State.nSpare (s : State) : Nat := s.byPart 4 2 1
def State.nDc (s : State) : Nat := s.byPart 8 4 2
def State.nTu (s : State) : Nat := s.byPart 4 2 0
def State.jqDepth (s : State) : Nat := s.byPart 256 64 32
def State.hasBridge (s : State) : Bool := s.otp.part == 0
def State.qfullRefuse (s : State) : Bool := s.otp.part == 0

/-- ID_UNITS0 and ID_UNITS1 (R34, Table 01-10). -/
def State.idUnits0 (s : State) : Nat := s.byPart 0xFFFFFFFF 0x00FF00FF 0x000F000F
def State.idUnits1 (s : State) : Nat := s.byPart 0x0083FFFF 0x00603303 0x00501003

/-- The quad of a physical PE (R19). -/
def quadOf (pe : Nat) : Nat :=
  if pe < 64 then pe / 4 else if pe = 64 then 0 else if pe = 65 then 3 else if pe = 66 then 12 else 15

/-- Whether a physical PE is fitted. -/
def State.peFitted (s : State) (pe : Nat) : Bool :=
  pe < s.nPe || (64 ≤ pe && pe < 64 + s.nSpare)

/-- The physical PE that serves a logical one (R66). -/
def State.physOf (s : State) (k : Nat) : Nat := Tbl.get k s.pat.lmap k

/-- Whether a logical PE is present and not lost (R528). -/
def State.lpeOk (s : State) (k : Nat) : Bool := k < s.nPe && !s.pat.lost.contains k

/-- The logical PE that a physical one serves, if any. -/
def State.logOf (s : State) (pe : Nat) : Option Nat :=
  (List.range s.nPe).find? fun k => s.physOf k == pe && !s.pat.lost.contains k

/-- Physical PEs in service, ascending. -/
def State.pesIn (s : State) : List Nat := (List.range 68).filter fun p => (s.logOf p).isSome

/-! ### Each unit's record -/

def State.pe (s : State) (k : Nat) : Pe := Tbl.get {} s.pes k
def State.updPe (k : Nat) (f : Pe → Pe) (s : State) : State := { s with pes := Tbl.upd {} s.pes k f }
def State.site (s : State) (k : Nat) : Site := Tbl.get {} s.sites k
def State.updSite (k : Nat) (f : Site → Site) (s : State) : State := { s with sites := Tbl.upd {} s.sites k f }
def State.lane (s : State) (k : Nat) : Lane := Tbl.get {} s.lanes k
def State.updLane (k : Nat) (f : Lane → Lane) (s : State) : State := { s with lanes := Tbl.upd {} s.lanes k f }
def State.cu (s : State) (k : Nat) : Cu := Tbl.get {} s.cus k
def State.updCu (k : Nat) (f : Cu → Cu) (s : State) : State := { s with cus := Tbl.upd {} s.cus k f }
def State.lg (s : State) (k : Nat) : LaneGroup := Tbl.get {} s.lgs k
def State.updLg (k : Nat) (f : LaneGroup → LaneGroup) (s : State) : State := { s with lgs := Tbl.upd {} s.lgs k f }
def State.outlet (s : State) (k : Nat) : Outlet := Tbl.get {} s.outlets k
def State.updOutlet (k : Nat) (f : Outlet → Outlet) (s : State) : State :=
  { s with outlets := Tbl.upd {} s.outlets k f }
def State.dc (s : State) (k : Nat) : Ddr := Tbl.get {} s.ddrs k
def State.updDc (k : Nat) (f : Ddr → Ddr) (s : State) : State := { s with ddrs := Tbl.upd {} s.ddrs k f }
def State.tu (s : State) (k : Nat) : Tally := Tbl.get {} s.tally k
def State.updTu (k : Nat) (f : Tally → Tally) (s : State) : State := { s with tally := Tbl.upd {} s.tally k f }
def State.core (s : State) (k : Nat) : Steward := Tbl.get {} s.st.cores k
def State.updCore (k : Nat) (f : Steward → Steward) (s : State) : State :=
  { s with st := { s.st with cores := Tbl.upd {} s.st.cores k f } }
def State.mb (s : State) (k : Nat) : Mbox := Tbl.get {} s.mbs k
def State.updMb (k : Nat) (f : Mbox → Mbox) (s : State) : State := { s with mbs := Tbl.upd {} s.mbs k f }
def State.dom (s : State) (k : Nat) : Domain := Tbl.get {} s.pwr.doms k
def State.updDom (k : Nat) (f : Domain → Domain) (s : State) : State :=
  { s with pwr := { s.pwr with doms := Tbl.upd {} s.pwr.doms k f } }
def State.peg (s : State) (k : Nat) : Peg := Tbl.get {} s.pegs k
def State.updPeg (k : Nat) (f : Peg → Peg) (s : State) : State := { s with pegs := Tbl.upd {} s.pegs k f }
def State.updCm (f : Cm → Cm) (s : State) : State := { s with cm := f s.cm }
def State.updNet (f : Net → Net) (s : State) : State := { s with net := f s.net }
def State.updHost (f : HostIf → HostIf) (s : State) : State := { s with host := f s.host }
def State.updPair (f : Pair → Pair) (s : State) : State := { s with pair := f s.pair }
def State.updPwr (f : Power → Power) (s : State) : State := { s with pwr := f s.pwr }
def State.updSn (f : Sentinel → Sentinel) (s : State) : State := { s with sn := f s.sn }
def State.updBoot (f : Boot → Boot) (s : State) : State := { s with boot := f s.boot }
def State.updSec (f : Sec → Sec) (s : State) : State := { s with sec := f s.sec }
def State.updRcd (f : Recorder → Recorder) (s : State) : State := { s with rcd := f s.rcd }
def State.updLed (f : Ledger → Ledger) (s : State) : State := { s with led := f s.led }
def State.updPat (f : Patrol → Patrol) (s : State) : State := { s with pat := f s.pat }
def State.updTrace (f : Trace → Trace) (s : State) : State := { s with trace := f s.trace }
def State.updCab (f : Cabinet → Cabinet) (s : State) : State := { s with cab := f s.cab }
def State.updCl (f : Cluster → Cluster) (s : State) : State := { s with st := f s.st }
def State.updI3c (f : I3c → I3c) (s : State) : State := { s with i3c := f s.i3c }

/-! ### Time and counters -/

/-- Whether a domain is powered, clocked and out of reset (R469, R480), the fabric awake. -/
def State.domOn (s : State) (d : Nat) : Bool := (s.dom d).state == 2 && !(s.dom d).reset_ && !s.pwr.asleep

/-- The domains of a PE's quad, a lane group, an outlet, a DDR5 channel and a tally unit (Table 14-1). -/
def quadDom (pe : Nat) : Nat := 33 + quadOf pe
def lgDom (g : Nat) : Nat := 17 + g
def outDom (o : Nat) : Nat := 11 + o
def dcDom (c : Nat) : Nat := 7 + c / 2
def tuDom (n : Nat) : Nat := 13 + n

/-- fc in a microsecond, a nanosecond, a second. -/
def US : Nat := 2000
def NS : Nat := 2
def SEC : Nat := 2000000000

/-- A 32-bit counter's saturating sum. -/
def sat32 (a b : Nat) : Nat := satAdd 0xFFFFFFFF a b

/-- One counter of a table of counters risen by n, saturating at 32 bits. -/
def bump (t : Tbl Nat) (k n : Nat) : Tbl Nat := t.upd 0 k fun v => sat32 v n

/-- Whether the fabric clock runs: PD05 is on, out of reset and not asleep, and FREF is there (R477, R481). -/
def State.fabricRuns (s : State) : Bool := s.domOn 5 && s.pwr.fref

/-- Whether a stamp taken now is coarse (R478). -/
def State.coarse (s : State) : Bool := s.pwr.asleep || (s.pwr.wakeCnt != 0 && s.time < s.pwr.tw + 500)

/-- The effect of a command on a unit whose domain has its clocks (R469). -/
def State.inDom (d : Nat) (f : State → State) (s : State) : Out := State.plain (fun s => if s.domOn d then f s else s) s

/-- A wake is asked of the power controller for a domain that is not running (R343). -/
def State.wakeDom (d : Nat) (s : State) : State :=
  if s.domOn d then s else s.updDom d fun x => { x with wake := true, idleSince := s.time }

/-- A packet, a notice or an access reaches a domain whose clocks run: an entry into sleep is abandoned (R345). -/
def State.abandon (d : Nat) (s : State) : State :=
  if (s.dom d).going.isSome then
    s.updDom d fun x => { x with idleSince := s.time, going := if x.state = 2 then none else x.going, woken := true }
  else s

/-- A command's access to a register of a unit in a domain: lost where the domain has no power (R344), held while it sleeps,
which it wakes (R343), and then performed. -/
def State.regDom (d : Nat) (c : Instr) (f : State → State) (s : State) : State :=
  if s.domOn d then f (s.abandon d)
  else if (s.dom d).state = 0 || (s.dom d).reset_ then s
  else (s.updNet fun n => { n with regHold := n.regHold ++ [(d, c)] }).wakeDom d

/-- A posted write of PF0 waits behind a doorbell that is held (R202). -/
def State.pf0 (c : Instr) (f : State → State) (s : State) : State :=
  if s.cm.db.held.isSome then s.updCm fun m => { m with db := { m.db with posted := m.db.posted ++ [c] } } else f s

/-! ### Registers that hold what was written (Machine/Regs.lean lays them out) -/

/-- A register's key: its space and its address. The steward-local ports lie apart for each steward (R398, R399). -/
def regKey : Space → Nat → Nat
  | .io st, a => if a < 0x100 || (0x1000 ≤ a && a < 0x1200) then (st + 1) * 2 ^ 32 + a else a
  | .bar0, a => 6 * 2 ^ 32 + a
  | .pf1, a => 7 * 2 ^ 32 + a
  | .i3c, a => 8 * 2 ^ 32 + a
  | .cfg f, a => (9 + f) * 2 ^ 32 + a

/-- A stored register's value, or its reset value. -/
def State.reg (s : State) (sp : Space) (a rst : Nat) : Nat := Tbl.get rst s.regs (regKey sp a)

/-- A shared steward port's stored value. -/
def State.ioReg (s : State) (a rst : Nat) : Nat := Tbl.get rst s.regs a

/-- The state with a stored register written. -/
def State.setReg (sp : Space) (a v : Nat) (s : State) : State := { s with regs := s.regs.put (regKey sp a) v }

/-! ### What one fc has seen (R11, R110, R134; log entry 10, DESIGN CHOICE: one TIME is one fc) -/

/-- The notes that are of this fc; an older fc's go. -/
def State.fcNow (s : State) : FcLog := if s.fc.at_ = s.time then s.fc else { at_ := s.time }

/-- A note of this fc. -/
def State.note (k : FcKey) (n : Nat) (s : State) : State :=
  { s with fc := { s.fcNow with notes := (k, n) :: s.fcNow.notes } }

/-- The sum of this fc's notes under a key. -/
def State.noted (s : State) (k : FcKey) : Nat :=
  if s.fc.at_ = s.time then ((s.fc.notes.filter fun x => x.1 == k).map (·.2)).sum else 0

/-- The union of this fc's notes under a key. -/
def State.notedBits (s : State) (k : FcKey) : Nat :=
  if s.fc.at_ = s.time then ((s.fc.notes.filter fun x => x.1 == k).map (·.2)).foldl (· ||| ·) 0 else 0

/-- The value of a register before its first write of this fc is noted, and what a check of this fc sees of it (R134, R279). -/
def State.noteOld (port v : Nat) (s : State) : State :=
  if s.noted (.old port) = 0 then s.note (.old port) (v + 1) else s
def State.oldOf (s : State) (port v : Nat) : Nat :=
  if s.noted (.old port) = 0 then v else s.noted (.old port) - 1

/-- The bits of a written value that may clear W1C bits: an event of the same fc keeps its bit set (R11). -/
def State.w1c (s : State) (r : W1c) (n v : Nat) : Nat :=
  maskOf ((setBitsOf n v).filter fun i => s.noted (.w1c r i) = 0)

/-- A capture of this fc is noted with its lane's compare unit as it was before. -/
def State.noteCap (l v : Nat) (s : State) : State :=
  { s with fc := { s.fcNow with caps := (l, v, s.cu l) :: s.fcNow.caps } }

/-- What a compare unit was before a capture, but for the frets written and the tokens sent since. -/
def Cu.before (c c0 : Cu) : Cu :=
  { c0 with frets := c0.frets ++ c.frets.filter (fun f => !c0.frets.contains f), high := c.high, lastOut := c.lastOut,
            fifo := c0.fifo.filter c.fifo.contains }

/-- Captures of this fc are taken back. -/
def State.unCapt (cs : List (Nat × Nat × Cu)) (s : State) : State :=
  if cs.isEmpty then s
  else cs.foldl (fun s c => s.updCu c.1 fun u => u.before c.2.2)
    { s with fc := { s.fcNow with caps := s.fcNow.caps.filter fun c => !cs.contains c } }

/-- Counters lo to hi after a write that resets them: what this fc has counted is counted after the reset. -/
def State.recountAfter (s : State) (fam : CntFam) (unit lo hi : Nat) (t : Tbl Nat) : Tbl Nat :=
  (t.filter fun c => !(lo ≤ c.1 && c.1 ≤ hi && s.noted (.cnt fam unit c.1) = 0)).map fun c =>
    if lo ≤ c.1 && c.1 ≤ hi then (c.1, s.noted (.cnt fam unit c.1)) else c

/-! ### Free values (log entry 4, DESIGN CHOICE) -/

/-- An open value: taken at the model's counter, which moves on. -/
def State.fresh (s : State) : Nat × State := (Config.freeNat s.freeCnt, { s with freeCnt := s.freeCnt + 1 })

/-- An event source becomes pending (R386). -/
def State.raise (k : Nat) (s : State) : State :=
  s.updCl fun c => { c with routes := c.routes.upd {} k fun r => { r with pend := true } }

/-- A wake input while the fabric sleeps (R475): 0 PCIe, 1 mailbox, 2 timer, 3 sentinel, 4 lane. -/
def State.askWake (k : Nat) (s : State) : State :=
  s.updPwr fun p => if p.asleep then { p with waking := some (p.waking.getD k) } else p

/-! ### Messages and alerts (R419 to R421, R428) -/

/-- A function's vector can be signalled now: MSI-X enabled, not masked, function in D0. -/
def Func.canSend (f : Func) (v : Nat) : Bool :=
  f.msixEn && !f.fnMask && !f.d3 && Tbl.get 1 f.table (4 * v + 3) % 2 == 0

/-- A message of a function: sent, or pending until it can be (R420). -/
def Func.signal (f : Func) (v : Nat) : Func :=
  if f.canSend v then { f with sent := f.sent ++ [v], pend := f.pend.filter (· != v) }
  else if f.pend.contains v then f else { f with pend := f.pend ++ [v] }

/-- An MSI-X message of PF0. -/
def State.msix0 (v : Nat) (s : State) : State := s.updHost fun h => { h with pf0 := h.pf0.signal v }

/-- An MSI-X message of PF1. -/
def State.msix1 (v : Nat) (s : State) : State := s.updHost fun h => { h with pf1 := h.pf1.signal v }

/-- ALERT_EN and BMC_ALERT_EN (R422, R428). -/
def State.alertEn (s : State) : Nat := s.reg .bar0 0x3004 0
def State.bmcAlertEn (s : State) : Nat := s.reg .i3c 0x000C 0x600

/-- An in-band interrupt of the BMC waits (R428). -/
def State.ibi (k : Nat) (s : State) : State :=
  s.updI3c fun i => if i.ibi.contains k then i else { i with ibi := i.ibi ++ [k] }

/-- An alert bit is set in both copies; a copy's message goes out when the bit was clear and is enabled (R420).
Bit 7 is never set where the Bridge is absent (R429). -/
def State.alert (k : Nat) (s0 : State) : State :=
  if k = 7 && !s0.hasBridge then s0 else
  let s := (s0.note (.w1c .host k) 1).note (.w1c .bmc k) 1
  let s1 := if bit s.host.alert k then s else
    when (bit s.alertEn k) (State.msix0 (18 + k))
      ((s.note (.rose .host k) 1).updHost fun h => { h with alert := h.alert + 2 ^ k })
  if bit s1.host.bmcAlert k then s1 else
    when (bit s1.bmcAlertEn k) (State.ibi k)
      ((s1.note (.rose .bmc k) 1).updHost fun h => { h with bmcAlert := h.bmcAlert + 2 ^ k })

/-- The enabled bits of a write of 1 that an event of this fc leaves set (R11) and that were set before it: each sends its
message anew (R420). -/
def State.reSent (s : State) (r : W1c) (n cur en v : Nat) : List Nat :=
  (setBitsOf n v).filter fun k => bit cur k && bit en k && s.noted (.w1c r k) != 0 && s.noted (.rose r k) == 0

/-! ### Event records (R531 to R534) -/

/-- The codes of Table 16-4 whose records are always of alert severity. -/
def alertCode (code : Nat) : Bool :=
  [0x8003, 0x8007, 0x8008, 0x8009, 0x800B, 0x800D, 0x8010, 0x8011, 0x8012].contains code

/-- Whether an event enters the intake ahead of another that reaches it in the same fc (R533). -/
def EvReq.ahead (e x : EvReq) : Bool := x.time == e.time && (e.cls < x.cls || (e.cls == x.cls && e.inst < x.inst))

/-- An event enters an intake: behind what stands there, but in ascending class, then instance, among those of its own fc
(R533). -/
def intakeAdd : List EvReq → EvReq → List EvReq
  | [], e => [e]
  | x :: xs, e => if e.ahead x then e :: x :: xs else x :: intakeAdd xs e

/-- An event enters the recorder's intake; with the 64 entries full the last one is dropped and counted (R533). -/
def State.eventReq (e : EvReq) (s : State) : State :=
  s.updRcd fun r =>
    let q := intakeAdd r.intake { e with time := s.time, coarse := s.coarse }
    if 64 ≤ r.intake.length then { r with intake := q.take 64, lostCnt := sat32 r.lostCnt 1, lostPend := r.lostPend + 1 }
    else { r with intake := q }

/-- An event of a given severity. -/
def State.eventA (alert : Bool) (cls inst code arg : Nat) (s : State) : State :=
  s.eventReq { code := code, cls := cls, inst := inst, arg := arg % 2 ^ 64, alert := alert }

/-- An event of the severity that Table 16-4 gives its code. -/
def State.event (cls inst code arg : Nat) (s : State) : State := s.eventA (alertCode code) cls inst code arg

/-- Event classes of Table 16-3. -/
def cSn : Nat := 0
def cPwr : Nat := 1
def cSec : Nat := 2
def cSt : Nat := 3
def cPe : Nat := 4
def cMs : Nat := 5
def cCm : Nat := 6
def cLane : Nat := 7
def cVe : Nat := 8
def cCu : Nat := 9
def cOut : Nat := 10
def cDdr : Nat := 11
def cScx : Nat := 12
def cBr : Nat := 13
def cTu : Nat := 14
def cExt : Nat := 15

/-- A life-ledger total of section 6 rises (R536). -/
def State.tot (k : Nat) (s : State) : State := s.updLed fun l => { l with tot := l.tot.upd 0 k (· + 1) }

/-- A corrected error counts in section 5. -/
def State.ecc (k : Nat) (s : State) : State := s.updLed fun l => { l with ecc := bump l.ecc k 1 }

/-- A unit named in an uncorrectable error is patrolled next (R525): 0 a drawer set, 2 a fret row, 3 a Shelf row. -/
def State.flagUnit (t u : Nat) (s : State) : State :=
  s.updPat fun p => if p.flagged.contains (t, u) then p else { p with flagged := p.flagged ++ [(t, u)] }

/-- A lane error class counts in section 4. -/
def State.laneClass (l c n : Nat) (s : State) : State := s.updLed fun d => { d with lane := bump d.lane (8 * l + c) n }

/-! ### Pair mode (R440, R445) -/

/-- The package is ACTIVE and journals. -/
def State.journals (s : State) : Bool := s.pair.state == 1 && s.pair.running

/-- The package is STANDBY. -/
def State.standby (s : State) : Bool := s.pair.state == 2

/-- A journal record's size in the standby's buffer (R440). -/
def jrecSize (r : JRec) : Nat := 4 + 8 * (r.args.length + cdiv r.data.length 8)

/-- Journal credit (R445): the standby's 8 MiB buffer has room for the largest record, or nothing is journalled. -/
def State.jrnlRoom (s : State) : Bool :=
  !s.journals || (s.pair.journal ++ s.pair.sent).foldl (fun n r => n + jrecSize r) 0 + 512 ≤ 2 ^ 23

/-- A host's journalled command or register write may be accepted now (R408, R445, R511). -/
def State.hostRoom (s : State) : Bool := s.jrnlRoom && !(s.journals && s.pair.fwWait)

/-- Time passes until `d`; BR_JRNL_HOLD_CNT counts what of it lacks journal credit (R445). -/
def State.passTo (d : Nat) (s : State) : State :=
  let n := d - s.time
  { s with time := max s.time d,
           pair := if s.jrnlRoom then s.pair else { s.pair with jrnlHold := sat32 s.pair.jrnlHold n } }

/-- The answer of an event that falls due at a time: TIME has then reached it. An event that nothing has armed leaves
the state as it is (log entry 8, DESIGN CHOICE). -/
def State.timed (due : Option Nat) (f : State → State) (s : State) : Out :=
  match due with
  | none => .next s
  | some d => State.plain f (s.passTo d)

/-- The idle tick: TIME counts one fc while the fabric clock runs; otherwise it moves by AO ticks only (R477; log 7). -/
def State.idle (s : State) : State := if s.fabricRuns then s.passTo (s.time + 1) else s

/-- E in µs (R467). -/
def State.epochUs (s : State) : Nat := bits (s.ioReg 0xE002 0x808) 4 0

/-- The epoch boundary of TIME that follows the last one taken (R440). -/
def State.epochDue (s : State) : Nat :=
  let n := s.epochUs * US
  (s.pair.lastB / n + 1) * n

/-- The boundary has come and its command has not run: what happens now belongs to the later epoch (R464). -/
def State.epochOver (s : State) : Bool := !s.pair.early && s.epochDue ≤ s.time

/-- The epoch closes with END; a swap in service holds firing issue from here on. -/
def State.closeEpoch (s : State) : State :=
  s.updPair fun p =>
    { p with sent := p.sent ++ p.journal ++ [{ ty := 0x0F, args := [p.epoch, p.journal.length, p.digest], data := [] }],
             journal := [], digest := 0, epoch := p.epoch + 1,
             swapAt := match p.swapMb, p.swapAt with | some _, none => some p.epoch | _, w => w }

/-- A decision is journalled (Table 13-3). -/
def State.jrnl (ty : Nat) (args : List Nat) (data : List Byte) (s : State) : State :=
  when s.journals (fun s =>
    (if s.epochOver then s.closeEpoch.updPair fun p => { p with early := true } else s).updPair fun p =>
      { p with journal := p.journal ++ [{ ty := ty, args := args, data := data }] }) s

/-- The epoch in which an item that R443 holds arises: none when nothing is held. -/
def State.holdEpoch (s : State) : Option Nat := if s.journals then some (s.pair.epoch + b2n s.epochOver) else none

/-- Whether an item held for an epoch may go (R443). -/
def State.epochFree (s : State) (e : Option Nat) : Bool :=
  match e with
  | none => true
  | some k => !s.journals || (match s.pair.acked with | none => false | some a => k ≤ a)

/-! ### The fabric (R334 to R342) -/

/-- Router x + 6y of an endpoint (Table 01-2). -/
def routerOf : Ep → Nat
  | .pe n => let q := quadOf n; (1 + q % 4) + 6 * (1 + q / 4)
  | .lg n => if n < 4 then 1 + n
             else if n < 8 then 5 + 6 * (n - 3)
             else if n < 12 then (12 - n) + 30
             else 6 * (16 - n)
  | .cm => 0
  | .stew => 0
  | .pcie => 0
  | .sec => 0
  | .shelf => 0
  | .cab => 5
  | .dc n => if n < 4 then 5 else 35
  | .outlet _ _ => 35
  | .tu _ => 30
  | .bridge => 30
  | .sync => 30

/-- Hop count of two endpoints (R20). -/
def hops (a b : Ep) : Nat :=
  let p := routerOf a; let q := routerOf b
  (p % 6 - q % 6) + (q % 6 - p % 6) + ((p / 6 - q / 6) + (q / 6 - p / 6))

/-- A packet enters the fabric at its source's router, with the token that its receiver checks. -/
def State.sendChk (net chan src : Nat) (from_ dst : Ep) (b : Body) (chk : Option Tok) (s : State) : State :=
  s.updNet fun n => { n with transit := n.transit ++
    [{ net := net, chan := chan, router := routerOf from_, inport := 4, src := src, dst := dst, body := b, chk := chk }] }

/-- A packet enters the fabric at its source's router. -/
def State.send (net chan src : Nat) (from_ dst : Ep) (b : Body) (s : State) : State :=
  s.sendChk net chan src from_ dst b none

/-- Places of a router's input buffer (Table 10-1). -/
def bufSize (net chan : Nat) : Nat := if net = 0 then (if chan = 0 then 8 else 32) else 4

/-- A cohort's copy at its quad router (R339): each is sent by itself, so it takes no place of the local input port. -/
def Pkt.isCopy (p : Pkt) : Bool :=
  match p.body with | .lane _ _ _ m => m.isSome && p.inport == 4 && p.src == 3000 | _ => false

/-- The packets of a router's local input port that its places do not hold: they still stand at their senders, which wait for
a credit (R116, R337; log entry 12, DESIGN CHOICE). -/
def State.atSource (s : State) (net chan r : Nat) : List Pkt :=
  (s.net.transit.filter fun k => k.net == net && k.chan == chan && k.inport == 4 && k.router == r && !k.isCopy).drop (bufSize net chan)

/-- Whether a router's local input port has a place: a sender has a credit (R116, R337). -/
def State.srcRoom (s : State) (net chan r : Nat) : Bool :=
  let n := (s.net.transit.filter fun k => k.net == net && k.chan == chan && k.inport == 4 && k.router == r && !k.isCopy).length
  decide (n < bufSize net chan)

/-- A notice waits for its broadcast (R340). -/
def State.notice (x : Notice) (s : State) : State := s.updNet fun n => { n with notices := n.notices ++ [x] }

/-! ### Contexts and code blocks -/

/-- A context's table entry (R209). -/
def State.ctx (s : State) (n : Nat) : Ctx := Tbl.get {} s.cm.ctxs n

/-- Context 0, the system context, is always live: it belongs to no job and nothing kills it; another is live in state 1
(R41, R42). -/
def State.ctxLive (s : State) (n : Nat) : Bool := n == 0 || (s.ctx n).state == 1

/-- The logical PEs that a route-sidecar entry places its actor on (R64, R65). -/
def Block.pesOf (b : Block) (e : Nat) : List Nat :=
  if bit e 15 then setBitsOf 64 (b.sets.getD (e % 256) {}).members else [e % 64]

/-- The logical PEs that a block places an actor on or names in a PE set. -/
def Block.named (b : Block) : List Nat :=
  (List.range 64).filter fun k => b.place.any (fun e => (b.pesOf e).contains k) || b.sets.any fun p => bit p.members k

/-- A block by its id, resident and wholly loaded, and naming no lost logical PE (R195, R528). -/
def State.blockOk (s : State) (b : Nat) : Option Block :=
  match Tbl.find s.cm.blocks b with
  | none => none
  | some k => if k.loading || k.named.any s.pat.lost.contains then none else some k

/-- The block that a context runs; the system context has one once firmware has loaded it. -/
def State.ctxBlock (s : State) (n : Nat) : Option Block :=
  if n = 0 && (Tbl.find s.cm.ctxs 0).isNone then none else Tbl.find s.cm.blocks (s.ctx n).block

/-- The number that stands for no job: the owner of the system context and of the contexts it starts. -/
def sysJob : Nat := 4096

/-- A live job's record. -/
def State.job (s : State) (j : Nat) : Job := Tbl.get {} s.cm.jobs j

/-- A kill that the context manager is to start (R211). -/
def State.askKill (k : KillReq) (s : State) : State := s.updCm fun c => { c with killQ := c.killQ ++ [k] }

/-- Contexts of a job that the table holds live. -/
def State.jobCtxs (s : State) (j : Nat) : List Nat :=
  (s.cm.ctxs.filter fun p => p.2.state == 1 && p.2.job == j && p.1 != 0).map (·.1)

/-! ### DDR5, the Shelf and host memory -/

/-- DDR5 bytes (log entry 2, DESIGN CHOICE: a byte that nothing has written reads as zero). A write of a whole line leaves no
error in it. -/
def State.ddrBytes (s : State) (a n : Nat) : List Byte := Mem.readBytes 0 s.ddr a n
def State.ddrPut (a : Nat) (bs : List Byte) (s : State) : State :=
  let kept (l : Nat) : Bool := !(a ≤ l * 128 && l * 128 + 128 ≤ a + bs.length)
  { s with ddr := Mem.writeBytes 0 s.ddr a bs, ddrPoison := s.ddrPoison.filter kept,
           ddrUpset := s.ddrUpset.filter fun u => kept u.1 }

/-- The DDR5 channel of an address (R350). -/
def State.chanOfAddr (s : State) (a : Nat) : Nat := (a / 256) % max 1 s.nDc

/-- The 128-byte lines that a byte range touches. -/
def linesOf (a n : Nat) : List Nat := if n = 0 then [] else (List.range ((a + n - 1) / 128 - a / 128 + 1)).map (· + a / 128)

/-- A user's traffic is charged on its channels (R353): 128 bytes for each line, 256 for a line that a write covers in part. -/
def State.charge (u a n : Nat) (wr : Bool) (s : State) : State :=
  (linesOf a n).foldl (fun s l =>
    let k := if wr && !(a ≤ l * 128 && l * 128 + 128 ≤ a + n) then 256 else 128
    s.updDc (s.chanOfAddr (l * 128)) fun d => { d with used := d.used.upd 0 u (· + k), use_ := d.use_.upd 0 u (· + k) }) s

/-- Whether a byte range touches a poisoned line (R351). -/
def State.poisonedAt (s : State) (a n : Nat) : Bool := s.ddrPoison.any fun l => l * 128 < a + n && a < l * 128 + 128

/-- What the check code of a line reports when the line is read (R351): 1 corrected, 2 uncorrectable. -/
def State.lineErr (l err : Nat) (s : State) : State :=
  let c := s.chanOfAddr (l * 128)
  if err = 1 then (s.updDc c fun d => { d with ce := sat32 d.ce 1 }).ecc (201 + c)
  else if err = 2 then
    let s1 := { s with ddrPoison := if s.ddrPoison.contains l then s.ddrPoison else s.ddrPoison ++ [l] }
    (((s1.updDc c fun d => { d with ue := sat32 d.ue 1, ueAddr := l * 128 }).event cDdr c 0x800C (l * 128)).alert
      11).raise 25
  else s

/-- A line of DDR5 takes an error, which its next read finds. -/
def State.upsetLine (l err : Nat) (s : State) : State :=
  if err = 1 || err = 2 then { s with ddrUpset := s.ddrUpset ++ [(l, err)] } else s

/-- The lines of a range are read: the errors that they have taken are found (R351), a corrected line being written back. -/
def State.lineRead (a n : Nat) (s : State) : State :=
  (s.ddrUpset.filter fun u => u.1 * 128 < a + n && a < u.1 * 128 + 128).foldl
    (fun s u => ({ s with ddrUpset := s.ddrUpset.erase u }).lineErr u.1 u.2) s

/-- The lines that stewards' data caches hold of a 64-byte line (R352). -/
def State.cachedAt (s : State) (a : Nat) : Bool := s.st.cores.any fun p => (Tbl.find p.2.cache (a / 64)).isSome

/-- A write by a master other than a steward: the lines of it that a steward's cache holds are to be dropped (R352). -/
def State.invalidate (a n : Nat) (s : State) : State :=
  if n = 0 then s else
  ((List.range ((a + n - 1) / 64 - a / 64 + 1)).map (· + a / 64)).foldl (fun s l =>
    if s.cachedAt (l * 64) && !s.net.notices.contains (.inval l) then s.notice (.inval l) else s) s

/-- A read of DDR5 by a user, with its charge and the errors it finds. -/
def State.ddrRd (u a n : Nat) (s : State) : State := (s.charge u a n false).lineRead a n

/-- A write of DDR5 by a user that is no steward. -/
def State.ddrWr (u a : Nat) (bs : List Byte) (s : State) : State :=
  ((s.charge u a bs.length true).ddrPut a bs).invalidate a bs.length
/-- Host memory bytes. -/
def State.hostBytes (s : State) (a n : Nat) : List Byte := Mem.readBytes 0 s.host.mem a n

/-- Whether a read of host memory completes without an error (R410). -/
def State.hostReads (s : State) (a n : Nat) : Bool := !s.host.bad.any fun p => 4096 * p < a + n && a < 4096 * p + 4096
def State.hostPut (a : Nat) (bs : List Byte) (s : State) : State :=
  s.updHost fun h => { h with mem := Mem.writeBytes 0 h.mem a bs }
/-- Shelf bytes. A write of a whole word leaves no error in it. -/
def State.shelfPut (a : Nat) (bs : List Byte) (s : State) : State :=
  { s with shelf := Mem.writeBytes 0 s.shelf a bs,
           shelfBad := s.shelfBad.filter fun w => !(a ≤ 8 * w && 8 * w + 8 ≤ a + bs.length) }

/-- Whether a range of the Shelf touches a word that carries an uncorrectable error (Table 16-1). -/
def State.shelfBadAt (s : State) (a n : Nat) : Bool := s.shelfBad.any fun w => 8 * w < a + n && a < 8 * w + 8

/-- What a Shelf word's check code reports when it is read (R523): 1 corrected, 2 uncorrectable. The record's class is not
stated for the Shelf (log entry 110, DESIGN CHOICE). -/
def State.shelfErr (a err : Nat) (s : State) : State :=
  if err = 1 then s.ecc 196
  else if err = 2 then
    ({ s with shelfBad := if s.shelfBad.contains (a / 8) then s.shelfBad else s.shelfBad ++ [a / 8] }.eventA true cSt 0 0x800C
      a).flagUnit 3 (bits a 9 6 * 512 + a / 16384)
  else s

/-- The job area of DDR5 (R356): first address, and first address above it. -/
def State.jobBase (s : State) : Nat := s.ioReg 0xD130 0 + s.ioReg 0xD131 0 * 2 ^ 32
def State.jobLimit (s : State) : Nat := s.ioReg 0xD132 0 + s.ioReg 0xD133 0 * 2 ^ 32

/-- Whether a range lies in the job area. -/
def State.inJobArea (s : State) (a n : Nat) : Bool := s.jobBase ≤ a && a + n ≤ s.jobLimit

/-- Whether firmware runs (DEV_STATE 2). -/
def State.fwRuns (s : State) : Bool := s.boot.dev == 2 || s.boot.dev == 4

/-- Some job is live or queued. -/
def State.anyJob (s : State) : Bool := !s.cm.jobs.isEmpty || !s.cm.queue.isEmpty

/-- Since when no job has been live or queued (R473). -/
def State.noteIdle (s : State) : State :=
  s.updPwr fun p => { p with idleAt := if s.anyJob then none else some (p.idleAt.getD s.time) }

/-- The lanes of a site. -/
def Site.laneList (x : Site) : List Nat := (List.range x.lanes).map (· + x.first)

/-- A site is UP when it is bound and all its lanes are UP (R222). -/
def State.siteUp (s : State) (k : Nat) : Bool :=
  let x := s.site k
  x.bound && x.laneList.all fun l => (s.lane l).state == 5

/-- Whether a site belongs to a live job, which it leaves at RELEASE (R206, R251). -/
def State.siteTaken (s : State) (k : Nat) : Bool := (s.site k).job.isSome && !(s.site k).released

/-- The site that binds a lane. -/
def State.siteOfLane (s : State) (l : Nat) : Option Nat :=
  (List.range 128).find? fun k => let x := s.site k; x.bound && x.first ≤ l && l < x.first + x.lanes

end Sys2Proof.Machine
end

