-- ==== Sys2Proof/Machine/Operands.lean ====
section
/-! DEFINITION. Tokens as images (R36, R52), actor words (R57), operand forms (R38, R147), immediates (R58), where a
token is routed (R69, R70) and the match key (R37, R74, Table 03-4). -/

namespace Sys2Proof.Machine
open Sys2Proof

/-! ### Tokens -/

/-- The 64-bit tag (R36). -/
def Tok.tag (t : Tok) : Nat := t.ctx.toNat * 2 ^ 44 + t.act.toNat * 2 ^ 30 + t.iter.toNat * 4 + t.port.toNat

/-- The 16 attribute bits (R36). -/
def Tok.attr (t : Tok) : Nat := t.flow.toNat * 64 + t.grp.toNat * 8 + b2n t.poison * 4 + t.kind.toNat

/-- Image bytes 0–17 (R36). -/
def Tok.image18 (t : Tok) : List Byte := leBytes 8 t.tag ++ leBytes 8 t.value.toNat ++ leBytes 2 t.attr

/-- The 20-byte image. -/
def Tok.image (t : Tok) : List Byte := t.image18 ++ leBytes 2 t.crc.toNat

/-- The token of a tag, a value and attribute bits, its CRC field zero. -/
def Tok.ofParts (tag value attr : Nat) : Tok :=
  { ctx := BitVec.ofNat 20 (bits tag 63 44), act := BitVec.ofNat 14 (bits tag 43 30),
    iter := BitVec.ofNat 28 (bits tag 29 2), port := BitVec.ofNat 2 (bits tag 1 0),
    value := BitVec.ofNat 64 value,
    flow := BitVec.ofNat 10 (bits attr 15 6), grp := BitVec.ofNat 3 (bits attr 5 3), poison := bit attr 2,
    kind := BitVec.ofNat 2 (bits attr 1 0), crc := 0 }

/-- The token of a 20-byte image. -/
def Tok.ofImage (bs : List Byte) : Tok :=
  { Tok.ofParts (fld bs 0 8) (fld bs 8 8) (fld bs 16 2) with crc := BitVec.ofNat 16 (fld bs 18 2) }

/-- A created token: its creator computes the CRC (R53). -/
def Tok.sealed (t : Tok) : Tok := { t with crc := crc16 t.image18 }

/-- The CRC check of R54. -/
def Tok.crcOk (t : Tok) : Bool := t.crc == crc16 t.image18

/-- The match key as one number (R37; Table 03-4's key value k). -/
def mkKey (ctx act iter : Nat) : Nat := ctx * 2 ^ 42 + act * 2 ^ 28 + iter

def Tok.key (t : Tok) : Nat := mkKey t.ctx.toNat t.act.toNat t.iter.toNat

/-- A match key in the tag layout, PORT 0. -/
def tagOf (ctx act iter : Nat) : Nat := ctx * 2 ^ 44 + act * 2 ^ 30 + iter * 4

/-- The 256 bits of an entry that holds a token (Table 03-2), reserved bits zero; a Cabinet entry has age zero and, in its
bucket's entry 0, the through flag in the pin bit. -/
def entryBits (tag attr crc value age : Nat) (pin : Bool) : Nat :=
  let lo := tag + attr * 2 ^ 64 + crc * 2 ^ 80 + 2 ^ 96 + b2n pin * 2 ^ 97 + age * 2 ^ 104
  lo + value * 2 ^ 120 + Config.secded lo % 256 * 2 ^ 240 + Config.secded value % 256 * 2 ^ 248

/-- The 256 bits of an entry that holds no token. -/
def freeBits (pin : Bool) : Nat :=
  let lo := b2n pin * 2 ^ 97
  lo + Config.secded lo % 256 * 2 ^ 240 + Config.secded 0 % 256 * 2 ^ 248

/-- An entry's image in a drawer (R73). -/
def Ent.bits (e : Ent) : Nat := entryBits e.tok.tag e.tok.attr e.tok.crc.toNat e.tok.value.toNat e.age e.pin

/-- The image of a place of a region's buckets (R73): the through flag stands in entry 0 of a bucket. -/
def Region.image (r : Region) (i : Nat) : List Byte :=
  let through : Bool := i % 8 = 0 && r.through.contains (i / 8)
  leBytes 32 (match Tbl.find r.ents i with
    | none => freeBits through
    | some e => entryBits e.tok.tag e.tok.attr e.tok.crc.toNat e.tok.value.toNat 0 through)

/-- The 14-bit hash of R74. -/
def hash14 (ctx act iter : Nat) : Nat :=
  let r := ((act % 2 ^ 14) * 128 % 2 ^ 14) ||| ((act % 2 ^ 14) / 128)
  (iter % 2 ^ 14) ^^^ (iter / 2 ^ 14 % 2 ^ 14) ^^^ r ^^^ (ctx % 2 ^ 14) ^^^ ((ctx / 2 ^ 14 % 64) * 256)

/-- Drawer and set of a key, as drawer × 2048 + set (R74). -/
def setIdx (ctx act iter : Nat) : Nat := let h := hash14 ctx act iter; (h % 8) * 2048 + h / 8

def Tok.set (t : Tok) : Nat := setIdx t.ctx.toNat t.act.toNat t.iter.toNat

/-- The Cabinet hash x of a key value (Table 03-4). -/
def cabHash (k : Nat) : Nat := (k * 0x9E3779B97F4A7C15) % 2 ^ 64

/-- The summary cell of a key: 16 × set + selector (R86). -/
def Tok.cell (t : Tok) : Nat := t.set * 16 + bits (cabHash t.key) 35 32

/-- The home bucket of a key (Table 03-4). -/
def homeBucket (szLog2 k : Nat) : Nat := cabHash k / 2 ^ (67 - szLog2)

/-! ### Actor words (Table 02-4) -/

def wOpc (w : Nat) : Nat := bits w 63 56
def wArity (w : Nat) : Nat := bits w 55 54
def wImmSel (w : Nat) : Nat := bits w 53 52
def wDst0 (w : Nat) : Nat := bits w 51 38
def wPort0 (w : Nat) : Nat := bits w 37 36
def wDst1 (w : Nat) : Nat := bits w 35 22
def wPort1 (w : Nat) : Nat := bits w 21 20
def wGrp (w : Nat) : Nat := bits w 19 17
def wFk (w : Nat) : Bool := bit w 16
def wImm16 (w : Nat) : Nat := bits w 15 0

/-- The modifier: IMM16 when no immediate is selected, else zero (R58). -/
def wMod (w : Nat) : Nat := if wImmSel w = 0 then wImm16 w else 0

/-- The waiting set (R38): the ports of ARITY less the port that IMMSEL names. -/
def waitSet (w : Nat) : List Nat :=
  (List.range (wArity w % 3 + 1)).filter fun p => wImmSel w = 0 || p + 1 != wImmSel w

/-- The immediate operand (R58): none where IMMSEL is 00. -/
def immOf (b : Block) (w : Nat) : Option Nat :=
  if wImmSel w = 0 then none
  else if bit (wImm16 w) 15 then some (b.pool.getD (wImm16 w % 2 ^ 14) 0)
  else some (wrap 64 (sext 15 (wImm16 w)))

/-- The operand forms of Table 05-1. -/
inductive Form where
  | m
  | d
  | dr
  | dn
  | t
  | t10
  deriving DecidableEq, Repr

/-- Whether an actor word has a form's ARITY and IMMSEL. -/
def Form.fits (f : Form) (w : Nat) : Bool :=
  match f with
  | .m => wArity w == 0 && wImmSel w == 0
  | .d => wArity w == 1 && wImmSel w != 3
  | .dr => wArity w == 1 && (wImmSel w == 0 || wImmSel w == 2)
  | .dn => wArity w == 1 && wImmSel w == 0
  | .t => wArity w == 2 && wImmSel w == 0
  | .t10 => wArity w == 2 && wImmSel w == 2

/-- The forms an opcode accepts (Tables 05-3 to 05-8, 05-12, 05-13, 05-17); none for a reserved opcode. -/
def opForms (o : Nat) : List Form :=
  if (1 ≤ o && o ≤ 0x0E) || (0x10 ≤ o && o ≤ 0x12) || (0x14 ≤ o && o ≤ 0x17) then [.d]
  else if o = 0x18 then [.m]
  else if 0x20 ≤ o && o ≤ 0x26 then [.d]
  else if 0x28 ≤ o && o ≤ 0x2A then [.t10]
  else if o = 0x2B then [.m]
  else if o = 0x2C then [.dr]
  else if o = 0x30 || o = 0x34 || o = 0x35 || o = 0x36 then [.m]
  else if o = 0x31 || o = 0x32 || o = 0x33 then [.dr]
  else if o = 0x40 then [.m, .dr]
  else if o = 0x41 then [.dr]
  else if o = 0x42 then [.m]
  else if o = 0x50 then [.m, .dr]
  else if o = 0x51 then [.dr]
  else if o = 0x52 then [.dn]
  else if o = 0x53 then [.t]
  else if 0x54 ≤ o && o ≤ 0x56 then [.dr]
  else if o = 0x60 || o = 0x62 || o = 0x63 then [.dr]
  else if o = 0x61 then [.m]
  else if o = 0x70 || o = 0x71 then [.m, .dr]
  else if o = 0x80 || o = 0x81 then [.m]
  else if o = 0x82 || o = 0x83 then [.d]
  else if o = 0x84 || o = 0x85 then [.dr]
  else if 0x90 ≤ o && o ≤ 0x93 then [.m]
  else if o = 0x94 then [.d]
  else []

/-- Opcodes that are reserved (R149). -/
def opReserved (o : Nat) : Bool := (opForms o).isEmpty

/-- The timing classes of Table 04-4. -/
inductive Cls where
  | s
  | m
  | x
  | l
  | u
  | r
  | c
  | t
  deriving DecidableEq, Repr

/-- An opcode's timing class (R133). -/
def opClass (o : Nat) : Cls :=
  if opReserved o then .t
  else if 0x10 ≤ o && o ≤ 0x12 || o = 0x82 || o = 0x83 || o = 0x84 || (0x90 ≤ o && o ≤ 0x94) then .m
  else if 0x14 ≤ o && o ≤ 0x17 then .x
  else if 0x60 ≤ o && o ≤ 0x63 then .l
  else if o = 0x70 || o = 0x71 then .u
  else if (0x40 ≤ o && o ≤ 0x42) || (0x50 ≤ o && o ≤ 0x56) || o = 0x85 then .r
  else if 0x32 ≤ o && o ≤ 0x35 then .c
  else .s

/-! ### A firing's operands (R58, R146) -/

/-- The left, right and control values; the immediate fills the port that IMMSEL names (R58, R146). -/
def Firing.va (f : Firing) : Nat :=
  match f.a with | some t => t.value.toNat | none => if wImmSel f.word = 1 then f.imm.getD 0 % 2 ^ 64 else 0
def Firing.vb (f : Firing) : Nat :=
  match f.b with | some t => t.value.toNat | none => if wImmSel f.word = 2 then f.imm.getD 0 % 2 ^ 64 else 0
def Firing.vc (f : Firing) : Nat :=
  match f.c with | some t => t.value.toNat | none => if wImmSel f.word = 3 then f.imm.getD 0 % 2 ^ 64 else 0

/-- Whether any operand token of a firing is poisoned. -/
def Firing.poisoned (f : Firing) : Bool := [f.a, f.b, f.c].any fun o => match o with | some t => t.poison | none => false

/-- The FLOW of the operand token on the lowest-numbered port that a token supplied; 0 when only an immediate could
supply it (R46, R146). -/
def Firing.outFlow (f : Firing) : Nat :=
  match f.a, f.b, f.c with
  | some t, _, _ => t.flow.toNat
  | none, some t, _ => t.flow.toNat
  | none, none, some t => t.flow.toNat
  | none, none, none => 0

/-- The token that a firing pipe hands to another block: value a, the actor's group, the FLOW of R46, its CRC computed
(R53). -/
def Firing.carry (f : Firing) (ctx act iter port : Nat) : Tok :=
  Tok.sealed { ctx := BitVec.ofNat 20 ctx, act := BitVec.ofNat 14 act, iter := BitVec.ofNat 28 iter,
               port := BitVec.ofNat 2 port, value := BitVec.ofNat 64 f.va, flow := BitVec.ofNat 10 f.outFlow,
               grp := BitVec.ofNat 3 (wGrp f.word), poison := f.poisoned }

/-- The token that a request to a tally unit or to a writer port carries: the firing's key and its value a (R54). The spec
gives it no image (log entry 109, DESIGN CHOICE). -/
def Firing.operand (f : Firing) : Tok := f.carry f.ctx f.act f.iter 0

/-- An APPEND or COMMIT's control word: the modifier in the M form, b in the DR form. -/
def Firing.ctl (f : Firing) : Nat := if wArity f.word = 0 then wMod f.word else f.vb
def Firing.ctlPoisoned (f : Firing) : Bool :=
  wArity f.word != 0 && (match f.b with | some t => t.poison | none => false)

/-! ### Placement (R64 to R70) -/

/-- The k-th set bit of a mask. -/
def nthBit (n mask k : Nat) : Nat := (setBitsOf n mask).getD k 0

/-- The member a spread actor's iteration picks (R70). -/
def PeSet.pick (p : PeSet) (iter : Nat) : Nat :=
  let k0 := iter / 2 ^ p.shift
  let k := if p.mode = 1 then k0 ^^^ (k0 / 2 ^ 11) ^^^ (k0 / 2 ^ 22) else k0
  nthBit 64 p.members (k % max 1 (popcount 64 p.members))

/-- The logical PE of an actor's firing. -/
def Block.lpe (b : Block) (act iter : Nat) : Nat :=
  let e := b.place.getD act 0
  if bit e 15 then (b.sets.getD (e % 256) {}).pick iter else e % 64

/-- The physical PE that a token for (ctx, act, iter) goes to, if its block is resident; while the system context has no
block, logical PE 0, which faults the token (log entry 30, DESIGN CHOICE). -/
def State.peFor (s : State) (ctx act iter : Nat) : Option Nat :=
  match s.ctxBlock ctx with
  | none => if ctx = 0 then some (s.physOf 0) else none
  | some b => some (s.physOf (b.lpe act iter))

/-- The actor word of a context's actor; none when ACT is at or above the actor count. -/
def State.wordOf (s : State) (ctx act : Nat) : Option Nat :=
  match s.ctxBlock ctx with
  | none => none
  | some b => b.words[act]?

/-- The network channel of a group: 0 urgent, 1 general (R116). -/
def chanOf (grp : Nat) : Nat := if grp = 0 then 0 else 1

/-- A token sent over the token network to the PE its tag names; one whose context has no block is discarded (R42). -/
def State.sendTok (src : Nat) (from_ : Ep) (t : Tok) (s : State) : State :=
  match s.peFor t.ctx.toNat t.act.toNat t.iter.toNat with
  | none => s
  | some p => s.send 0 (chanOf t.grp.toNat) src from_ (.pe p) (.tok t)

end Sys2Proof.Machine
end

