-- ==== Sys2Proof/Machine/Trace.lean ====
section
/-! DEFINITION. The scheduling trace (R135 to R140, R145): records, filters, collectors, the ring and its trigger. -/

namespace Sys2Proof.Machine
open Sys2Proof

/-! ### A PE's registers and counters (R110, R141) -/

/-- The first port of a physical PE's slot. -/
def peBase (pe : Nat) : Nat := 0xC000 + 0x100 * quadOf pe + 0x30 * (if pe < 64 then pe % 4 else 4)

/-- A stored register of a PE's slot. -/
def State.peReg (s : State) (pe off rst : Nat) : Nat := s.ioReg (peBase pe + off) rst

/-- A PE's counter risen by n; what an fc counts survives a reset in the same fc (R110, R141). -/
def State.cnt (pe off n : Nat) (s : State) : State :=
  (s.updPe pe fun p => { p with cnt := bump p.cnt off n }).note (.cnt .pe pe off) n

/-! ### The ring -/

def State.trRingCtl (s : State) : Nat := s.ioReg 0xF100 0x1000
def State.trRingOn (s : State) : Bool := bit s.trRingCtl 0
def State.trSize (s : State) : Nat := 2 ^ bits s.trRingCtl 12 8
def State.trTrigCfg (s : State) : Nat := s.ioReg 0xF104 0x100
def State.trPost (s : State) : Nat := s.ioReg 0xF105 0x400

/-- The ring's base: address bits below the ring size are taken as zero (Table 04-8). -/
def State.trBase (s : State) : Nat :=
  let a := s.ioReg 0xF101 0 + s.ioReg 0xF102 0 * 2 ^ 32
  a - a % (32 * s.trSize)

/-- A trace record's 32 bytes (Table 04-6). -/
def TraceRec.bytes (r : TraceRec) : List Byte :=
  leBytes 8 r.time ++ leBytes 1 r.ty ++ leBytes 1 r.flags ++ leBytes 1 r.origin ++ leBytes 1 r.ctl ++ leBytes 8 r.key
    ++ leBytes 8 r.data ++ leBytes 2 r.flow ++ leBytes 2 r.aux

/-- The ring stops (R139): the trace alert with it. -/
def State.traceHalt (s : State) : State :=
  if s.trace.stopped then s else (s.updTrace fun t => { t with stopped := true }).alert 14

/-- A record written to the ring (R139, R140): nothing while the ring is off, not armed or stopped. The ring's traffic is
charged when a group of eight records is complete (R353, Table 10-8). -/
def State.ringWrite (r : TraceRec) (s : State) : State :=
  let t := s.trace
  if !s.trRingOn || !t.armed || t.stopped then s
  else
    let n := t.wrIdx + 1
    let a := s.trBase + 32 * (t.wrIdx % s.trSize)
    let s0 := (s.ddrPut a r.bytes).invalidate a 32
    let s1 := when (t.wrIdx % 8 == 7) (State.charge 5 (a - 224) 256 true) s0
    let mine := t.triggered && r.ty == 0x10
    let post := if mine then s.trPost else if t.posting then t.post - 1 else t.post
    let full := s.trSize ≤ n
    let s2 := s1.updTrace fun t =>
      { t with wrIdx := n % 2 ^ 28, wrapped := t.wrapped || full && !bit s.trRingCtl 1, post := post,
               posting := t.posting || mine }
    when (((mine || t.posting) && post == 0) || (full && bit s.trRingCtl 1)) State.traceHalt s2

/-- A record enters a quad's collector, or is dropped and counted when 128 wait (R135). A TRIGGER record is never dropped:
R139 has it written (log entry 96, DESIGN CHOICE). -/
def State.collect (quad : Nat) (r : TraceRec) (s : State) : State :=
  let l := Tbl.get [] s.trace.coll quad
  if 128 ≤ l.length && r.ty != 0x10 then
    s.updTrace fun t => { t with lost := bump t.lost quad 1, lossCnt := sat32 t.lossCnt 1, loss := true }
  else s.updTrace fun t => { t with coll := t.coll.put quad (l ++ [r]) }

/-- A collector writes one record (R135): after drops, once room has returned, a LOSS record with their number; else its
oldest. A record that the ring does not take is gone. -/
def State.collWrite (quad : Nat) (s : State) : State :=
  let l := Tbl.get [] s.trace.coll quad
  let k := Tbl.get 0 s.trace.lost quad
  if k ≠ 0 && l.length < 128 then
    (s.updTrace fun t => { t with lost := t.lost.put quad 0 }).ringWrite
      { time := s.time, ty := 0x11, origin := 0x80 + quad, data := k, flags := b2n s.coarse }
  else
    match l with
    | [] => s
    | r :: rest => (s.updTrace fun t => { t with coll := t.coll.put quad rest }).ringWrite r

/-! ### Triggers (R134, R139, R145) -/

/-- The trace triggers (R139): the time is latched; the post count starts when the ring takes the TRIGGER record. -/
def State.triggerMark (origin : Nat) (s : State) : State :=
  (s.updTrace fun t => { t with triggered := true, trigTime := s.time, origin := origin, before := (t.origin, t.trigTime) }).alert 14

/-- Whether a trigger can occur now. -/
def State.canTrigger (s : State) : Bool := s.trRingOn && s.trace.armed && !s.trace.triggered && !s.trace.stopped

/-- The 32 bytes where the ring writes next. -/
def State.ringNextBytes (s : State) : List Byte := s.ddrBytes (s.trBase + 32 * (s.trace.wrIdx % s.trSize)) 32

/-- A trigger from a pin, the device stage or TR_CMD (R139): a TRIGGER record of origin 0xFF. -/
def State.trigger (src : Nat) (s : State) : State :=
  let c : TrigCond := { at_ := s.time, src := src, under := s.ringNextBytes }
  let s0 := when (src != 5) (State.updTrace fun t => { t with cond := some c }) s
  if !s.canTrigger then s0
  else (s0.triggerMark 0xFF).ringWrite { time := s.time, ty := 0x10, origin := 0xFF, data := src, flags := b2n s.coarse }

/-- A record as the TRIGGER record of source 1. -/
def TraceRec.asTrigger (r : TraceRec) : TraceRec := { r with ty := 0x10, data := 1, flow := 0, aux := 0 }

/-- The waiting TRIGGER record of a PE becomes its ordinary record again, or goes where sampling would not have sent it. -/
def State.ordinary (c : TrigCond) (s : State) : State :=
  let q := quadOf c.orig.origin
  let back (r : TraceRec) : Option TraceRec :=
    if r == c.orig.asTrigger then (if c.sampled then some c.orig else none) else some r
  s.updTrace fun t => { t with coll := t.coll.upd [] q (List.filterMap back) }

/-- A trigger of this fc is withdrawn, as a TR_CMD of the same fc takes effect first (R134): TR_STATUS and TR_TRIG_TIME hold
what they held, and the TRIGGER record is as if it had not been written. One of source 1 that its collector has written
already stays in the ring (log entry 97, DESIGN CHOICE). -/
def State.untrigger (s : State) : State :=
  match s.trace.cond with
  | none => s
  | some c =>
    if c.at_ ≠ s.time || !s.trace.triggered || s.trace.trigTime ≠ s.time then s
    else
      let s1 := s.updTrace fun t => { t with triggered := false, posting := false, origin := t.before.1, trigTime := t.before.2 }
      if c.src = 1 then s1.ordinary c
      else
        let w := s.trace.wrIdx - 1
        if s.trace.wrIdx = 0 then s1
        else (s1.updTrace fun t => { t with wrIdx := w }).ddrPut (s.trBase + 32 * (w % s.trSize)) c.under

/-- A trigger condition of this fc meets the ring that a TR_CMD has just armed (R134). -/
def State.condAgain (s : State) : State :=
  match s.trace.cond with
  | none => s
  | some c =>
    if c.at_ ≠ s.time || !s.canTrigger then s
    else if c.src = 1 then
      let made (l : List TraceRec) : List TraceRec :=
        if l.contains c.orig.asTrigger then l
        else if l.contains c.orig then l.map fun r => if r == c.orig then c.orig.asTrigger else r
        else l ++ [c.orig.asTrigger]
      (s.triggerMark c.orig.origin).updTrace fun t => { t with coll := t.coll.upd [] (quadOf c.orig.origin) made }
    else s.trigger c.src

/-! ### Records of a PE -/

/-- Whether a PE's filters pass a record (R138). -/
def State.trQualifies (s : State) (pe ty grp key : Nat) : Bool :=
  let cfg := s.peReg pe 0x20 0x01FFFF00
  let miss (v off : Nat) := (v ^^^ s.peReg pe off 0) &&& s.peReg pe (off + 3) 0
  bit cfg 0 && bit cfg (15 + ty) && bit cfg (8 + grp) &&
    (!bit cfg 5 || (miss (bits key 63 44) 0x21 == 0 && miss (bits key 43 30) 0x22 == 0 && miss (bits key 29 2) 0x23 == 0))

/-- A record of type 0x01 to 0x09 at a PE (R138, R139): filtered, sampled, and turned into the TRIGGER record when it
is the first that qualifies for source 1; of two PEs in one fc, the lower one's (R134). -/
def State.traceRec (pe : Nat) (poison : Bool) (r : TraceRec) (s : State) : State :=
  if !s.trQualifies pe r.ty (r.ctl % 8) r.key then s
  else
    let k := bits (s.peReg pe 0x20 0x01FFFF00) 4 1
    let n := (s.pe pe).sample
    let s1 := s.updPe pe fun p => { p with sample := n + 1 }
    let fl := b2n s.coarse + 2 * b2n poison + 4 * b2n (!(s.pe pe).ovf.isEmpty) + 8 * b2n (0 < k)
    let r1 := { r with time := s.time, origin := pe, flags := fl, aux := Nat.min r.aux 0xFFFF }
    let cfg := s.trTrigCfg
    let sent : Bool := n % 2 ^ k = 0
    let cond : Bool := bits cfg 2 0 = 1 && bits cfg 11 8 = r.ty && s.trRingOn
    let c : TrigCond := { at_ := s.time, src := 1, orig := r1, sampled := sent }
    let first (s : State) : State := (s.cnt pe 0x27 1).collect (quadOf pe) r1.asTrigger
    let plain (s : State) : State := if sent then (s.cnt pe 0x27 1).collect (quadOf pe) r1 else s
    if cond && s.canTrigger then first ((s1.triggerMark pe).updTrace fun t => { t with cond := some c })
    else
      match s.trace.cond with
      | some b =>
        if cond && b.at_ = s.time && b.src = 1 && pe < b.orig.origin then
          if s.trace.triggered && s.trace.trigTime = s.time
              && (Tbl.get [] s.trace.coll (quadOf b.orig.origin)).contains b.orig.asTrigger then
            first ((s1.ordinary b).updTrace fun t => { t with origin := pe, cond := some c })
          else plain (s1.updTrace fun t => { t with cond := some c })
        else if cond && b.at_ ≠ s.time && !s.trace.triggered then plain (s1.updTrace fun t => { t with cond := some c })
        else plain s1
      | none => plain (when cond (State.updTrace fun t => { t with cond := some c }) s1)

/-- A record about a token. -/
def State.traceTok (pe ty data aux pipe : Nat) (t : Tok) (s : State) : State :=
  let fk := match s.wordOf t.ctx.toNat t.act.toNat with | some w => wFk w | none => false
  s.traceRec pe t.poison
    { ty := ty, ctl := t.grp.toNat + 8 * pipe + 16 * b2n fk + 32 * t.kind.toNat, key := t.tag, data := data,
      flow := t.flow.toNat, aux := aux }

/-- A record about a firing. -/
def State.traceFir (pe ty data aux pipe : Nat) (f : Firing) (s : State) : State :=
  s.traceRec pe f.poisoned
    { ty := ty, ctl := f.grp + 8 * pipe + 16 * b2n (wFk f.word), key := tagOf f.ctx f.act f.iter, data := data,
      flow := f.flow, aux := aux }

/-! ### The ring's commands -/

/-- The trace's trigger from the device stage (R145, sources 3 and 4): asked whenever the stage, the selected source or the
ring's readiness may have changed. -/
def State.stageTrigger (s : State) : State :=
  let src := bits s.trTrigCfg 2 0
  if (src = 3 && 1 ≤ s.cab.devStage) || (src = 4 && 2 ≤ s.cab.devStage) then s.trigger src else s

/-- TR_CMD 1, arm (R140). A trigger condition of the same fc meets the armed ring (R134), and so does a device stage that
is there already. -/
def State.traceArm (s : State) : State :=
  if !s.trRingOn then s
  else
    let s1 := s.updTrace fun t =>
      { t with wrIdx := 0, armed := true, triggered := false, posting := false, stopped := false, wrapped := false,
               loss := false, origin := 0, lossCnt := 0 }
    ({ s1 with pes := s1.pes.map fun (p : Nat × Pe) => (p.1, { p.2 with sample := 0, cnt := p.2.cnt.put 0x27 0 }) }).condAgain.stageTrigger

/-- TR_CMD 2, trigger now (R139, R145): reported as source 5, ahead of a trigger condition of the same fc (R134). -/
def State.traceNow (s : State) : State := s.untrigger.trigger 5

/-- TR_CMD 3, stop, ahead of a trigger condition of the same fc (R134). -/
def State.traceStop (s : State) : State := s.untrigger.traceHalt

/-- TRACE_ARM (R140). -/
def execTraceArm (s : State) : Out := State.plain State.traceArm s

/-- TRACE_TRIGGER_NOW (R139, R145). -/
def execTraceTriggerNow (s : State) : Out := State.plain State.traceNow s

/-- TRACE_STOP (R139). -/
def execTraceStop (s : State) : Out := State.plain State.traceStop s

/-- TRACE_COLLECTOR_WRITE (R135). -/
def execTraceCollectorWrite (quad : Nat) (s : State) : Out := State.plain (State.collWrite quad) s

/-- TRIG_RISING_EDGE (R139, R145): the trigger when src is 2 and the pin is the selected one. -/
def execTrigRisingEdge (pin : Nat) (s : State) : Out :=
  State.plain (fun s =>
    if bits s.trTrigCfg 2 0 = 2 && bits s.trTrigCfg 5 3 = pin then s.trigger 2 else s) s

/-- Writing a SLEEP (0x20) or WAKE (0x21) record of a quad's collector, past filter and sampling (R137, R138). -/
def State.traceQuad (quad ty : Nat) (s : State) : State :=
  s.collect quad { time := s.time, ty := ty, origin := 0x80 + quad, flags := b2n s.coarse }

end Sys2Proof.Machine
end

