-- ==== Sys2Proof/Machine/Matching.lean ====
section
/-! DEFINITION. The matching store and the Cabinet (R72 to R113): input queue, match decisions, victims and spill,
presence summary, regions, sweep, occupancy stages. -/

namespace Sys2Proof.Machine
open Sys2Proof

/-! ### Losses, stale tokens and faults -/

/-- The job of a live job context is to be killed as lost, with the context at fault (R55, R56, R187, R218). -/
def State.loseCtx (ctx cause : Nat) (unver : Bool) (s : State) : State :=
  if ctx = 0 || !s.ctxLive ctx || (Tbl.find s.cm.jobs (s.ctx ctx).job).isNone then s
  else s.askKill { job := (s.ctx ctx).job, end_ := 3, cause := cause, fault := [ctx], unver := unver }

/-- A token that fails its CRC at a checking block (R55). -/
def State.crcFail (cls inst : Nat) (t : Tok) (s : State) : State :=
  (s.event cls inst 0x8110 t.tag).loseCtx t.ctx.toNat 0x10 true

/-- A token fault at a PE (R56). -/
def State.tokenFault (pe cause pipe : Nat) (t : Tok) (s : State) : State :=
  ((((s.cnt pe 0x0A 1).event cPe pe (0x8100 + cause) t.tag).traceTok pe 0x09 t.value.toNat cause pipe t).loseCtx
    t.ctx.toNat cause false)

/-- A stale token (R42): counted, and gone. -/
def State.staleDrop (pe pipe : Nat) (t : Tok) (s : State) : State :=
  (s.cnt pe 0x09 1).traceTok pe 0x09 t.value.toNat 0 pipe t

/-- Whether a context's tokens are stale at a PE (R42, R210): those of the system context never are. -/
def State.staleAt (s : State) (pe ctx : Nat) : Bool :=
  ctx != 0 && ((s.pe pe).dying.contains ctx || (s.ctxBlock ctx).isNone || (s.ctx ctx).state == 0 || (s.ctx ctx).state == 3)

/-! ### Cabinet geometry (R89, R93, R112) -/

def State.cabCfg (s : State) : Nat := s.ioReg 0xD800 21
def State.cabOn (s : State) : Bool := bit s.cabCfg 8
def State.cabLog (s : State) : Nat := bits s.cabCfg 4 0
def State.nCab (s : State) : Nat := 2 ^ s.cabLog
def State.nBuckets (s : State) : Nat := s.nCab / 8
def State.nOpen (s : State) : Nat := s.nCab - s.nCab / 32

def State.region (s : State) (k : Nat) : Region := Tbl.get {} s.cab.regions k
def State.updRegion (k : Nat) (f : Region → Region) (s : State) : State :=
  s.updCab fun c => { c with regions := c.regions.upd {} k f }

/-- The DDR5 address of a place of a logical PE's region (R89). -/
def State.cabAddr (s : State) (k i : Nat) : Nat :=
  s.ioReg 0xD801 0 + s.ioReg 0xD802 0 * 2 ^ 32 + k * 32 * s.nCab + 32 * i

/-- The places whose images differ between two contents of a region. -/
def Region.changed (r q : Region) : List Nat :=
  ((q.ents.filter fun e => Tbl.find r.ents e.1 != some e.2).map (·.1))
    ++ ((r.ents.filter fun e => (Tbl.find q.ents e.1).isNone).map (·.1))
    ++ ((q.through.filter fun b => !r.through.contains b) ++ r.through.filter fun b => !q.through.contains b).map (8 * ·)

/-- A region's new content, in the engine and in the bytes of DDR5 (R73, R89; log entry 34, DESIGN CHOICE). -/
def State.putRegion (k : Nat) (q : Region) (s : State) : State :=
  ((s.region k).changed q).foldl (fun s i => s.ddrWr 0 (s.cabAddr k i) (q.image i)) (s.updRegion k fun _ => q)

/-- Usable on-die entries of a PE (R75). -/
def Pe.usable (p : Pe) : Nat := 131072 - 8 * p.retired.length

/-- Entries in use in a logical PE's region, the ready overflow's two a firing among them (R94, R113). -/
def State.inUse (s : State) (k : Nat) : Nat := (s.region k).ents.length

/-- Fill of a region at or above a percentage of N_open (R93). -/
def State.fillAt (s : State) (k pct : Nat) : Bool := pct * s.nOpen ≤ 100 * s.inUse k

/-- On-die occupancy of a PE at or above a percentage (R97). -/
def Pe.occAt (p : Pe) (pct : Nat) : Bool := pct * p.usable ≤ 100 * p.ents.length

/-! ### Occupancy stages (R97 to R101) -/

/-- The next stage of a PE (Table 03-6): 0 Green, 1 Amber, 2 Red, 3 Exhausted. -/
def nextStage (stage : Nat) (full fill90 fill85 occ75 occ70 : Bool) : Nat :=
  if full then 3
  else if stage = 3 || stage = 2 then
    if fill85 then stage else if occ70 then 1 else 0
  else if fill90 then 2
  else if stage = 1 then (if occ70 then 1 else 0)
  else if occ75 then 1 else 0

/-- The stage of the PE that serves a logical PE, from its occupancy and fill. -/
def State.stageOf (s : State) (k : Nat) : Nat :=
  let p := s.pe (s.physOf k)
  nextStage p.stage (s.nOpen ≤ s.inUse k) (s.fillAt k 90) (s.fillAt k 85) (p.occAt 75) (p.occAt 70)

/-- The device stage: the highest of the present PEs (R97). -/
def State.stageMax (s : State) : Nat := s.pesIn.foldl (fun m p => max m (s.pe p).stage) 0

/-- The device enters Red (R99): the event record and the capacity alert. -/
def State.enterRed (k : Nat) (s : State) : State :=
  (s.event cCm k 0x8012 (s.inUse k + (100 * s.inUse k / max 1 s.nOpen) * 2 ^ 27)).alert 0

/-- The lowest logical PE at a stage. -/
def State.lowestAt (s : State) (st : Nat) : Nat :=
  ((List.range s.nPe).find? fun k => s.lpeOk k && (s.pe (s.physOf k)).stage == st).getD 0

/-- The device stage after the stage of logical PE k has changed (R97, R99). A fall from Exhausted to Red is an entry to Red
that names the lowest logical PE there; so is a rise past it (log entry 99, DEDUCED). -/
def State.restageDev (k : Nat) (s : State) : State :=
  let old := s.cab.devStage
  let d := if s.standby then old else s.stageMax
  let s3 := s.updCab fun c => { c with devStage := d, abortWait := c.abortWait && d == 3 }
  if old = d then s3
  else
    let s4 := if old < 2 && 2 ≤ d then s3.enterRed k else if old = 3 && d = 2 then s3.enterRed (s3.lowestAt 2) else s3
    let s5 := if d = 3 then s4.alert 15 else s4
    let s6 := (s5.jrnl 0x08 [0, 0, k, d] []).raise 17
    if old < d then s6.stageTrigger else s6

/-- A region leaves the Exhausted sweep: where it was the one under way, the next one begins at its bucket 0 (R95). -/
def Cabinet.leaveExh (c : Cabinet) (k : Nat) : Cabinet :=
  { c with exh := c.exh.filter (· != k), exhDone := c.exhDone.filter (· != k),
           exBucket := if c.exh.head? = some k then 0 else c.exBucket }

/-- The stages after a logical PE's occupancy or fill has changed. -/
def State.restage (k : Nat) (s : State) : State :=
  let old := (s.pe (s.physOf k)).stage
  let new := s.stageOf k
  if old = new then s
  else
    let s1 := s.updPe (s.physOf k) fun p => { p with stage := new }
    (if new = 3 then s1.updCab fun c => { c with exh := c.exh ++ [k], exhCnt := sat32 c.exhCnt 1 }
     else if old = 3 then s1.updCab fun c => c.leaveExh k else s1).restageDev k

/-- The stages after the PE that served a logical one is gone (R97, R527). -/
def State.stageGone (k : Nat) (s : State) : State := (s.updCab fun c => c.leaveExh k).restageDev k

/-- Restaging the logical PE that a physical one serves. -/
def State.restagePe (pe : Nat) (s : State) : State :=
  match s.logOf pe with
  | none => s
  | some k => s.restage k

/-! ### Presence summary (R86 to R88) and Cabinet counts (R96) -/

/-- A cell rises; 255 is kept (R87). -/
def Pe.cellUp (p : Pe) (c : Nat) : Pe := { p with summary := p.summary.upd 0 c fun v => min 255 (v + 1) }

/-- A cell falls; a saturated cell waits for the sweep's recount (R87). -/
def Pe.cellDown (p : Pe) (c : Nat) : Pe :=
  { p with summary := p.summary.upd 0 c fun v => if v = 255 then 255 else v - 1 }

/-- The count of a context's Cabinet entries rises or falls (R96). -/
def State.ctxCntUp (ctx : Nat) (s : State) : State :=
  s.updCab fun c => { c with ctxCnt := c.ctxCnt.upd 0 ctx (· + 1) }
def State.ctxCntDown (ctx : Nat) (s : State) : State :=
  s.updCab fun c => { c with ctxCnt := c.ctxCnt.upd 0 ctx (· - 1) }

/-! ### Regions (R90, R91) -/

/-- The entries of a bucket, with their places. -/
def Region.bucket (r : Region) (b : Nat) : List (Nat × Ent) := r.ents.filter fun e => e.1 / 8 = b

/-- The first free place of a bucket. -/
def Region.freeIn (r : Region) (b : Nat) : Option Nat :=
  ((List.range 8).map (8 * b + ·)).find? fun i => (Tbl.find r.ents i).isNone

/-- An insert probes upward from a bucket, setting the through flag of every full one it passes (R90). -/
def Region.insertFrom (nb : Nat) (e : Ent) : Nat → Nat → Nat → Region → Option Region
  | 0, _, _, _ => none
  | fuel + 1, n, b, r =>
    match r.freeIn b with
    | some i => some { r with ents := r.ents.put i e, probeMax := max r.probeMax (n + 1) }
    | none => Region.insertFrom nb e fuel (n + 1) ((b + 1) % nb)
        { r with through := if r.through.contains b then r.through else r.through ++ [b] }

/-- A lookup reads from a bucket upward to the first whose through flag is clear (R90): the places it finds, and the
number of buckets read. -/
def Region.lookupFrom (nb key : Nat) (r : Region) : Nat → Nat → Nat → List Nat → List Nat × Nat
  | 0, n, _, acc => (acc, n)
  | fuel + 1, n, b, acc =>
    let acc := acc ++ ((r.bucket b).filter fun e => e.2.tok.key == key).map (·.1)
    if r.through.contains b then Region.lookupFrom nb key r fuel (n + 1) ((b + 1) % nb) acc else (acc, n + 1)

/-- A spilled entry is written to a region; none when all N_cab entries are in use (R90, R102). -/
def State.cabInsert (k : Nat) (e : Ent) (s : State) : Option State :=
  if s.nCab ≤ s.inUse k then none
  else
    match (s.region k).insertFrom s.nBuckets e s.nBuckets 0 (homeBucket s.cabLog e.tok.key) with
    | none => none
    | some r => some (s.putRegion k r)

/-- The first of the two entries that the ready overflow's record n takes: the key (0, 0, n); what else they hold is not
stated, so it is a free value (R94; log entry 100, DESIGN CHOICE). -/
def ovfEnt (n v : Nat) : Ent :=
  { tok := { iter := BitVec.ofNat 28 n, value := BitVec.ofNat 64 v, crc := BitVec.ofNat 16 (v / 2 ^ 64) } }

/-- An entry of the ready overflow: R40 keeps its keys free of any token. -/
def Ent.isOvf (e : Ent) : Bool := e.tok.ctx == 0 && e.tok.act == 0

/-- One entry of the overflow's record n enters the region. -/
def State.ovfPut (k n : Nat) (s : State) : State :=
  let (v, s1) := s.fresh
  (s1.cabInsert k (ovfEnt n v)).getD s1

/-- The entries of the overflow's record n leave the region. -/
def State.ovfDel (k n : Nat) (s : State) : State :=
  let r := s.region k
  s.putRegion k { r with ents := r.ents.filter fun e => !(e.2.isOvf && e.2.tok.iter.toNat = n) }

/-! ### Drawers (R73 to R76) -/

/-- The entries of a set, by way number. -/
def Pe.ways (p : Pe) (set : Nat) : List (Nat × Ent) :=
  (List.range 8).filterMap fun w => match Tbl.find p.ents (8 * set + w) with | some e => some (w, e) | none => none

/-- An uncorrectable error of an entry (R76): counted and recorded. -/
def State.entBad (pe i : Nat) (s : State) : State := (s.cnt pe 0x0C 1).event cMs pe 0x800C i

/-- The check codes' report when one entry is read (R76). -/
def State.readWay (pe i : Nat) (s : State) : State :=
  let flag (s : State) : State := match s.logOf pe with | some k => s.flagUnit 0 (k * 16384 + i / 8) | none => s
  match Tbl.find (s.pe pe).ents i with
  | none => s
  | some e =>
    match e.err with
    | .none => s
    | .corrected => ((s.updPe pe fun p => { p with ents := p.ents.put i { e with err := .none } }).cnt pe 0x0B 1).ecc pe
    | .value => ((flag s).updPe pe fun p =>
        { p with ents := p.ents.put i { e with err := .none, tok := { e.tok with poison := true }.sealed } }).entBad pe i
    | .tag => (((flag s).updPe pe fun p => { p with ents := p.ents.del i }).entBad pe i).loseCtx e.tok.ctx.toNat 0x10 true

/-- A set is read: every entry's check codes are evaluated (R76). -/
def State.readSet (pe set : Nat) (s : State) : State :=
  (List.range 8).foldl (fun s w => s.readWay pe (8 * set + w)) s

/-- Every entry of a PE is read, as a sweep does. -/
def State.readAll (pe : Nat) (s : State) : State :=
  ((s.pe pe).ents.filter fun e => e.2.err != .none).foldl (fun s e => s.readWay pe e.1) s

/-- The entry leaves a region, with its part in the counts (R87, R96). -/
def State.cabDrop (k i : Nat) (e : Ent) (s : State) : State :=
  let r := s.region k
  let s1 := s.putRegion k { r with ents := r.ents.del i }
  if e.isOvf then s1 else (s1.updPe (s.physOf k) fun p => p.cellDown e.tok.cell).ctxCntDown e.tok.ctx.toNat

/-- The check codes' report when a Cabinet entry is read (R76): counted at the PE that the region serves. An entry in a line
that DDR5 marks poisoned has lost both its halves (R351; log entry 113, DEDUCED). -/
def State.readCab (k i : Nat) (s : State) : State :=
  let r := s.region k
  let pe := s.physOf k
  match Tbl.find r.ents i with
  | none => s
  | some e =>
    match (if s.poisonedAt (s.cabAddr k i) 32 then EntErr.tag else e.err) with
    | .none => s
    | .corrected => ((s.putRegion k { r with ents := r.ents.put i { e with err := .none } }).cnt pe 0x0B 1).ecc pe
    | .value =>
      (s.putRegion k { r with ents := r.ents.put i { e with err := .none, tok := { e.tok with poison := true }.sealed } }).entBad pe i
    | .tag => ((s.cabDrop k i e).entBad pe i).loseCtx e.tok.ctx.toNat 0x10 true

/-- The buckets of a region, n from one on, are read from DDR5 (R351, R353), and every entry in them is checked (R76). -/
def State.readBuckets (k b n : Nat) (s : State) : State :=
  let s1 := (List.range n).foldl (fun s i => s.ddrRd 0 (s.cabAddr k (8 * ((b + i) % s.nBuckets))) 256) s
  ((s1.region k).ents.filter fun e => (e.1 / 8 + s1.nBuckets - b) % s1.nBuckets < n).foldl (fun s e => s.readCab k e.1) s1

/-- An upset of a stored entry, which its next read reports (R76). -/
def State.upsetWay (pe : Nat) (u : Option (Nat × EntErr)) (s : State) : State :=
  match u with
  | none => s
  | some (i, x) => s.updPe pe fun p =>
      match Tbl.find p.ents i with | none => p | some e => { p with ents := p.ents.put i { e with err := x } }
def State.upsetCab (k : Nat) (u : Option (Nat × EntErr)) (s : State) : State :=
  match u with
  | none => s
  | some (i, x) => s.updRegion k fun r =>
      match Tbl.find r.ents i with | none => r | some e => { r with ents := r.ents.put i { e with err := x } }

/-- A partner of a token under decision: on die in a way, in the spill buffer, or returned by a lookup. -/
inductive Partner where
  | way (i : Nat) (e : Ent)
  | spill (id : Nat) (e : Ent)
  | ret (e : Ent)
  deriving DecidableEq, Repr

def Partner.ent : Partner → Ent
  | .way _ e => e
  | .spill _ e => e
  | .ret e => e

/-- What a key's lookup has returned and no firing has taken (R78). -/
def Pe.retOf (p : Pe) (key : Nat) : List Ent :=
  match p.park.find? fun k => k.tok.key == key with | some k => k.ret.getD [] | none => []

/-- The on-die partners of a token (R77), with those that a lookup has returned (R78). -/
def State.partners (s : State) (pe : Nat) (t : Tok) : List Partner :=
  let p := s.pe pe
  ((p.ways t.set).filter fun e => e.2.tok.key == t.key).map (fun e => .way (8 * t.set + e.1) e.2)
    ++ (p.spill.filter fun x => x.ent.tok.key == t.key).map (fun x => .spill x.id x.ent)
    ++ (p.retOf t.key).map .ret

/-- A partner leaves the place that holds it (R77, R79). -/
def State.take (pe : Nat) (q : Partner) (s : State) : State :=
  match q with
  | .way i _ => s.updPe pe fun p => { p with ents := p.ents.del i }
  | .spill id e =>
    (s.updPe pe fun p => { p.cellDown e.tok.cell with spill := p.spill.filter (·.id != id) }).ctxCntDown e.tok.ctx.toNat
  | .ret e => s.updPe pe fun p => { p with park := p.park.map fun k =>
      if k.tok.key == e.tok.key then { k with ret := k.ret.map fun l => l.erase e } else k }

/-! ### Victims and spill (R84, R85) -/

/-- The oldest of some ways by age, the lower-numbered on a tie. -/
def oldestWay (now : Nat) (l : List (Nat × Ent)) : Option (Nat × Ent) :=
  l.foldl (fun b x =>
    match b with
    | none => some x
    | some y => if (now + 65536 - y.2.age) % 65536 < (now + 65536 - x.2.age) % 65536 then some x else some y) none

/-- The victim of a full set (R84). -/
def victim (now : Nat) (l : List (Nat × Ent)) : Option (Nat × Ent) :=
  let free := l.filter fun x => !x.2.pin
  match oldestWay now (free.filter fun x => x.2.tok.grp != 0) with
  | some x => some x
  | none => oldestWay now free

/-- An entry enters the spill buffer, its cell risen at once; none while the buffer is full (R85). -/
def State.spillEnt (pe pipe : Nat) (e : Ent) (s : State) : Option State :=
  let p := s.pe pe
  if 32 ≤ p.spill.length then none
  else
    let s1 := s.updPe pe fun p =>
      { p.cellUp e.tok.cell with spill := p.spill ++ [{ id := p.spillId, ent := { e with pin := false, age := 0 } }],
                                 spillId := p.spillId + 1 }
    some ((((s1.cnt pe 0x03 1).ctxCntUp e.tok.ctx.toNat).tot 0).traceTok pe 0x05 e.tok.value.toNat (p.spill.length + 1) pipe e.tok)

/-- The insert procedure (R77); none while a spill it needs must wait. -/
def State.insertTok (pe pipe : Nat) (t : Tok) (s : State) : Option State :=
  let p := s.pe pe
  let set := t.set
  let e : Ent := { tok := t, age := bits s.time 21 6 }
  if p.retired.contains set then s.spillEnt pe pipe e
  else
    match (List.range 8).find? fun w => (Tbl.find p.ents (8 * set + w)).isNone with
    | some w => some (s.updPe pe fun p => { p with ents := p.ents.put (8 * set + w) e })
    | none =>
      match victim (bits s.time 21 6) (p.ways set) with
      | none => s.spillEnt pe pipe e
      | some (w, v) =>
        match s.spillEnt pe pipe v with
        | none => none
        | some s1 => some (s1.updPe pe fun p => { p with ents := p.ents.put (8 * set + w) e })

/-! ### Enabling a firing (R44, R94, R123, R126, R130) -/

/-- Ready-list occupancy: group queues and flow-keep unit (R123). -/
def Pe.rlOcc (p : Pe) : Nat := p.ready.length + p.fk.length

/-- House-default weights of G1 to G7 (Table 04-3). -/
def houseWeight (g : Nat) : Nat := [1, 64, 48, 16, 16, 8, 8, 1].getD g 1

/-- The weight of a firing (R126). A context that the system context starts belongs to no job and is not context 0: it takes
the house defaults (log entry 101, DESIGN CHOICE). -/
def State.weightOf (s : State) (pe ctx g : Nat) : Nat :=
  if g = 0 then 1
  else if ctx = 0 then
    if g ≤ 4 then bits (s.peReg pe 0x0E 0x10103040) (8 * g - 1) (8 * g - 8)
    else bits (s.peReg pe 0x0F 0x00010808) (8 * g - 33) (8 * g - 40)
  else
    let w := (s.job (s.ctx ctx).job).weights.getD (g - 1) 0
    if w = 0 then houseWeight g else w

/-- The operand token of a port among tokens. -/
def portTok (l : List Tok) (p : Nat) : Option Tok := l.find? fun t => t.port.toNat == p

/-- The firing that an enabling token and its partners make (R44, R123). -/
def State.mkFiring (s : State) (pe arr : Nat) (t : Tok) (parts : List Tok) : Firing :=
  let ctx := t.ctx.toNat
  let b := (s.ctxBlock ctx).getD {}
  let w := b.words.getD t.act.toNat 0
  let l := t :: parts
  { word := w, block := (s.ctx ctx).block, ctx := ctx, act := t.act.toNat, iter := t.iter.toNat,
    a := portTok l 0, b := portTok l 1, c := portTok l 2, imm := immOf b w, grp := t.grp.toNat, job := (s.ctx ctx).job,
    weight := s.weightOf pe ctx t.grp.toNat, arr := arr, flow := t.flow.toNat, at_ := s.time }

/-- Arrival numbers are compared modulo 2^24 (R117). -/
def arrLt (a b : Nat) : Bool := let d := (b + 2 ^ 24 - a) % 2 ^ 24; 0 < d && d < 2 ^ 23

/-- The tokens of a parked key that are not decided yet, with their arrival numbers. -/
def Park.open_ (k : Park) : List (Nat × Tok) := if k.tokDone then k.chain else (k.arr, k.tok) :: k.chain

/-- Tokens not yet decided at a PE, with their arrival numbers (R130). -/
def Pe.undecided (p : Pe) : List (Nat × Tok) :=
  p.qU ++ p.qG ++ p.half.map (fun h => (h.2.1, h.2.2.2)) ++ p.park.flatMap Park.open_

/-- Whether a token is addressed to an FK actor. -/
def State.toFk (s : State) (t : Tok) : Bool :=
  match s.wordOf t.ctx.toNat t.act.toNat with | some w => wFk w | none => false

/-- Whether a firing of an FK actor of this flow is in service (R130 item 1). -/
def Pe.flowBusy (p : Pe) (flow : Nat) : Bool :=
  (p.ready ++ p.fire.map (·.2) ++ (p.svc.filter (!·.dead)).map (·.f)).any fun g => wFk g.word && g.flow == flow

/-- The release conditions of R130. -/
def State.fkFree (s : State) (pe : Nat) (f : Firing) : Bool :=
  let p := s.pe pe
  !p.flowBusy f.flow &&
    (p.fk ++ p.ovf.map (·.2)).all (fun g => !(wFk g.word && g.flow == f.flow && arrLt g.arr f.arr)) &&
    p.undecided.all fun x => !(x.2.flow.toNat == f.flow && s.toFk x.2 && arrLt x.1 f.arr)

/-- A firing in its group's queue, by the time at which it was enabled (R123). -/
def queueIn (f : Firing) : List Firing → List Firing
  | [] => [f]
  | g :: r => if g.grp = f.grp && f.at_ < g.at_ then f :: g :: r else g :: queueIn f r

/-- A firing enters its group queue or the flow-keep unit. A firing that comes from the ready overflow and cannot be released
is FK_HOLD then, not at its enable (log entry 102, DESIGN CHOICE). -/
def State.enterReady (pe : Nat) (f : Firing) (s : State) : State :=
  if !wFk f.word then s.updPe pe fun p => { p with ready := queueIn f p.ready }
  else
    let s1 := s.updPe pe fun p => { p with fk := p.fk ++ [f] }
    if s.fkFree pe f then s1
    else (s1.cnt pe 0x1A 1).traceFir pe 0x07 (wOpc f.word)
      ((s1.pe pe).fk.filter fun g => g.flow == f.flow).length 0 f

/-- Whether the ready list or the ready overflow can take a firing now (R94, R102). -/
def State.canEnable (s : State) (pe : Nat) : Bool :=
  let p := s.pe pe
  (p.ovf.isEmpty && p.rlOcc < 2048) ||
    (match s.logOf pe with | some k => s.inUse k + 2 ≤ s.nCab | none => false)

/-- A firing is enabled: ready list, flow-keep unit or ready overflow, where it takes two entries of the PE's region (R94). -/
def State.enable (pe pipe at_ : Nat) (f : Firing) (s : State) : State :=
  let p := s.pe pe
  let full := !(p.ovf.isEmpty && p.rlOcc < 2048)
  let tr (s : State) : State := s.traceFir pe 0x02
    (wOpc f.word + p.rlOcc * 2 ^ 8 + b2n full * 2 ^ 20 + b2n (!full && wFk f.word) * 2 ^ 21 + f.job % 4096 * 2 ^ 32)
    (s.time - at_ + 5) pipe f
  if full then
    let s1 := (s.updPe pe fun p => { p with ovf := p.ovf ++ [(p.ovfSeq, f)], ovfSeq := (p.ovfSeq + 1) % 2 ^ 28 }).cnt pe 0x19 1
    tr (match s1.logOf pe with | some k => (s1.ovfPut k p.ovfSeq).ovfPut k p.ovfSeq | none => s1)
  else tr (s.enterReady pe f)

/-! ### Match decisions (R77 to R83) -/

/-- What a token meets before any decision (R38 to R40, R42, R56). While the system context has no block there is no actor
count, so its ACT 0 is cause 0x05 and any other ACT is 0x04. -/
inductive Pre where
  | trap
  | stale
  | fault (cause : Nat)
  | fires
  | decide
  deriving DecidableEq, Repr

def State.preMatch (s : State) (pe : Nat) (t : Tok) : Pre :=
  if t.kind == 3 then .trap
  else if s.staleAt pe t.ctx.toNat then .stale
  else if t.port == 3 then .fault 1
  else match s.wordOf t.ctx.toNat t.act.toNat with
  | none => if t.ctx == 0 && t.act == 0 && (s.ctxBlock 0).isNone then .fault 5 else .fault 4
  | some w =>
    if !(waitSet w).contains t.port.toNat then .fault 2
    else if t.ctx == 0 && t.act == 0 then .fault 5
    else if (waitSet w).length = 1 then .fires else .decide

/-- Ports of partners. -/
def partPorts (l : List Partner) : List Nat := l.map fun q => q.ent.tok.port.toNat

/-- Whether some ports fill a token's waiting set. -/
def State.fills (s : State) (t : Tok) (ports : List Nat) : Bool :=
  match s.wordOf t.ctx.toNat t.act.toNat with
  | none => false
  | some w => (waitSet w).all fun p => ports.contains p

/-- Partners whose CRC fails as they leave (R54) are discarded under R55. -/
def State.dropBad (pe pipe : Nat) (l : List Partner) (s : State) : State :=
  l.foldl (fun s q => if q.ent.tok.crcOk then s
    else ((s.take pe q).traceTok pe 0x09 q.ent.tok.value.toNat 0x10 pipe q.ent.tok).crcFail cMs pe q.ent.tok) s

/-- The parked token of a key. -/
def Pe.parked (p : Pe) (key : Nat) : Bool := p.park.any fun k => k.tok.key == key

/-- Chain a token behind the parked one of its key. -/
def Pe.chain (p : Pe) (arr : Nat) (t : Tok) : Pe :=
  { p with park := p.park.map fun k => if k.tok.key == t.key then { k with chain := k.chain ++ [(arr, t)] } else k }

/-- Set or clear the pins of a key's entries (R77, R78). -/
def Pe.pinKey (p : Pe) (set key : Nat) (v : Bool) : Pe :=
  { p with ents := p.ents.map fun x =>
      if x.1 / 8 = set && x.2.tok.key == key then (x.1, { x.2 with pin := v }) else x }

/-- A decision (R77): none while it must hold its pipe (R81, R85, R102). `look` is false in the decisions that follow a
Cabinet return (R78). The pending-lookup table's 64 slots hold parked tokens; a chained token takes none, and a chain has no
bound (log entry 103, DESIGN CHOICE). -/
def State.decide (pe pipe arr at_ : Nat) (t : Tok) (look : Bool) (s : State) : Option State :=
  let p := s.pe pe
  if look && p.parked t.key then some (s.updPe pe fun p => p.chain arr t)
  else
    let s0 := s.readSet pe t.set
    let parts := s0.partners pe t
    let ports := partPorts parts
    if ports.contains t.port.toNat then some (s0.tokenFault pe 3 pipe t)
    else if s0.fills t (t.port.toNat :: ports) && parts.all (fun q => q.ent.tok.crcOk) then
      if !s0.canEnable pe then none
      else
        let s1 := parts.foldl (fun s q => s.take pe q) s0
        some (s1.enable pe pipe at_ (s1.mkFiring pe arr t (parts.map fun q => q.ent.tok)))
    else
      let s1 := if s0.fills t (t.port.toNat :: ports) then s0.dropBad pe pipe parts else s0
      if look && Tbl.get 0 (s1.pe pe).summary t.cell != 0 then
        if 64 ≤ p.park.length then none
        else some (s1.updPe pe fun p =>
          { p.pinKey t.set t.key true with
              park := p.park ++ [{ tok := t, arr := arr, at_ := s.time, pipe := pipe }] })
      else s1.insertTok pe pipe t

/-! ### The decisions that follow a Cabinet return (R78) -/

/-- The first undecided token of a returned key is decided. -/
def Pe.decided (p : Pe) (key : Nat) : Pe :=
  { p with park := p.park.map fun k =>
      if k.tok.key == key then (if k.tokDone then { k with chain := k.chain.tail } else { k with tokDone := true }) else k }

/-- A returned partner that joined no firing is inserted on die; where the spill buffer is full it waits. -/
def State.keepRet (pe pipe key : Nat) : List Ent → State → State
  | [], s => s.updPe pe fun p => { p with park := p.park.filter fun k => k.tok.key != key }
  | e :: r, s =>
    match s.insertTok pe pipe e.tok with
    | none => s.updPe pe fun p => { p with park := p.park.map fun k => if k.tok.key == key then { k with ret := some (e :: r) } else k }
    | some s1 => State.keepRet pe pipe key r s1

/-- The end of a return: the pins are released, the partners that are left are inserted, or discarded with their context
(Table 03-7), and the key leaves the pending-lookup table. -/
def State.endRet (pe : Nat) (k : Park) (s : State) : State :=
  let s1 := s.updPe pe fun p => p.pinKey k.tok.set k.tok.key false
  s1.keepRet pe k.pipe k.tok.key (if s.staleAt pe k.tok.ctx.toNat then [] else (s.pe pe).retOf k.tok.key)

/-- One decision of a returned key, in chain order; it stays when it must hold its pipe. -/
def State.retOne (pe : Nat) (k : Park) (s : State) : State :=
  let last (s : State) : State :=
    match (s.pe pe).park.find? fun q => q.tok.key == k.tok.key with
    | none => s
    | some q => if q.open_.isEmpty then s.endRet pe q else s
  match k.open_ with
  | [] => s.endRet pe k
  | (arr, t) :: _ =>
    if s.staleAt pe t.ctx.toNat then last ((s.staleDrop pe k.pipe t).updPe pe fun p => p.decided k.tok.key)
    else
      match s.decide pe k.pipe arr k.at_ t false with
      | none => s
      | some s1 => last (s1.updPe pe fun p => p.decided k.tok.key)

/-! ### One fc of the match halves (R78, R82, R83, R119) -/

/-- One token taken by a match half: none while it must hold its pipe. -/
def State.matchOne (pe pipe arr at_ : Nat) (t : Tok) (s : State) : Option State :=
  match s.preMatch pe t with
  | .trap => some (s.updPe pe fun p => { p with trapIn := p.trapIn ++ [t] })
  | .stale => some (s.staleDrop pe pipe t)
  | .fault c => some (s.tokenFault pe c pipe t)
  | .fires => if s.canEnable pe then some (s.enable pe pipe at_ (s.mkFiring pe arr t [])) else none
  | .decide => s.decide pe pipe arr at_ t true

/-- A token that stays in its match half. -/
def State.hold (pe pipe arr at_ : Nat) (t : Tok) (s : State) : State :=
  s.updPe pe fun p => { p with half := p.half.put pipe (arr, at_, t) }

/-- One match half's decision, the token staying in its half when it must. -/
def State.matchHalf (pe pipe : Nat) (x : Nat × Nat × Tok) (s : State) : State :=
  let s1 := s.updPe pe fun p => { p with half := p.half.del pipe }
  match s1.matchOne pe pipe x.1 x.2.1 x.2.2 with
  | some s2 => s2
  | none => s1.hold pe pipe x.1 x.2.1 x.2.2

/-- The match halves take tokens (R119): those they hold first, then the oldest urgent, then the oldest general. -/
def Pe.takeTok (p : Pe) (pipe now : Nat) : Option (Nat × Nat × Tok) × Pe :=
  match Tbl.find p.half pipe with
  | some x => (some x, p)
  | none =>
    match p.qU, p.qG with
    | (a, t) :: r, _ => (some (a, now, t), { p with qU := r })
    | [], (a, t) :: r => (some (a, now, t), { p with qG := r })
    | [], [] => (none, p)

/-- Two decisions of one fc on the same key (Table 03-3); counted when one of them is presented first (`fresh`). -/
def State.collide (pe : Nat) (fresh : Bool) (x y : Nat × Nat × Tok) (s : State) : State :=
  let s0 := (when fresh (State.cnt pe 0x07 1) s).readSet pe x.2.2.set
  let stored := s0.partners pe x.2.2
  let sp := partPorts stored
  let px := x.2.2.port.toNat
  let py := y.2.2.port.toNat
  let stay (s : State) : State := s.hold pe 1 y.1 y.2.1 y.2.2
  if py = px || sp.contains py then
    let s1 := s0.updPe pe fun p => { p with half := p.half.del 1 }
    (s1.matchHalf pe 0 x).tokenFault pe 3 1 y.2.2
  else if sp.contains px then
    stay ((s0.updPe pe fun p => { p with half := p.half.del 0 }).tokenFault pe 3 0 x.2.2)
  else if s0.fills x.2.2 (px :: py :: sp) && stored.all (fun q => q.ent.tok.crcOk) then
    if !s0.canEnable pe then stay (s0.hold pe 0 x.1 x.2.1 x.2.2)
    else
      let s1 := stored.foldl (fun s q => s.take pe q) (s0.updPe pe fun p => { p with half := (p.half.del 0).del 1 })
      (s1.cnt pe 0x08 1).enable pe 1 y.2.1 (s1.mkFiring pe y.1 y.2.2 (x.2.2 :: stored.map fun q => q.ent.tok))
  else if (s0.pe pe).parked x.2.2.key then (s0.matchHalf pe 0 x).matchHalf pe 1 y
  else if Tbl.get 0 (s0.pe pe).summary x.2.2.cell != 0 then
    let s1 := s0.matchHalf pe 0 x
    if (Tbl.find (s1.pe pe).half 0).isSome then stay s1 else s1.matchHalf pe 1 y
  else stay (s0.matchHalf pe 0 x)

/-- What a pipe presents in an fc: the next decision of a returned key, or a token, which it may have held before. -/
inductive Item where
  | ret (k : Park)
  | tok (held : Bool) (x : Nat × Nat × Tok)
  deriving DecidableEq, Repr

/-- What a pipe presents: the decisions that follow a return come ahead of any token (R78, R119). -/
def State.item (pe pipe : Nat) (s : State) : Option Item × State :=
  match (s.pe pe).park.find? fun k => k.ret.isSome && k.pipe = pipe with
  | some k => (some (.ret k), s)
  | none =>
    let held := (Tbl.find (s.pe pe).half pipe).isSome
    let (x, p) := (s.pe pe).takeTok pipe s.time
    (x.map (.tok held), s.updPe pe fun _ => p)

/-- An item is dealt with in its pipe. -/
def State.runItem (pe pipe : Nat) (i : Item) (s : State) : State :=
  match i with
  | .ret k => s.retOne pe k
  | .tok _ x => s.matchHalf pe pipe x

/-- The token that an item would have decided, if it asks for a match decision. -/
def State.itemTok (s : State) (pe : Nat) : Item → Option Tok
  | .ret k => some k.tok
  | .tok _ x => if s.preMatch pe x.2.2 = .decide then some x.2.2 else none

/-- An item stalls for one fc. -/
def State.stall (pe pipe : Nat) (i : Item) (s : State) : State :=
  match i with
  | .ret _ => s
  | .tok _ x => s.hold pe pipe x.1 x.2.1 x.2.2

/-- Pipe 0's item has held its pipe again (R81, R85): it is the same as before, and pipe 1 continues. -/
def Item.holds (i : Item) (pe : Nat) (s t : State) : Bool :=
  match i with
  | .ret _ => (t.pe pe).park == (s.pe pe).park
  | .tok held x => held && Tbl.find (t.pe pe).half 0 == some x

/-- One fc of a PE's match halves (R78, R81 to R83, R119). -/
def State.matchFc (pe : Nat) (s0 : State) : State :=
  let (x, s1) := s0.item pe 0
  let (y, s) := s1.item pe 1
  match x, y with
  | none, none => s
  | some x, none => s.runItem pe 0 x
  | none, some y => s.runItem pe 1 y
  | some x, some y =>
    match s.itemTok pe x, s.itemTok pe y with
    | some a, some b =>
      if a.key = b.key then
        match x, y with
        | .tok hx u, .tok hy v => s.collide pe (!(hx && hy)) u v
        | _, _ =>
          let s2 := s.runItem pe 0 x
          if (s2.pe pe).parked a.key then s2.runItem pe 1 y else s2.stall pe 1 y
      else if a.set / 2048 = b.set / 2048 then
        let s2 := s.runItem pe 0 x
        if x.holds pe s s2 then s2.runItem pe 1 y else (s2.stall pe 1 y).cnt pe 0x06 1
      else (s.runItem pe 0 x).runItem pe 1 y
    | _, _ => (s.runItem pe 0 x).runItem pe 1 y

/-- The credit that a PE withheld is returned once its sub-queues have room again (BP_CNT). -/
def State.bpEnd (pe : Nat) (s : State) : State :=
  let p := s.pe pe
  match p.bp with
  | none => s
  | some t =>
    if p.inU.length + p.qU.length < 64 && p.inG.length + p.qG.length < 448 then
      (s.updPe pe fun p => { p with bp := none }).cnt pe 0x1C (max 1 (s.time - t))
    else s

/-- A router token finds no room: its credit is withheld from now on (R117). -/
def State.bpStart (pe : Nat) (s : State) : State := s.updPe pe fun p => { p with bp := some (p.bp.getD s.time) }

/-- MATCH_DECISION (R77, R119): one fc of the match halves of a PE whose quad is awake. -/
def execMatchDecision (pe : Nat) (upset : Option (Nat × EntErr)) (s : State) : Out :=
  State.plain (fun s => if s.domOn (quadDom pe) then (((s.upsetWay pe upset).matchFc pe).bpEnd pe).restagePe pe else s) s

/-! ### The input queue (R116 to R118) -/

/-- The first token that the input queue can accept (R117): local tokens of pipe 0, of pipe 1, then the router's urgent
and general tokens. Of one fire half's waiting tokens the urgent ones go first (log entry 104, DESIGN CHOICE). -/
def Pe.nextIn (p : Pe) : Option (Tok × Pe) :=
  let roomU := decide (p.qU.length < 64)
  let roomG := decide (p.qG.length < 448)
  let loc (i : Nat) : Option (Tok × Pe) :=
    match Tbl.get [] p.outL i with
    | [] => none
    | t :: r => if (if t.grp == 0 then roomU else roomG) then some (t, { p with outL := p.outL.put i r }) else none
  match loc 0, loc 1, loc 2, loc 3, p.inU, p.inG with
  | some x, _, _, _, _, _ => some x
  | none, some x, _, _, _, _ => some x
  | none, none, some x, _, _, _ => some x
  | none, none, none, some x, _, _ => some x
  | none, none, none, none, t :: r, [] => if roomU then some (t, { p with inU := r }) else none
  | none, none, none, none, [], t :: r => if roomG then some (t, { p with inG := r }) else none
  | none, none, none, none, t :: r, u :: q =>
    if roomU then some (t, { p with inU := r }) else if roomG then some (u, { p with inG := q }) else none
  | none, none, none, none, [], [] => none

/-- TOKEN_ENQUEUE (R117, R118): one token enters the input queue, or fails its check. A router token that finds no room
withholds the credit, counted in BP_CNT. -/
def execTokenEnqueue (pe : Nat) (s : State) : Out :=
  State.inDom (quadDom pe) (fun s =>
    match (s.pe pe).nextIn with
    | none => if (s.pe pe).inU.isEmpty && (s.pe pe).inG.isEmpty then s else s.bpStart pe
    | some (t, p1) =>
      let s1 := s.updPe pe fun _ => p1
      if !t.crcOk then (s1.traceTok pe 0x09 t.value.toNat 0x10 0 t).crcFail cPe pe t
      else
        let s2 := s1.updPe pe fun p =>
          if t.grp == 0 then { p with qU := p.qU ++ [(p.arr, t)], arr := (p.arr + 1) % 2 ^ 24 }
          else { p with qG := p.qG ++ [(p.arr, t)], arr := (p.arr + 1) % 2 ^ 24 }
        s2.traceTok pe 0x01 t.value.toNat
          (if t.grp == 0 then (s2.pe pe).qU.length else (s2.pe pe).qG.length) 0 t) s

/-! ### Cabinet lookups and spills (R78, R85) -/

/-- A lookup's removal of every Cabinet entry of a key (R78): the entries and the buckets read. -/
def State.cabRemove (k key : Nat) (s0 : State) : List Ent × Nat × State :=
  let home := homeBucket s0.cabLog key
  let look (s : State) : List Nat × Nat := (s.region k).lookupFrom s.nBuckets key s.nBuckets 0 home []
  let s := s0.readBuckets k home (look s0).2
  let (places, n) := look s
  let es := places.filterMap fun i => (Tbl.find (s.region k).ents i).map fun e => (i, e)
  let s1 := es.foldl (fun s x => s.cabDrop k x.1 x.2) s
  (es.map (·.2), n, s1.updRegion k fun r => { r with probeMax := max r.probeMax n })

/-- CABINET_LOOKUP_RETURN (R78): the oldest outstanding lookup returns; the key's tokens are decided in the fcs that
follow, in the match half that parked it. -/
def execCabinetLookupReturn (pe : Nat) (upset : Option (Nat × EntErr)) (s : State) : Out :=
  State.inDom (quadDom pe) (fun s =>
    match (s.pe pe).park.find? fun k => k.ret.isNone, s.logOf pe with
    | some k, some l =>
      if !s.domOn 49 then s.wakeDom 49 else
      let (es, n, s1) := (s.upsetCab l upset).cabRemove l k.tok.key
      let s2 := (s1.cnt pe (if es.isEmpty then 0x05 else 0x04) 1).traceTok pe 0x06
        (min 255 es.length + min 255 n * 2 ^ 8) (s.time - k.at_) k.pipe k.tok
      (s2.updPe pe fun p => { p with park := p.park.map fun q => if q.tok.key == k.tok.key then { q with ret := some es } else q }).restage l
    | _, _ => s) s

/-- SPILL_ACK (R85): the Cabinet engine writes the oldest spilled entry and frees its slot; with the region wholly in
use it waits (R102). -/
def execSpillAck (pe : Nat) (s : State) : Out :=
  State.inDom (quadDom pe) (fun s =>
    match (s.pe pe).spill, s.logOf pe with
    | x :: r, some k =>
      if !s.domOn 49 then s.wakeDom 49 else
      match s.cabInsert k x.ent with
      | none => s
      | some s1 => (s1.updPe pe fun p => { p with spill := r }).restage k
    | _, _ => s) s

/-! ### The sweep (R95) -/

/-- Entries of a bucket whose context is no longer live are removed. -/
def State.sweepDead (k b : Nat) (s : State) : State :=
  let dead := ((s.region k).bucket b).filter fun e => !s.ctxLive e.2.tok.ctx.toNat
  dead.foldl (fun s e => s.cabDrop k e.1 e.2) s

/-- Whether an entry beyond a bucket needs its through flag to be found (R91). -/
def State.throughNeeded (s : State) (k b : Nat) : Bool :=
  let nb := s.nBuckets
  (s.region k).ents.any fun e =>
    let home := homeBucket s.cabLog e.2.tok.key
    let at_ := e.1 / 8
    at_ != b && (b + nb - home) % nb < (at_ + nb - home) % nb

/-- Every saturated cell of the region's PE is recounted to the entries that the region and the spill buffer hold for it
(R87, R95), whether or not any of them is left. -/
def State.recount (k : Nat) (s : State) : State :=
  let pe := s.physOf k
  ((s.pe pe).summary.filter fun c => c.2 = 255).foldl (fun s c =>
    let n := ((s.region k).ents.filter fun e => !e.2.isOvf && e.2.tok.cell == c.1).length
      + ((s.pe pe).spill.filter fun x => x.ent.tok.cell == c.1).length
    s.updPe pe fun p => { p with summary := p.summary.put c.1 (min 255 n) }) s

/-- One bucket's visit. probe_max restarts where a pass, by either cursor, begins (log entry 105, DESIGN CHOICE). -/
def State.sweepBucket (k b : Nat) (s : State) : State :=
  let s1 := ((s.readBuckets k b 1).sweepDead k b).updRegion k fun r =>
    { r with probeMax := if b = 0 then 0 else r.probeMax }
  let r := s1.region k
  let s2 := if s1.throughNeeded k b then s1 else s1.putRegion k { r with through := r.through.filter (· != b) }
  (s2.recount k).restage k

/-- CABINET_SWEEP_BUCKET (R95): the second cursor visits the first Exhausted region, else the background cursor visits
the next bucket. An Exhausted region swept whole is swept again in its turn while it stays so (log entry 106, DESIGN CHOICE). -/
def execCabinetSweepBucket (s : State) : Out :=
  State.plain (fun s =>
    if !s.cabOn || !s.domOn 49 then s
    else
      match s.cab.exh with
      | k :: r =>
        let b := s.cab.exBucket
        let s1 := s.sweepBucket k b
        if !s1.cab.exh.contains k then s1
        else if b + 1 < s.nBuckets then s1.updCab fun c => { c with exBucket := b + 1 }
        else s1.updCab fun c =>
          { c with exBucket := 0, exhDone := if c.exhDone.contains k then c.exhDone else c.exhDone ++ [k],
                   exh := if c.exh.contains k then r ++ [k] else c.exh }
      | [] =>
        let k := s.cab.bgRegion
        let b := s.cab.bgBucket
        let s1 := s.sweepBucket k b
        if b + 1 < s.nBuckets then s1.updCab fun c => { c with bgBucket := b + 1 }
        else s1.updCab fun c => { c with bgBucket := 0, bgRegion := (k + 1) % s.nPe }) s

/-! ### Capacity abort (R101) -/

/-- The job most recently admitted. -/
def State.youngest (s : State) : Option Nat :=
  (s.cm.jobs.foldl (fun b p =>
    if p.2.ended then b else
    match b with
    | none => some p
    | some q => if q.2.order < p.2.order then some p else some q) none).map (·.1)

/-- CAPACITY_ABORT (R101): with the device Exhausted and no earlier capacity abort still awaited, the youngest live job
is killed as lost; the kill's start begins the Exhausted sweeps again. -/
def execCapacityAbort (s : State) : Out :=
  State.plain (fun s =>
    let waits := s.cab.abortWait &&
      (!(s.cm.killQ.isEmpty && s.cm.kills.isEmpty) || !s.cab.exh.all fun k => s.cab.exhDone.contains k)
    if s.cab.devStage != 3 || waits || s.standby || !s.jrnlRoom then s
    else
      match s.youngest with
      | none => s
      | some j =>
        ((((s.askKill { job := j, end_ := 3, cause := 0x40 }).event cCm 0 CONTEXT_LOST j).tot 10).jrnl 0x08 [1, j, 0, 0] []).updCab fun c =>
          { c with abortWait := true, exhDone := [] }) s

/-! ### Counters (R110) -/

/-- MS_CNT_CLR (R110): ports +0x03 to +0x0B of the PE; MS_ECC is held as two counters, 0x0B and 0x0C. What this fc has
counted is counted after the reset. -/
def execMsCntClr (pe : Nat) (s : State) : Out :=
  State.plain (State.regDom (quadDom pe) (.msCntClr pe) fun s =>
    s.updPe pe fun p => { p with cnt := s.recountAfter .pe pe 0x03 0x0C p.cnt }) s

end Sys2Proof.Machine
end

