-- ==== Sys2Proof/Machine/Outlets.lean ====
section
/-! DEFINITION. The outlets (R177 to R179, R280 to R291): writer ports, banks, the destination ring. -/

namespace Sys2Proof.Machine
open Sys2Proof

/-- OUT_CFG and the ring base of an outlet, one copy behind its two views (R295, R296). -/
def outReg (o r : Nat) : Nat := 0xDC00 + 0x20 * o + r
def State.outCfg (s : State) (o : Nat) : Nat := s.ioReg (outReg o 0) 0x1000
def State.outEn (s : State) (o : Nat) : Bool := bit (s.outCfg o) 0
def State.outDest (s : State) (o : Nat) : Nat := bits (s.outCfg o) 1 1
def State.outSize (s : State) (o : Nat) : Nat := 2 ^ bits (s.outCfg o) 12 8
def State.outBase (s : State) (o : Nat) : Nat := s.ioReg (outReg o 1) 0 + s.ioReg (outReg o 2) 0 * 2 ^ 32

/-- Extents of 64 narrow words that a record holds (R280). -/
def ORec.extents (r : ORec) : Nat := if r.discard then 0 else cdiv r.words.length 64

/-- The body CRC of a record (R286, R442). -/
def ORec.crc (r : ORec) : Nat := crc32 (r.words.flatMap (leBytes 8))

/-- The record with one more word, which the writer port takes into its CRC (R286). -/
def ORec.addWord (r : ORec) (w : Nat) : ORec :=
  let ws := r.words ++ [w]
  { r with words := ws, acc := crc32 (ws.flatMap (leBytes 8)) }

/-- Free extents of a bank. -/
def Outlet.free (x : Outlet) (b : Nat) : Nat :=
  512 - ((x.open_ ++ x.done).filter (·.bank == b)).foldl (fun n r => n + r.extents) 0

/-- The open record of a key. -/
def Outlet.find (x : Outlet) (ctx flow : Nat) : Option ORec :=
  x.open_.find? fun r => r.ctx == ctx && r.flow == flow

/-- The outlet without the open record of a key. -/
def Outlet.drop (x : Outlet) (ctx flow : Nat) : Outlet :=
  { x with open_ := x.open_.filter fun r => !(r.ctx == ctx && r.flow == flow) }

/-- The outlet with an open record written back. -/
def Outlet.putRec (x : Outlet) (r : ORec) : Outlet :=
  { x with open_ := (x.open_.filter fun q => !(q.ctx == r.ctx && q.flow == r.flow)) ++ [r] }

/-- The outlet with the record of a key rewound: its extents are free, it takes no sequence number (R282). -/
def Outlet.rewind (x : Outlet) (ctx flow : Nat) : Outlet :=
  match x.find ctx flow with
  | none => x
  | some _ => { x.drop ctx flow with rewindCnt := sat32 x.rewindCnt 1 }

/-- Every open record of a context is rewound and its dead keys go (R179, R211, R289). -/
def Outlet.endCtx (x : Outlet) (ctx : Nat) : Outlet :=
  { x with open_ := x.open_.filter (·.ctx != ctx),
           rewindCnt := sat32 x.rewindCnt (x.open_.filter (·.ctx == ctx)).length,
           dead := x.dead.filter (·.1 != ctx) }

/-- No record of a context is open (R214). -/
def State.noOpenRec (s : State) (ctx : Nat) : Bool :=
  [0, 1].all fun o => (s.outlet o).open_.all (·.ctx != ctx)

/-- A record is committed: it takes the next sequence number and its place in its bank's drain order (R282). The
standby takes the number that a COMMIT record gave (R441). -/
def State.commitRec (o : Nat) (r : ORec) (seqIn : Option Nat) (s : State) : State :=
  let x := s.outlet o
  let q := seqIn.getD x.seq
  let r' := { r with seq := q, time := s.time, epoch := if s.pair.unprotJobs.contains r.job then none else s.holdEpoch }
  let s1 := s.updOutlet o fun x =>
    { x.drop r.ctx r.flow with done := x.done ++ [r'], seq := (q + 1) % 2 ^ 32, commitCnt := sat32 x.commitCnt 1 }
  (s1.jrnl 0x07 [o, q, r.ctx, r.flow, r.crc] []).updPair fun p => { p with digest := p.digest ^^^ r.crc }

/-- The sequence number that the journal gives the next commit of a key at the standby, or at a new active that completes
the replay of acknowledged epochs (R450): outer none, it must still wait. -/
def State.seqFor (s : State) (o ctx flow : Nat) : Option (Option Nat) :=
  match s.pair.seqs.find? fun q => q.1 == o && q.2.2.1 == ctx && q.2.2.2 == flow with
  | some q => some (some q.2.1)
  | none => if s.standby || !s.jrnlRoom || s.pair.seqs.any (·.1 == o) then none else some none

/-- The standby has used a sequence number. -/
def State.useSeq (o : Nat) (q : Option Nat) (s : State) : State :=
  match q with
  | none => s
  | some n => s.updPair fun p => { p with seqs := p.seqs.filter fun e => !(e.1 == o && e.2.1 == n) }

/-- What an APPEND meets at its outlet (R178, R281). -/
inductive AppendCase where
  | held
  | dropped
  | over
  | take (r : ORec)

/-- The case of an APPEND of one word. -/
def State.appendCase (s : State) (o ctx flow ctl value : Nat) (poison : Bool) : AppendCase :=
  let x := s.outlet o
  if !s.ctxLive ctx || x.dead.contains (ctx, flow) then .dropped
  else
    let add (r : ORec) : ORec :=
      if r.discard then { r with poisoned := r.poisoned || poison }
      else { r.addWord (value % 2 ^ (8 * (if bits ctl 4 1 = 0 then 8 else bits ctl 4 1))) with
               partialN := if bits ctl 4 1 = 8 then 0 else bits ctl 4 1, poisoned := r.poisoned || poison }
    match x.find ctx flow with
    | some r =>
      if r.partialN != 0 || r.words.length = 512 then .over
      else if !r.discard && r.words.length % 64 = 0 && x.free r.bank = 0 then .held
      else .take (add r)
    | none =>
      if 256 ≤ x.open_.length then .held
      else if !s.outEn o then
        .take (add { ctx := ctx, flow := flow, job := (s.ctx ctx).job, ty := bits ctl 12 5, bank := x.fill,
                     discard := true })
      else if x.free x.fill = 0 then .held
      else .take (add { ctx := ctx, flow := flow, job := (s.ctx ctx).job, ty := bits ctl 12 5, bank := x.fill })

/-- The outlet's answer to a PE (R133). -/
def State.answer (o pe slot value fault : Nat) (s : State) : State :=
  s.send 2 0 2000 (.outlet o 0) (.pe pe) (.answer o slot value fault)

/-- The packets waiting at a writer port. -/
def Outlet.port (x : Outlet) (p : Nat) : List Pkt := Tbl.get [] x.ports p

def State.setPort (o p : Nat) (l : List Pkt) (s : State) : State :=
  s.updOutlet o fun x => { x with ports := x.ports.put p l }

/-- Whether a poison mark must wait to open a record (R178). -/
def State.markHeld? (s : State) (o ctx flow : Nat) : Bool :=
  s.ctxLive ctx && ((s.outlet o).find ctx flow).isNone && 256 ≤ (s.outlet o).open_.length

/-- Whether a packet at a writer port is held now: an APPEND, or a poison mark, that can open no record or take no extent. -/
def State.pktHeld (s : State) (o : Nat) (k : Pkt) : Bool :=
  match k.body with
  | .out _ _ ctx flow (.append ctl v p) => match s.appendCase o ctx flow ctl v p with | .held => true | _ => false
  | .out _ _ ctx flow .mark => s.markHeld? o ctx flow
  | _ => false

/-- The first packet at a writer port that is not held, when a test picks it; with the rest. What is held holds no other
record's packet (R178). -/
def State.takePort (s : State) (o p : Nat) (test : Body → Bool) : Option (Body × List Pkt) :=
  let l := (s.outlet o).port p
  match l.dropWhile (s.pktHeld o) with
  | [] => none
  | k :: r => if test k.body then some (k.body, l.takeWhile (s.pktHeld o) ++ r) else none

/-- OUTLET_APPEND_ACCEPT (R178, R281): the port accepts the first APPEND it can take and answers the PE. -/
def execOutletAppendAccept (outlet port : Nat) (s : State) : Out :=
  State.inDom (outDom outlet) (fun s =>
    match s.takePort outlet port fun b => match b with | .out _ _ _ _ (.append ..) => true | _ => false with
    | some (.out pe slot ctx flow (.append ctl v p), rest) =>
      match s.appendCase outlet ctx flow ctl v p with
      | .held => s
      | .dropped => (s.setPort outlet port rest).answer outlet pe slot ctl 0
      | .over => ((s.setPort outlet port rest).updOutlet outlet fun x => x.rewind ctx flow).answer outlet pe slot ctl 0x2A
      | .take r => ((s.setPort outlet port rest).updOutlet outlet fun x => x.putRec r).answer outlet pe slot ctl 0
    | _ => s) s

/-- COMMIT's result word (Table 05-12). -/
def commitResult (status : Nat) (rewound : Bool) (words : Nat) : Nat :=
  status + b2n rewound * 2 ^ 16 + words * 2 ^ 32

/-- The outcome of a COMMIT in the order of R282: the status, whether it rewinds, and whether it commits. -/
def State.commitCase (s : State) (o ctx flow ctl : Nat) : Nat × Bool × Option ORec :=
  let x := s.outlet o
  if x.dead.contains (ctx, flow) then (OUTLET_RESET, true, none)
  else if !s.outEn o then (NOT_ACTIVE, true, none)
  else match x.find ctx flow with
  | none => (BAD_ARG, false, none)
  | some r =>
    if r.discard then (NOT_ACTIVE, true, none)
    else if r.poisoned then (DENIED, true, none)
    else if bit ctl 1 then (OK, true, none)
    else (OK, false, some r)

/-- A COMMIT acts (Table 08-8). -/
def State.doCommit (o pe slot ctx flow ctl : Nat) (s : State) : State :=
  let n := match (s.outlet o).find ctx flow with | none => 0 | some r => r.words.length
  match s.commitCase o ctx flow ctl with
  | (st, rw, none) =>
    (s.updOutlet o fun x => { x.rewind ctx flow with dead := x.dead.filter (· != (ctx, flow)) }).answer o pe slot
      (commitResult st rw n) 0
  | (st, rw, some r) =>
    match s.seqFor o ctx flow with
    | none => s
    | some q => ((s.commitRec o r q).useSeq o q).answer o pe slot (commitResult st rw n) 0

/-- Whether a COMMIT must wait for journal credit or for its record (R441, R445). -/
def State.commitWaits (s : State) (o ctx flow ctl : Nat) : Bool :=
  match s.commitCase o ctx flow ctl with
  | (_, _, some _) => (s.seqFor o ctx flow).isNone
  | _ => false

/-- The status and the rewound bit that one outlet answers to a COMMIT whose control word is poisoned, in the order of R282. -/
def State.poisonedCase (s : State) (o ctx flow : Nat) : Nat × Bool :=
  if (s.outlet o).dead.contains (ctx, flow) then (OUTLET_RESET, true)
  else if !s.outEn o then (NOT_ACTIVE, true)
  else match (s.outlet o).find ctx flow with
  | none => (BAD_ARG, false)
  | some r => if r.discard then (NOT_ACTIVE, true) else (DENIED, true)

/-- A COMMIT whose control word is poisoned rewinds its key in each of the two outlets that it reaches (R179). The words field
of its result is zero (log entry 48, DEDUCED). -/
def State.doCommitPoisoned (o pe slot ctx flow : Nat) (s : State) : State :=
  let c := s.poisonedCase o ctx flow
  let s1 := s.updOutlet o fun x => { x.rewind ctx flow with dead := x.dead.filter (· != (ctx, flow)) }
  s1.answer o pe slot (commitResult c.1 c.2 0) 0

/-- The place of a COMMIT's status when two outlets have answered: OUTLET_RESET, DENIED, BAD_ARG, then NOT_ACTIVE, which stands
only where neither outlet is enabled (log entry 48, DEDUCED). -/
def commitRank (r : Nat) : Nat :=
  let st := r % 2 ^ 16
  if st = OUTLET_RESET then 0 else if st = DENIED then 1 else if st = BAD_ARG then 2 else 3

/-- The result of a COMMIT that both outlets have answered. -/
def commitBoth (x y : Nat) : Nat := if commitRank y < commitRank x then y else x

/-- OUTLET_COMMIT_ACCEPT (R178, R282). -/
def execOutletCommitAccept (outlet port : Nat) (s : State) : Out :=
  State.inDom (outDom outlet) (fun s =>
    match s.takePort outlet port fun b =>
      match b with | .out _ _ _ _ (.commit _) => true | .out _ _ _ _ .commitPoisoned => true | _ => false with
    | some (.out pe slot ctx flow (.commit ctl), rest) =>
      if s.commitWaits outlet ctx flow ctl then s
      else (s.setPort outlet port rest).doCommit outlet pe slot ctx flow ctl
    | some (.out pe slot ctx flow .commitPoisoned, rest) =>
      (s.setPort outlet port rest).doCommitPoisoned outlet pe slot ctx flow
    | _ => s) s

/-- A poison mark's effect in one outlet (R178): the key's record is marked, or opened empty and marked. A context that is no
longer live opens none, as its records have been rewound (R179, R211). -/
def State.markRec (o ctx flow : Nat) (s : State) : State :=
  if !s.ctxLive ctx then s else s.updOutlet o fun x =>
    match x.find ctx flow with
    | some r => x.putRec { r with poisoned := true }
    | none => x.putRec { ctx := ctx, flow := flow, job := (s.ctx ctx).job, bank := x.fill, poisoned := true }

/-- POISON_MARK (R178): a writer port takes a poison mark. -/
def execPoisonMark (outlet port : Nat) (s : State) : Out :=
  State.inDom (outDom outlet) (fun s =>
    match s.takePort outlet port fun b => match b with | .out _ _ _ _ .mark => true | _ => false with
    | some (.out pe slot ctx flow .mark, rest) =>
      ((s.setPort outlet port rest).markRec outlet ctx flow).answer outlet pe slot 0 0
    | _ => s) s

/-- OUTLET_BANK_SWAP (R283). -/
def execOutletBankSwap (outlet : Nat) (s : State) : Out :=
  State.inDom (outDom outlet) (fun s =>
    let x := s.outlet outlet
    let d := 1 - x.fill
    let hasDone (b : Nat) := x.done.any (·.bank == b)
    if !hasDone d && (hasDone x.fill || x.free x.fill < 64) then s.updOutlet outlet fun x => { x with fill := d }
    else s) s

/-! ### The destination ring (R284 to R286) -/

/-- Wide words of a record (R284). -/
def ORec.span (r : ORec) : Nat := cdiv (32 + 8 * r.words.length) 64

/-- A record header's bytes (Table 08-9a). -/
def recHeader (seq words ty flags key job span time : Nat) : List Byte :=
  leBytes 4 seq ++ leBytes 2 words ++ leBytes 1 ty ++ leBytes 1 flags ++ leBytes 4 key ++ leBytes 2 job
    ++ leBytes 2 span ++ leBytes 8 time ++ zeros 8

/-- A record's bytes at a phase. -/
def ORec.bytes (r : ORec) (phase : Bool) : List Byte :=
  let vb := if r.words.isEmpty then 0 else if r.partialN = 0 then 8 else r.partialN
  padTo (64 * r.span)
    (recHeader r.seq r.words.length r.ty (vb + b2n r.device * 16 + b2n phase * 128) (r.ctx + r.flow * 2 ^ 20) r.job
      r.span r.time ++ r.words.flatMap (leBytes 8))

/-- A pad record's header (R285). -/
def padBytes (span time : Nat) (phase : Bool) : List Byte :=
  recHeader 0 0 0xFF (16 + 32 + b2n phase * 128) 0 0xFFFF span time

/-- The record that drains next: the lowest sequence number of the draining bank. -/
def Outlet.nextDone (x : Outlet) : Option ORec :=
  (x.done.filter (·.bank == 1 - x.fill)).foldl (fun b r =>
    match b with | none => some r | some q => if r.seq < q.seq then some r else some q) none

/-- Pad words that must precede a record at an index. -/
def padFor (size wr span : Nat) : Nat := if wr + span ≤ size then 0 else size - wr

/-- Whether a record and its pad fit the ring's free room (R285). -/
def ringFits (size wr rd span : Nat) : Bool := padFor size wr span + span ≤ (rd + size - wr - 1) % size

/-- Ring bytes go to DDR5 or, through PF1, to host memory; the standby writes none to host memory (R446). -/
def State.ringPut (o a : Nat) (bs : List Byte) (s : State) : State :=
  if s.outDest o = 0 then s.ddrWr 4 a bs else if s.standby then s else s.hostPut a bs

/-- PF1's message moderation (R405): a record written counts toward the outlet's vector. -/
def State.moderate (o : Nat) (s : State) : State :=
  if s.outDest o = 0 || s.standby then s else
  let cfg := s.reg .pf1 (4 + 4 * o) 1
  let x := s.outlet o
  if bits cfg 15 0 ≤ x.modCount + 1 then
    (s.updOutlet o fun x => { x with modCount := 0, modSince := none }).msix1 o
  else s.updOutlet o fun x => { x with modCount := x.modCount + 1, modSince := some (x.modSince.getD s.time) }

/-- A record that fails its body check is dropped before the drain (R286). -/
def State.dropRec (o : Nat) (r : ORec) (s : State) : State :=
  (((s.updOutlet o fun x =>
      { x with done := x.done.filter (·.seq != r.seq), dropCnt := sat32 x.dropCnt 1, dropped := true }).note (.w1c (.out o) 13) 1).event cOut o
    0x80FF (o + r.seq * 2 + (r.ctx + r.flow * 2 ^ 20) * 2 ^ 33)).alert (4 + o)

/-- The next index and phase after `n` wide words. -/
def ringNext (size wr n : Nat) (ph : Bool) : Nat × Bool :=
  if wr + n < size then (wr + n, ph) else (wr + n - size, !ph)

/-- Whether the outlet's destination can be written now (R424). -/
def State.destOpen (s : State) (o : Nat) : Bool :=
  s.outDest o == 0 || s.standby || (s.host.pf1.bme && !s.host.pf1.d3)

/-- The record as its bank gives it back: an upset has changed bits of one word. -/
def ORec.flip (r : ORec) (upset : Option (Nat × Nat)) : ORec :=
  match upset with
  | none => r
  | some (i, m) => { r with words := r.words.modify i fun w => w ^^^ (m % 2 ^ 64) }

/-- OUT_RD as a ring-space check of this fc sees it: a write of the same fc applies from the next (Table 08-7). -/
def State.rdSeen (s : State) (o : Nat) : Nat := s.oldOf (0x100010 + 0x100 * o) (s.outlet o).rd

/-- OUTLET_RECORD_DRAIN (R284 to R286): the next committed record of the draining bank is dropped where its body fails the
check, or written to the ring with the pad record it needs, its header last. `upset` is what an upset has done to a word of
the bank since it was accepted. -/
def execOutletRecordDrain (outlet : Nat) (upset : Option (Nat × Nat)) (s : State) : Out :=
  State.inDom (outDom outlet) (fun s =>
    let x := s.outlet outlet
    match x.nextDone.map (·.flip upset) with
    | none => s
    | some r =>
      if r.crc != r.acc then s.dropRec outlet r
      else if !s.epochFree r.epoch || !s.destOpen outlet then s
      else
        let size := s.outSize outlet
        if !ringFits size x.wr (s.rdSeen outlet) r.span then s
        else
          let pad := padFor size x.wr r.span
          let s1 := if pad = 0 then s else s.ringPut outlet (s.outBase outlet + 64 * x.wr) (padBytes pad s.time x.phase)
          let (w0, p0) := ringNext size x.wr pad x.phase
          let bs := r.bytes p0
          let a := s.outBase outlet + 64 * w0
          let s2 := (s1.ringPut outlet (a + 64) (bs.drop 64)).ringPut outlet a (bs.take 64)
          let (w1, p1) := ringNext size w0 r.span p0
          ((s2.updOutlet outlet fun x =>
            { x with done := x.done.filter (·.seq != r.seq), wr := w1, wr2 := w1, phase := p1, ckWr := w1, ckPhase := p1,
                     ckRd := x.rd, drain := r.seq + 1, drain2 := r.seq + 1 }).moderate outlet)) s

/-- The two copies of every pointer agree (R288). -/
def Outlet.agree (x : Outlet) : Bool := x.extX == (0, 0) && x.wr == x.wr2 && x.rd == x.rd2 && x.drain == x.drain2

/-- The second copy of a pointer differs from now on by some bits: 0 and 1 the free-extent pointers, 2 the drain pointer, 3
the write index, 4 the read index. -/
def Outlet.upset (x : Outlet) (ptr m : Nat) : Outlet :=
  if ptr = 0 then { x with extX := (x.extX.1 ^^^ m, x.extX.2) }
  else if ptr = 1 then { x with extX := (x.extX.1, x.extX.2 ^^^ m) }
  else if ptr = 2 then { x with drain2 := x.drain2 ^^^ m }
  else if ptr = 3 then { x with wr2 := x.wr2 ^^^ m }
  else { x with rd2 := x.rd2 ^^^ m }

/-- The reset of an outlet (R289): open and unwritten records are dropped, the dropped open keys are dead, and the ring
indices come from their checkpoints. -/
def State.outReset (o : Nat) (s : State) : State :=
  let x := s.outlet o
  let no := min 0xFFFF x.open_.length
  let nd := min 0xFFFF x.done.length
  (((s.updOutlet o fun x =>
    { x with open_ := [], done := [],
             dead := x.dead ++ (x.open_.filter (fun r => !r.device)).map (fun r => (r.ctx, r.flow)),
             wr := x.ckWr, wr2 := x.ckWr, rd := x.ckRd, rd2 := x.ckRd, phase := x.ckPhase, drain := x.seq, drain2 := x.seq,
             extX := (0, 0), lostOpen := no, lostDone := nd, reset_ := true, resetCnt := sat32 x.resetCnt 1 }).note
    (.w1c (.out o) 14) 1).event cOut o OUTLET_RESET (no + nd * 2 ^ 16)).alert (4 + o)

/-- OUTLET_RESET (R288, R289): an upset changes bits of one copy of a pointer; the fc's comparison then resets the outlet where
two copies disagree. -/
def execOutletReset (outlet ptr m : Nat) (s : State) : Out :=
  State.inDom (outDom outlet) (fun s =>
    if 2 ≤ outlet then s else
    let s1 := s.updOutlet outlet fun x => x.upset ptr m
    if (s1.outlet outlet).agree then s1 else s1.outReset outlet) s

/-! ### Records of compare units and of firmware (R276, R290, R291) -/

/-- Whether a device-written record can enter its outlet now. -/
def State.cuRecRoom (s : State) (r : CuRec) : Bool :=
  !s.outEn r.outlet ||
    (cdiv r.words.length 64 ≤ (s.outlet r.outlet).free (s.outlet r.outlet).fill &&
      (s.seqFor r.outlet r.ctx r.flow).isSome)

/-- A device-written record enters its outlet and is committed as it is written, or is discarded when the outlet is
not enabled. -/
def State.putCuRec (r : CuRec) (s : State) : State :=
  if !s.outEn r.outlet then s
  else
    let q := match s.seqFor r.outlet r.ctx r.flow with | some q => q | none => none
    (s.commitRec r.outlet { ctx := r.ctx, flow := r.flow, job := r.job, ty := r.ty, words := r.words,
                            acc := crc32 (r.words.flatMap (leBytes 8)),
                            bank := (s.outlet r.outlet).fill, device := true } q).useSeq r.outlet q

/-- A write to OUT_RD is accepted when it lies at or before OUT_WR, counting from OUT_RD (R295). -/
def outRdOk (size wr rd v : Nat) : Bool := v < size && (v + size - rd) % size ≤ (wr + size - rd) % size

/-- OUT_RD_WRITE (R295). In pair mode the write is journalled (R463); the standby ignores it. -/
def State.outRdWrite (o v : Nat) (s : State) : State :=
  let x := s.outlet o
  let v' := bits v 25 0
  if outRdOk (s.outSize o) x.wr x.rd v' then
    (s.noteOld (0x100010 + 0x100 * o) x.rd).updOutlet o fun x => { x with rd := v', rd2 := v', ckRd := v', ckWr := x.wr }
  else (s.updOutlet o fun x => { x with rdBad := true }).note (.w1c (.out o) 12) 1

end Sys2Proof.Machine
end

