-- ==== Sys2Proof/Machine/Sched.lean ====
section
/-! DEFINITION. The ready list, the flow-keep unit and the scheduler (R114 to R132, R134, R141). -/

namespace Sys2Proof.Machine
open Sys2Proof

/-! ### Ready overflow (R94, R125) -/

/-- refill_lwm of SCHED_CFG; in the fc of a write, its old value (R134). -/
def State.refillLwm (s : State) (pe : Nat) : Nat :=
  let old := s.noted (.old (peBase pe + 0x0D))
  bits (if old = 0 then s.peReg pe 0x0D 1792 else old - 1) 10 0

/-- OVERFLOW_REFILL (R125): the oldest firing of the ready overflow enters the ready list while the list is below its
low-water mark, and its two entries leave the region (R94). -/
def execOverflowRefill (pe : Nat) (s : State) : Out :=
  State.inDom (quadDom pe) (fun s =>
    let p := s.pe pe
    match p.ovf with
    | [] => s
    | (n, f) :: r =>
      if p.rlOcc < s.refillLwm pe then
        let s1 := s.updPe pe fun p => { p with ovf := r }
        ((match s1.logOf pe with | some k => s1.ovfDel k n | none => s1).enterReady pe f).restagePe pe
      else s) s

/-- FK_RELEASE (R130): the first flow-keep firing whose conditions hold enters its group queue (R123). -/
def execFkRelease (pe : Nat) (s : State) : Out :=
  State.inDom (quadDom pe) (fun s =>
    match (s.pe pe).fk.findIdx? (fun f => s.fkFree pe f) with
    | none => s
    | some i => s.updPe pe fun p =>
        match p.fk[i]? with
        | none => p
        | some f => { p with fk := p.fk.eraseIdx i, ready := queueIn f p.ready }) s

/-! ### Resources (R122, R124, R133, R164) -/

/-- Firings in the fire halves of a class. -/
def Pe.firing (p : Pe) (k : Cls) : Nat := (p.fire.filter fun x => opClass (wOpc x.2.word) = k).length

def Pe.rspUsed (p : Pe) : Nat :=
  (p.svc.filter fun v => match v.slot with | .rsp _ => true | _ => false).length + p.firing .r
def Pe.ctxUsed (p : Pe) : Nat :=
  (p.svc.filter fun v => match v.slot with | .ctx _ => true | _ => false).length + p.firing .c
def Pe.trapUsed (p : Pe) : Nat :=
  (p.svc.filter fun v => match v.slot with | .trap _ => true | _ => false).length + p.firing .t

def Pe.creditUsed (p : Pe) : Nat :=
  (p.svc.filter fun v => match v.slot with | .writer _ => true | _ => false).length + p.firing .u

/-- Whether an APPEND would be held at its outlet, as if it had no writer credit (R178, R281). -/
def State.appendHeld (s : State) (f : Firing) : Bool :=
  wOpc f.word = 0x70 && !f.ctlPoisoned &&
    (match s.appendCase (bits f.ctl 0 0) f.ctx f.outFlow f.ctl f.va false with | .held => true | _ => false)

/-- Whether the resource that a firing's class needs is free for a fire half (Table 04-4). The number of a PE's writer-port
credits is not stated (log entry 17, DESIGN CHOICE). -/
def State.hasRes (s : State) (pe pipe : Nat) (f : Firing) : Bool :=
  let p := s.pe pe
  match opClass (wOpc f.word) with
  | .x => (Tbl.find p.fire (2 + pipe)).isNone
  | .r => if wOpc f.word = 0x40 then p.rspUsed + 64 < 256 else p.rspUsed < 256
  | .c => p.ctxUsed < 64
  | .t => p.trapUsed < 32
  | .u => p.creditUsed < Config.writerCredits + 1 && !s.appendHeld f
  | _ => true

/-- The resource code of a RES_HOLD record (Table 04-7). -/
def resCode (f : Firing) : Nat :=
  match opClass (wOpc f.word) with
  | .r => 0
  | .c => 1
  | .t => 2
  | .u => 3
  | _ => 4

/-- A firing that will be dropped at issue: its context is dying, or a kill's sweep has met it (R103, R132). -/
def Pe.drops (p : Pe) (f : Firing) : Bool := f.dead || p.dying.contains f.ctx

/-- A firing that its group can offer to a fire half: its resource is free, or it will be dropped. -/
def State.ready? (s : State) (pe pipe : Nat) (f : Firing) : Bool := (s.pe pe).drops f || s.hasRes pe pipe f

/-- The place in the ready list of a group's first firing that can be offered (R124, R127). -/
def State.firstOf (s : State) (pe pipe g : Nat) : Option Nat :=
  (s.pe pe).ready.findIdx? fun f => f.grp == g && s.ready? pe pipe f

/-- The firings that stand ahead of every firing of their group that can be offered: they are marked held (R124). -/
def State.newHeld (s : State) (pe pipe : Nat) : List Nat :=
  (List.range (s.pe pe).ready.length).filter fun i =>
    match (s.pe pe).ready[i]? with
    | none => false
    | some f => !f.held && !s.ready? pe pipe f && (match s.firstOf pe pipe f.grp with | none => true | some j => i < j)

/-- A firing is marked held (R124), counted and traced. -/
def State.markHeld (pe pipe i : Nat) (s : State) : State :=
  match (s.pe pe).ready[i]? with
  | none => s
  | some f =>
    let s1 := (s.updPe pe fun p => { p with ready := p.ready.set i { f with held := true } }).cnt pe 0x1B 1
    s1.traceFir pe 0x08 (wOpc f.word + resCode f * 2 ^ 8)
      ((s1.pe pe).ready.filter fun g => g.grp == f.grp && g.held).length pipe f

/-- Tokens of a fire half that still wait in an output buffer (Table 04-1): for the PE's own input queue, or for a place of
the router's local port. -/
def State.outWait (s : State) (pe pipe chan : Nat) : Nat :=
  (Tbl.get [] (s.pe pe).outL (2 * pipe + chan)).length +
    ((s.atSource 0 chan (routerOf (.pe pe))).filter fun k => k.src == 2 * pe + pipe).length

/-- Whether a fire half's output buffer has room for two tokens of an actor's group (R122). -/
def State.outRoom (s : State) (pe pipe : Nat) (f : Firing) : Bool := s.outWait pe pipe (chanOf (wGrp f.word)) + 2 ≤ 4

/-- Whether a fire half can take a firing: it is empty and has room for two tokens of the actor's group (R122). -/
def State.halfFree (s : State) (pe pipe : Nat) (f : Firing) : Bool :=
  (Tbl.find (s.pe pe).fire pipe).isNone && s.outRoom pe pipe f

/-! ### Selection (R127) -/

/-- The weighted procedure: the place of the firing, and the new ptr and q with it taken, and with it dropped. -/
def State.nextWeighted (s : State) (pe pipe : Nat) : Option (Nat × Nat × Nat × Nat) :=
  let p := s.pe pe
  let start : Option (Nat × Nat × Nat × Nat) :=
    ((List.range 7).map fun i => (p.ptr + i) % 7 + 1).findSome? fun g =>
      match s.firstOf pe pipe g with
      | none => none
      | some i =>
        let w := match p.ready[i]? with | some f => f.weight | none => 1
        some (i, g, w - 1, w)
  if 0 < p.q then
    match s.firstOf pe pipe p.ptr with
    | some i => some (i, p.ptr, p.q - 1, p.q)
    | none => start
  else start

/-- Record of an issue (Table 04-7). -/
def State.traceIssue (pe pipe : Nat) (drop : Bool) (f : Firing) (s : State) : State :=
  s.traceFir pe 0x03 (wOpc f.word + b2n drop * 2 ^ 8 + f.job % 4096 * 2 ^ 32) (s.time - f.at_) pipe f

/-- The firing at a place of the ready list leaves for a fire half, or is dropped where its context is dying (R132, R134). A
dropped firing counts in no issue counter (log entry 107, DESIGN CHOICE). -/
def State.issueAt (pe pipe i : Nat) (s : State) : State :=
  match (s.pe pe).ready[i]? with
  | none => s
  | some f =>
    let s1 := s.updPe pe fun p => { p with ready := p.ready.eraseIdx i }
    if (s.pe pe).drops f then s1.traceIssue pe pipe true f
    else
      let k := if opClass (wOpc f.word) = .x then 2 + pipe else pipe
      let g := { f with issued := s.time, held := false, pipe := pipe }
      let s2 := (s1.updPe pe fun p => { p with fire := p.fire.put k g }).cnt pe 0x17 1
      (when (f.grp == 0) (State.cnt pe 0x18 1) s2).traceIssue pe pipe false f

/-- An issue slot goes to G0: where both of this fc have while G1 to G7 hold firings that could issue, STARVE_CNT counts. -/
def State.slotToG0 (pe pipe : Nat) (s : State) : State :=
  let other := s.noted (.g0slot pe) == 2 - pipe
  let s1 := s.note (.g0slot pe) (pipe + 1)
  if other && (s.pe pe).ready.any fun f => f.grp != 0 && s.ready? pe pipe f then s1.cnt pe 0x1D 1 else s1

/-- One issue slot of a fire half (R127). -/
def State.issueSlot (pe pipe : Nat) (s0 : State) : State :=
  let s := (s0.newHeld pe pipe).foldl (fun s i => s.markHeld pe pipe i) s0
  let p := s.pe pe
  let can (i : Nat) : Bool := match p.ready[i]? with | some f => s.halfFree pe pipe f | none => false
  match s.firstOf pe pipe 0 with
  | some i => if can i then (s.slotToG0 pe pipe).issueAt pe pipe i else s
  | none =>
    match s.nextWeighted pe pipe with
    | none => s.updPe pe fun p => { p with q := 0 }
    | some (i, g, q1, q2) =>
      if can i then
        let drop := match p.ready[i]? with | some f => p.drops f | none => false
        (s.updPe pe fun p => { p with ptr := g, q := if drop then q2 else q1 }).issueAt pe pipe i
      else s

/-- FIRING_ISSUE (R127): one issue slot of a fire half in a quad that is awake. -/
def execFiringIssue (pe pipe : Nat) (s : State) : Out :=
  State.plain (fun s => if s.domOn (quadDom pe) && s.pair.swapAt.isNone then s.issueSlot pe pipe else s) s

/-- SCHED_CNT_CLR (R141): ports +0x17 to +0x1D of the PE. What this fc has counted is counted after the reset, and a credit
withheld now counts from this fc on. -/
def execSchedCntClr (pe : Nat) (s : State) : Out :=
  State.plain (State.regDom (quadDom pe) (.schedCntClr pe) fun s => s.updPe pe fun p =>
    { p with cnt := s.recountAfter .pe pe 0x17 0x1D p.cnt, bp := p.bp.map fun _ => s.time }) s

end Sys2Proof.Machine
end

