-- ==== Sys2Proof/Machine/Fire.lean ====
section
/-! DEFINITION. What every firing shares (R46 to R48, R59, R69, R132, R146, R148, R186, R187): operand values, emission,
faults, slots, completion. -/

namespace Sys2Proof.Machine
open Sys2Proof

/-! ### The match key -/

/-- The firing's match key in the tag layout with PORT 0. -/
def Firing.tag (f : Firing) : Nat := tagOf f.ctx f.act f.iter

/-! ### Emission (R45 to R47, R50, R59, R69) -/

/-- Destination actor and port of DST0 or DST1. -/
def wDst (w i : Nat) : Nat := if i = 0 then wDst0 w else wDst1 w
def wDstPort (w i : Nat) : Nat := if i = 0 then wPort0 w else wPort1 w

/-- The token that a firing emits to a destination. -/
def Firing.token (f : Firing) (i value : Nat) (poison : Bool) (iter flow : Nat) : Tok :=
  Tok.sealed { ctx := BitVec.ofNat 20 f.ctx, act := BitVec.ofNat 14 (wDst f.word i), iter := BitVec.ofNat 28 iter,
               port := BitVec.ofNat 2 (wDstPort f.word i), value := BitVec.ofNat 64 value,
               flow := BitVec.ofNat 10 flow, grp := BitVec.ofNat 3 (wGrp f.word), poison := poison, kind := 0 }

/-- A token leaves a fire half: to the local input queue, or into Scatrix (R20, R69). -/
def State.depart (pe pipe : Nat) (f : Firing) (t : Tok) (s : State) : State :=
  match Tbl.find s.cm.blocks f.block with
  | none => s
  | some b =>
    let dst := s.physOf (b.lpe t.act.toNat t.iter.toNat)
    let c := chanOf t.grp.toNat
    if dst = pe then
      s.updPe pe fun p => { p with outL := p.outL.put (2 * pipe + c) (Tbl.get [] p.outL (2 * pipe + c) ++ [t]) }
    else s.send 0 c (2 * pe + pipe) (.pe pe) (.pe dst) (.tok t)

/-- A value emitted to one destination; a destination with port 3 gets nothing (R59). -/
def State.emit1 (pe pipe : Nat) (f : Firing) (i value : Nat) (poison : Bool) (iter flow : Nat) (s : State) : State :=
  if wDstPort f.word i = 3 then s else s.depart pe pipe f (f.token i value poison iter flow)

/-- A value emitted to both destinations with a given poison, ITER and FLOW. -/
def State.emitAs (pe pipe : Nat) (f : Firing) (value : Nat) (poison : Bool) (iter flow : Nat) (s : State) : State :=
  (s.emit1 pe pipe f 0 value poison iter flow).emit1 pe pipe f 1 value poison iter flow

/-- A result value emitted to both destinations (R148). -/
def State.emit (pe pipe : Nat) (f : Firing) (value : Nat) (s : State) : State :=
  s.emitAs pe pipe f value f.poisoned f.iter f.outFlow

/-! ### Faults and stopped effects (R186, R187) -/

/-- A firing completes: the trace record of one of class R, C or T (R137). -/
def State.traceEnd (pe pipe : Nat) (f : Firing) (s : State) : State :=
  when ([Cls.r, .c, .t].contains (opClass (wOpc f.word)))
    (State.traceFir pe 0x04 (wOpc f.word + f.job % 4096 * 2 ^ 32) (s.time - f.issued) pipe f) s

/-- A firing fault with what its record holds of a trap's fault return (R187, R189): nothing is emitted, one event record,
and the job is lost. -/
def State.faultWith (pe cause v : Nat) (f : Firing) (s : State) : State :=
  ((s.traceEnd pe f.pipe f).eventReq
    { code := 0x8100 + cause, cls := cPe, inst := pe, arg := f.tag, extra := (wOpc f.word, v) }).loseCtx f.ctx cause false

/-- A firing fault (R187). -/
def State.firingFault (pe cause : Nat) (f : Firing) (s : State) : State := s.faultWith pe cause 0 f

/-- The lowest cause that applies. -/
def lowest (l : List (Nat × Bool)) : Option Nat :=
  l.foldl (fun b x => if x.2 then (match b with | none => some x.1 | some c => some (min c x.1)) else b) none

/-- An effect stopped by poison (R186): each destination gets a poisoned zero, and one event record is written. -/
def State.poisonStop (pe pipe : Nat) (f : Firing) (s : State) : State :=
  ((s.traceEnd pe pipe f).emitAs pe pipe f 0 true f.iter f.outFlow).event cPe pe 0x8013 f.tag

/-! ### Firings in a fire half -/

/-- The firing of an opcode in a fire half (0, 1) or an iterative unit (2, 3) leaves it and acts once the output buffer has
room for its two tokens (R114); any other firing stays. -/
def State.onFire (pe slot op : Nat) (g : Firing → State → State) (s : State) : State :=
  match (if s.domOn (quadDom pe) then Tbl.find (s.pe pe).fire slot else none) with
  | none => s
  | some f => if wOpc f.word = op && s.outRoom pe (slot % 2) f then g f (s.updPe pe fun p => { p with fire := p.fire.del slot }) else s

/-- An opcode that emits one value to both destinations. -/
def State.calc (pe slot pipe op : Nat) (v : Firing → Nat) (s : State) : State :=
  s.onFire pe slot op fun f s => s.emit pe pipe f (v f)

/-! ### Slots and firings in service (R132, R133) -/

/-- The lowest free number of a kind of slot. -/
def freeSlot (used : List Nat) (n : Nat) : Nat := ((List.range n).find? fun i => !used.contains i).getD n

def Pe.rspSlot (p : Pe) : Nat := freeSlot (p.svc.filterMap fun v => match v.slot with | .rsp n => some n | _ => none) 256
def Pe.ctxSlot (p : Pe) : Nat := freeSlot (p.svc.filterMap fun v => match v.slot with | .ctx n => some n | _ => none) 64
def Pe.trapSlot (p : Pe) : Nat := freeSlot (p.svc.filterMap fun v => match v.slot with | .trap n => some n | _ => none) 32
def Pe.wrSlot (p : Pe) : Nat :=
  let l := p.svc.filterMap fun v => match v.slot with | .writer n => some n | _ => none
  freeSlot l (l.length + 1)

/-- A firing enters service in a slot. -/
def State.serve (pe pipe : Nat) (f : Firing) (k : Slot) (s : State) : State :=
  s.updPe pe fun p => { p with svc := p.svc ++ [{ f := f, slot := k, pipe := pipe }] }

/-- The firing in service in a slot. -/
def Pe.inSlot (p : Pe) (k : Slot) : Option Svc := p.svc.find? fun v => v.slot == k

/-- A slot is freed. -/
def State.freeSvc (pe : Nat) (k : Slot) (s : State) : State :=
  s.updPe pe fun p => { p with svc := p.svc.filter fun v => v.slot != k }

/-- A slot whose answer will never come: free, where a kill sweep has completed its firing. -/
def State.dropSlot (pe : Nat) (k : Slot) (s : State) : State :=
  s.updPe pe fun p => { p with svc := p.svc.filter fun v => !(v.dead && v.slot == k) }

/-- A class R, C or T firing in service completes: its trace record (Table 04-7). -/
def State.traceDone (pe : Nat) (v : Svc) (s : State) : State := s.traceEnd pe v.pipe v.f

/-- The priority of a PE's atomic request (R360). -/
def pePrio (grp : Nat) : Nat := if grp = 0 then 15 else 8 - grp

/-! ### Timing-dependent results (R191, R440, R441, R445) -/

/-- The result of a job's firing that takes a timing-dependent source: journalled by the active, taken from its VALUE
record by the standby; none while it must wait. -/
def State.timedVal (pe : Nat) (f : Firing) (v : Nat) (poison : Bool) (s : State) : Option (Nat × Bool × State) :=
  let l := (s.logOf pe).getD pe
  if f.job = sysJob then some (v, poison, s)
  else
    match s.pair.values.find? fun x => x.1 == l && x.2.1 == f.tag with
    | some x => some (x.2.2.1, x.2.2.2, s.updPair fun p => { p with values := p.values.erase x })
    | none => if s.standby || !s.jrnlRoom then none else some (v, poison, s.jrnl 0x02 [l, f.tag, v, b2n poison] [])

/-- Whether a firing's result must wait for journal credit or for its VALUE record (R124, R441, R445). -/
def State.valueWaits (s : State) (pe : Nat) (f : Firing) : Bool := (s.timedVal pe f 0 false).isNone

end Sys2Proof.Machine
end

