-- ==== Sys2Proof/Machine/Flags.lean ====
section
/-! DEFINITION. Results as functions of operand values: the arithmetic and comparisons of w-bit words that actors (w = 64,
R148 to R153, R180, R185) and stewards (w = 32, R379) share. Operands are numbers below 2^w. -/

namespace Sys2Proof.Machine

def addW (w a b : Nat) : Nat := (a + b) % 2 ^ w
def subW (w a b : Nat) : Nat := (a + 2 ^ w - b % 2 ^ w) % 2 ^ w
def notW (w a : Nat) : Nat := 2 ^ w - 1 - a % 2 ^ w
def andnW (w a b : Nat) : Nat := a &&& notW w b
/-- Shifts use the low log2 w bits of b; the others are ignored. -/
def shlW (w a b : Nat) : Nat := (a * 2 ^ (b % w)) % 2 ^ w
def shrW (w a b : Nat) : Nat := a % 2 ^ w / 2 ^ (b % w)
def sarW (w a b : Nat) : Nat := wrap w (sext w a / 2 ^ (b % w))
def rotlW (w a b : Nat) : Nat := (shlW w a b) ||| (a % 2 ^ w / 2 ^ (w - b % w))
def ltS (w a b : Nat) : Bool := sext w a < sext w b
def leS (w a b : Nat) : Bool := sext w a ≤ sext w b
def minS (w a b : Nat) : Nat := if ltS w b a then b else a
def maxS (w a b : Nat) : Nat := if ltS w a b then b else a
def mulLo (w a b : Nat) : Nat := (a * b) % 2 ^ w
def mulHiU (w a b : Nat) : Nat := (a * b) / 2 ^ w % 2 ^ w
def mulHiS (w a b : Nat) : Nat := wrap w (sext w a * sext w b / 2 ^ w)
/-- Division by zero gives all ones and the remainder a; the most negative value by −1 gives a and 0 (R151). -/
def divU (w a b : Nat) : Nat := if b = 0 then 2 ^ w - 1 else a / b
def remU (a b : Nat) : Nat := if b = 0 then a else a % b
def divS (w a b : Nat) : Nat := if b = 0 then 2 ^ w - 1 else wrap w ((sext w a).tdiv (sext w b))
def remS (w a b : Nat) : Nat := if b = 0 then a else wrap w ((sext w a).tmod (sext w b))

/-- Bits of `a` placed at the set positions of `b`, in order (R180). -/
def scatter (a b : Nat) : Nat :=
  ((setBitsOf 64 b).foldl (fun (x : Nat × Nat) i => (x.1 + b2n (bit a x.2) * 2 ^ i, x.2 + 1)) (0, 0)).1

/-- The bits of `a` at the set positions of `b`, packed from bit 0 (R180). -/
def gather (a b : Nat) : Nat :=
  ((setBitsOf 64 b).foldl (fun (x : Nat × Nat) i => (x.1 + b2n (bit a i) * 2 ^ x.2, x.2 + 1)) (0, 0)).1

/-- Index of the lowest or the highest set bit; 64 for zero (R180). -/
def firstSet (high : Bool) (a : Nat) : Nat :=
  if a = 0 then 64 else if high then Nat.log2 a else ((setBitsOf 64 a).headD 64)

/-- Lane width of a reduction from its modifier (R185). -/
def laneW (m : Nat) : Nat := 8 * 2 ^ (m % 4)

/-- The lanes of a 64-bit value, lowest first. -/
def lanesOf (w a : Nat) : List Nat := (List.range (64 / w)).map fun i => a / 2 ^ (w * i) % 2 ^ w

/-- The value whose lanes are listed. -/
def ofLanes (w : Nat) (l : List Nat) : Nat := l.foldr (fun x r => x + 2 ^ w * r) 0

def hsum (m a : Nat) : Nat := (lanesOf (laneW m) a).foldl (· + ·) 0
def hmaxu (m a : Nat) : Nat := (lanesOf (laneW m) a).foldl Nat.max 0
def hminu (m a : Nat) : Nat := (lanesOf (laneW m) a).foldl Nat.min (2 ^ laneW m - 1)
def hnz (m a : Nat) : Nat := ofLanes 1 ((lanesOf (laneW m) a).map fun x => b2n (x != 0))
def vaddsu (m a b : Nat) : Nat :=
  ofLanes (laneW m) (List.zipWith (satAdd (2 ^ laneW m - 1)) (lanesOf (laneW m) a) (lanesOf (laneW m) b))

/-- A value read narrower than a word, sign- or zero-extended (R167, R379). -/
def extendN (w size : Nat) (signed : Bool) (v : Nat) : Nat := if signed then wrap w (sext (8 * size) v) else v % 2 ^ (8 * size)

end Sys2Proof.Machine
end

