-- ==== Sys2Proof/Machine/Actor.lean ====
section
/-! DEFINITION. The actor opcodes whose result is a function of their operands (R150 to R157, R180, R181, R185): each acts
on the firing of its opcode that the given fire half holds. -/

namespace Sys2Proof.Machine
open Sys2Proof

/-! ### Values -/

/-- ADD (R150): a + b. -/
def execAdd (pe pipe : Nat) (s : State) : Out :=
  State.plain (State.calc pe pipe pipe 0x01 fun f => addW 64 f.va f.vb) s

/-- SUB (R150): a − b. -/
def execSub (pe pipe : Nat) (s : State) : Out :=
  State.plain (State.calc pe pipe pipe 0x02 fun f => subW 64 f.va f.vb) s

/-- AND (R150). -/
def execAnd (pe pipe : Nat) (s : State) : Out :=
  State.plain (State.calc pe pipe pipe 0x03 fun f => f.va &&& f.vb) s

/-- OR (R150). -/
def execOr (pe pipe : Nat) (s : State) : Out :=
  State.plain (State.calc pe pipe pipe 0x04 fun f => f.va ||| f.vb) s

/-- XOR (R150). -/
def execXor (pe pipe : Nat) (s : State) : Out :=
  State.plain (State.calc pe pipe pipe 0x05 fun f => f.va ^^^ f.vb) s

/-- ANDN (R150): a and not b. -/
def execAndn (pe pipe : Nat) (s : State) : Out :=
  State.plain (State.calc pe pipe pipe 0x06 fun f => andnW 64 f.va f.vb) s

/-- SHL (R150). -/
def execShl (pe pipe : Nat) (s : State) : Out :=
  State.plain (State.calc pe pipe pipe 0x07 fun f => shlW 64 f.va f.vb) s

/-- SHR (R150): zero fill. -/
def execShr (pe pipe : Nat) (s : State) : Out :=
  State.plain (State.calc pe pipe pipe 0x08 fun f => shrW 64 f.va f.vb) s

/-- SAR (R150): sign fill. -/
def execSar (pe pipe : Nat) (s : State) : Out :=
  State.plain (State.calc pe pipe pipe 0x09 fun f => sarW 64 f.va f.vb) s

/-- ROTL (R150). -/
def execRotl (pe pipe : Nat) (s : State) : Out :=
  State.plain (State.calc pe pipe pipe 0x0A fun f => rotlW 64 f.va f.vb) s

/-- MIN (R150): signed. -/
def execMin (pe pipe : Nat) (s : State) : Out :=
  State.plain (State.calc pe pipe pipe 0x0B fun f => minS 64 f.va f.vb) s

/-- MAX (R150): signed. -/
def execMax (pe pipe : Nat) (s : State) : Out :=
  State.plain (State.calc pe pipe pipe 0x0C fun f => maxS 64 f.va f.vb) s

/-- MINU (R150). -/
def execMinu (pe pipe : Nat) (s : State) : Out :=
  State.plain (State.calc pe pipe pipe 0x0D fun f => Nat.min f.va f.vb) s

/-- MAXU (R150). -/
def execMaxu (pe pipe : Nat) (s : State) : Out :=
  State.plain (State.calc pe pipe pipe 0x0E fun f => Nat.max f.va f.vb) s

/-- MUL (R150): low 64 bits of the product. -/
def execMul (pe pipe : Nat) (s : State) : Out :=
  State.plain (State.calc pe pipe pipe 0x10 fun f => mulLo 64 f.va f.vb) s

/-- MULHU (R150): high 64 bits of the unsigned product. -/
def execMulhu (pe pipe : Nat) (s : State) : Out :=
  State.plain (State.calc pe pipe pipe 0x11 fun f => mulHiU 64 f.va f.vb) s

/-- MULHS (R150): high 64 bits of the signed product. -/
def execMulhs (pe pipe : Nat) (s : State) : Out :=
  State.plain (State.calc pe pipe pipe 0x12 fun f => mulHiS 64 f.va f.vb) s

/-- DIVU (R151), on the iterative unit. -/
def execDivu (pe pipe : Nat) (s : State) : Out :=
  State.plain (State.calc pe (2 + pipe) pipe 0x14 fun f => divU 64 f.va f.vb) s

/-- DIVS (R151), on the iterative unit. -/
def execDivs (pe pipe : Nat) (s : State) : Out :=
  State.plain (State.calc pe (2 + pipe) pipe 0x15 fun f => divS 64 f.va f.vb) s

/-- REMU (R151), on the iterative unit. -/
def execRemu (pe pipe : Nat) (s : State) : Out :=
  State.plain (State.calc pe (2 + pipe) pipe 0x16 fun f => remU f.va f.vb) s

/-- REMS (R151), on the iterative unit. -/
def execRems (pe pipe : Nat) (s : State) : Out :=
  State.plain (State.calc pe (2 + pipe) pipe 0x17 fun f => remS 64 f.va f.vb) s

/-- RDTIME (R152, R191): TIME in the fc of issue; the firing waits for journal credit, or in the standby for its VALUE
record. -/
def execRdtime (pe pipe : Nat) (s : State) : Out :=
  State.inDom (quadDom pe) (fun s =>
    match Tbl.find (s.pe pe).fire pipe with
    | none => s
    | some f =>
      if s.valueWaits pe f then s
      else
        s.onFire pe pipe 0x18 fun f s =>
          match s.timedVal pe f f.issued f.poisoned with
          | none => s
          | some (v, p, s1) => s1.emitAs pe pipe f v p f.iter f.outFlow) s

/-- CEQ (R153). -/
def execCeq (pe pipe : Nat) (s : State) : Out :=
  State.plain (State.calc pe pipe pipe 0x20 fun f => b2n (f.va == f.vb)) s

/-- CNE (R153). -/
def execCne (pe pipe : Nat) (s : State) : Out :=
  State.plain (State.calc pe pipe pipe 0x21 fun f => b2n (f.va != f.vb)) s

/-- CLT (R153): signed. -/
def execClt (pe pipe : Nat) (s : State) : Out :=
  State.plain (State.calc pe pipe pipe 0x22 fun f => b2n (ltS 64 f.va f.vb)) s

/-- CLE (R153): signed. -/
def execCle (pe pipe : Nat) (s : State) : Out :=
  State.plain (State.calc pe pipe pipe 0x23 fun f => b2n (leS 64 f.va f.vb)) s

/-- CLTU (R153). -/
def execCltu (pe pipe : Nat) (s : State) : Out :=
  State.plain (State.calc pe pipe pipe 0x24 fun f => b2n (decide (f.va < f.vb))) s

/-- CLEU (R153). -/
def execCleu (pe pipe : Nat) (s : State) : Out :=
  State.plain (State.calc pe pipe pipe 0x25 fun f => b2n (decide (f.va ≤ f.vb))) s

/-- BTST (R153): bit b[5:0] of a. -/
def execBtst (pe pipe : Nat) (s : State) : Out :=
  State.plain (State.calc pe pipe pipe 0x26 fun f => b2n (bit f.va (f.vb % 64))) s

/-- FAN (R153): a to both destinations. -/
def execFan (pe pipe : Nat) (s : State) : Out :=
  State.plain (State.calc pe pipe pipe 0x2B fun f => f.va) s

/-- GETTAG (R161): CTX and ITER of the firing, ACT and PORT of the modifier. -/
def execGettag (pe pipe : Nat) (s : State) : Out :=
  State.plain (State.calc pe pipe pipe 0x36 fun f => f.ctx * 2 ^ 44 + bits (wMod f.word) 13 0 * 2 ^ 30 + f.iter * 4 + bits (wMod f.word) 15 14) s

/-- POPC (R180). -/
def execPopc (pe pipe : Nat) (s : State) : Out :=
  State.plain (State.calc pe pipe pipe 0x80 fun f => popcount 64 f.va) s

/-- FFS (R180): lowest set bit, or highest when modifier bit 0 is set. -/
def execFfs (pe pipe : Nat) (s : State) : Out :=
  State.plain (State.calc pe pipe pipe 0x81 fun f => firstSet (bit (wMod f.word) 0) f.va) s

/-- BITSCATTER (R180). -/
def execBitscatter (pe pipe : Nat) (s : State) : Out :=
  State.plain (State.calc pe pipe pipe 0x82 fun f => scatter f.va f.vb) s

/-- BITGATHER (R180). -/
def execBitgather (pe pipe : Nat) (s : State) : Out :=
  State.plain (State.calc pe pipe pipe 0x83 fun f => gather f.va f.vb) s

/-- HSUM (R185). -/
def execHsum (pe pipe : Nat) (s : State) : Out :=
  State.plain (State.calc pe pipe pipe 0x90 fun f => hsum (wMod f.word) f.va) s

/-- HMAXU (R185). -/
def execHmaxu (pe pipe : Nat) (s : State) : Out :=
  State.plain (State.calc pe pipe pipe 0x91 fun f => hmaxu (wMod f.word) f.va) s

/-- HMINU (R185). -/
def execHminu (pe pipe : Nat) (s : State) : Out :=
  State.plain (State.calc pe pipe pipe 0x92 fun f => hminu (wMod f.word) f.va) s

/-- HNZ (R185). -/
def execHnz (pe pipe : Nat) (s : State) : Out :=
  State.plain (State.calc pe pipe pipe 0x93 fun f => hnz (wMod f.word) f.va) s

/-- VADDSU (R185). -/
def execVaddsu (pe pipe : Nat) (s : State) : Out :=
  State.plain (State.calc pe pipe pipe 0x94 fun f => vaddsu (wMod f.word) f.va f.vb) s

/-! ### Steering (R154, R155) -/

/-- SWITCH (R154): a to DST0 when bit r mod 64 of c is set, else to DST1. -/
def execSwitch (pe pipe : Nat) (s : State) : Out :=
  State.plain (State.onFire pe pipe 0x28 fun f s =>
    s.emit1 pe pipe f (if bit f.vc (f.vb % 64) then 0 else 1) f.va f.poisoned f.iter f.outFlow) s

/-- MERGE (R154): a when c[0] is set, else r, to both destinations. -/
def execMerge (pe pipe : Nat) (s : State) : Out :=
  State.plain (State.calc pe pipe pipe 0x29 fun f => if bit f.vc 0 then f.va else f.vb) s

/-- GATE (R154): a to both destinations when bit r mod 64 of c is set, else nothing. -/
def execGate (pe pipe : Nat) (s : State) : Out :=
  State.plain (State.onFire pe pipe 0x2A fun f s => if bit f.vc (f.vb % 64) then s.emit pe pipe f f.va else s) s

/-- SETFLOW (R155): a with FLOW b[9:0]. -/
def execSetflow (pe pipe : Nat) (s : State) : Out :=
  State.plain (State.onFire pe pipe 0x2C fun f s => s.emitAs pe pipe f f.va f.poisoned f.iter (f.vb % 1024)) s

/-! ### Iterations (R157) -/

/-- A firing's result with another ITER, or fault 0x21 when it leaves 28 bits. -/
def State.withIter (pe pipe : Nat) (f : Firing) (it : Int) (s : State) : State :=
  if 0 ≤ it && it < 2 ^ 28 then s.emitAs pe pipe f f.va f.poisoned it.toNat f.outFlow else s.firingFault pe 0x21 f

/-- NEXTITER (R157): ITER advanced by the sign-extended modifier; 0 selects +1. -/
def execNextiter (pe pipe : Nat) (s : State) : Out :=
  State.plain (State.onFire pe pipe 0x30 fun f s =>
    let m := wImm16 f.word
    s.withIter pe pipe f ((f.iter : Int) + if m = 0 then 1 else sext 16 m)) s

/-- SETITER (R157): ITER set to b. -/
def execSetiter (pe pipe : Nat) (s : State) : Out :=
  State.plain (State.onFire pe pipe 0x31 fun f s => s.withIter pe pipe f (f.vb : Int)) s

/-! ### UNSCRAMBLE (R181) -/

/-- A field of a through an unscramble map of shift sh. -/
def unscrambled (sh : Nat) (tab : Tbl Nat) (a : Nat) : Nat :=
  setBits a (sh + 11) sh (Tbl.get 0 tab (bits a (sh + 11) sh))

/-- UNSCRAMBLE (R181): fault 0x27 on reserved bits of b or a map that is not loaded. -/
def execUnscramble (pe pipe : Nat) (s : State) : Out :=
  State.plain (State.onFire pe pipe 0x84 fun f s =>
    if 16 ≤ f.vb then s.firingFault pe 0x27 f
    else
      match Tbl.find s.maps f.vb with
      | none => s.firingFault pe 0x27 f
      | some (sh, tab) => s.emit pe pipe f (unscrambled sh tab f.va)) s

end Sys2Proof.Machine
end

