-- ==== Sys2Proof/Machine/ActorReq.lean ====
section
/-! DEFINITION. The actor opcodes that ask another unit (R158 to R179, R182, R188, R189): memory, tally units, the context
manager, lane groups, outlets and stewards, and the responses that complete their firings. -/

namespace Sys2Proof.Machine
open Sys2Proof

/-! ### Memory (R162 to R168, R186) -/

/-- A memory request leaves the PE in a response slot. -/
def State.memSend (pe pipe : Nat) (f : Firing) (op : MemOp) (shelf : Bool) (addr : Nat) (s : State) : State :=
  let k := (s.pe pe).rspSlot
  ((s.serve pe pipe f (.rsp k)).updPe pe fun p => { p with reqs := p.reqs + 1 }).send 1 0 1000 (.pe pe)
    (if shelf then .shelf else .dc (s.chanOfAddr addr))
    (.mem { op := op, shelf := shelf, addr := addr, b := f.vb, c := f.vc, pe := pe, slot := k, ctx := f.ctx,
            prio := pePrio f.grp, since := s.time, seq := (s.pe pe).reqs })

/-- An I-structure request for an element: fault 0x22 beyond the window (R162). -/
def State.istrSend (pe pipe : Nat) (f : Firing) (op : MemOp) (i : Nat) (s : State) : State :=
  let j := s.job f.job
  if j.istrElems ≤ i then s.firingFault pe 0x22 f else s.memSend pe pipe f op false (j.istrBase + 16 * i)

/-- ILOAD (R162, R163): element a, or a + b in the DR form. A poisoned operand does not stop it (R186). -/
def execIload (pe pipe : Nat) (s : State) : Out :=
  State.plain (State.onFire pe pipe 0x40 fun f s =>
    s.istrSend pe pipe f .iload (if wArity f.word = 0 then f.va else addW 64 f.va f.vb)) s

/-- ISTORE (R162): element a takes b. -/
def execIstore (pe pipe : Nat) (s : State) : Out :=
  State.plain (State.onFire pe pipe 0x41 fun f s =>
    if f.poisoned then s.poisonStop pe pipe f else s.istrSend pe pipe f .istore f.va) s

/-- RESET (R162): element a becomes empty. -/
def execResetElem (pe pipe : Nat) (s : State) : Out :=
  State.plain (State.onFire pe pipe 0x42 fun f s =>
    if f.poisoned then s.poisonStop pe pipe f else s.istrSend pe pipe f .ireset f.va) s

/-- The first Shelf offset of the peg alias, and of the job area (Table 10-9). -/
def pegAlias : Nat := 0x7FE000
def shelfJobArea : Nat := 0x400000

/-- A window access of n bytes (R166, R167): the lowest fault, or the memory and the address. `pegOk` says whether the
opcode is one that the peg alias accepts (R363). -/
def State.winAddr (s : State) (f : Firing) (a n : Nat) (pegOk : Bool) : Except Nat (Bool × Nat) :=
  let j := s.job f.job
  let sp := bits a 63 62
  let off := bits a 61 0
  let size := if sp = 0 then j.dataSize else j.shelfSize
  let addr := if sp = 0 then j.dataBase + off else shelfJobArea + j.shelfBase + off
  let alias_ := sp = 1 && pegAlias < addr + n && addr < pegAlias + 0x2000
  match lowest [(0x27, 2 ≤ sp), (0x22, sp < 2 && size < off + n), (0x23, off % n != 0), (0x27, alias_ && !pegOk)] with
  | some c => .error c
  | none => .ok (sp = 1, addr)

/-- A window request, or its fault. -/
def State.winSend (pe pipe : Nat) (f : Firing) (op : MemOp) (a n : Nat) (pegOk : Bool) (s : State) : State :=
  match s.winAddr f a n pegOk with
  | .error c => s.firingFault pe c f
  | .ok (shelf, addr) => s.memSend pe pipe f op shelf addr

/-- Size in bytes from a modifier's [1:0] (R167). -/
def accSize (m : Nat) : Nat := 2 ^ (3 - m % 4)

/-- LD (R166, R167): the M form takes size and sign from the modifier, the DR form reads 8 bytes at a + b. -/
def execLdMem (pe pipe : Nat) (s : State) : Out :=
  State.plain (State.onFire pe pipe 0x50 fun f s =>
    if wArity f.word = 0 then
      let n := accSize (wMod f.word)
      s.winSend pe pipe f (.ld n (bit (wMod f.word) 2)) f.va n (n == 8)
    else s.winSend pe pipe f (.ld 8 false) (addW 64 f.va f.vb) 8 true) s

/-- ST (R166, R167): b at address a; 8 bytes when b is an immediate. -/
def execStMem (pe pipe : Nat) (s : State) : Out :=
  State.plain (State.onFire pe pipe 0x51 fun f s =>
    if f.poisoned then s.poisonStop pe pipe f
    else
      let n := if wImmSel f.word = 0 then accSize (wMod f.word) else 8
      s.winSend pe pipe f (.st n) f.va n (n == 8 && f.vb == 0)) s

/-- A far atomic of the given operation at address a (R168). -/
def State.atomic (pe pipe op : Nat) (m : MemOp) (pegOk : Firing → Bool) (s : State) : State :=
  s.onFire pe pipe op fun f s =>
    if f.poisoned then s.poisonStop pe pipe f else s.winSend pe pipe f m f.va 8 (pegOk f)

/-- SWAP (R168): word = b; at the peg alias b = 1 acquires a peg (R363). -/
def execSwapMem (pe pipe : Nat) (s : State) : Out := State.plain (State.atomic pe pipe 0x52 .swap fun f => f.vb == 1) s
/-- CAS (R168): if word = b then word = c. -/
def execCasMem (pe pipe : Nat) (s : State) : Out := State.plain (State.atomic pe pipe 0x53 .cas fun _ => false) s
/-- FADD (R168): word = word + b. -/
def execFaddMem (pe pipe : Nat) (s : State) : Out := State.plain (State.atomic pe pipe 0x54 .fadd fun _ => false) s
/-- FOR (R168): word = word or b. -/
def execFarOr (pe pipe : Nat) (s : State) : Out := State.plain (State.atomic pe pipe 0x55 .for_ fun _ => false) s
/-- FMAXU (R168): word = unsigned max(word, b). -/
def execFmaxuMem (pe pipe : Nat) (s : State) : Out := State.plain (State.atomic pe pipe 0x56 .fmaxu fun _ => false) s

/-- TALLY (R182): a request to the tally unit that b[1:0] names. -/
def execTally (pe pipe : Nat) (s : State) : Out :=
  State.plain (State.onFire pe pipe 0x85 fun f s =>
    if f.poisoned then s.poisonStop pe pipe f
    else
      let u := bits f.vb 1 0
      let op := bits f.vb 4 2
      match lowest [(0x26, s.nTu ≤ u), (0x27, f.vb / 2 ^ 12 != 0 || 6 ≤ op)] with
      | some c => s.firingFault pe c f
      | none =>
        let k := (s.pe pe).rspSlot
        (s.serve pe pipe f (.rsp k)).sendChk 1 0 1000 (.pe pe) (.tu u)
          (.tally { pe := pe, slot := k, ctx := f.ctx, a := f.va, op := op, space := bits f.vb 11 5 }) (some f.operand)) s

/-! ### Context manager (R158 to R161) -/

/-- The token that a class C request hands to the context manager. -/
def CtxAsk.tok : CtxAsk → Option Tok
  | .newctx _ _ t => some t
  | .send t _ => some t
  | .ret t _ => some t
  | .free => none
  | .inject t => some t

/-- A class C request leaves the PE in a context-request slot. -/
def State.ctxSend (pe pipe : Nat) (f : Firing) (k : CtxAsk) (s : State) : State :=
  let n := (s.pe pe).ctxSlot
  (s.serve pe pipe f (.ctx n)).sendChk 1 0 1000 (.pe pe) .cm (.ctx pe n f.ctx k) k.tok

/-- Whether NEWCTX's block, entry actor and entry port are good (fault 0x28 otherwise). -/
def State.entryOk (s : State) (b : Nat) : Bool :=
  match s.blockOk (bits b 9 0) with
  | none => false
  | some k =>
    match k.words[bits b 23 10]? with
    | none => false
    | some w => (waitSet w).contains (bits b 25 24)

/-- NEWCTX (R158). -/
def execNewctx (pe pipe : Nat) (s : State) : Out :=
  State.plain (State.onFire pe pipe 0x32 fun f s =>
    match lowest [(0x27, f.vb / 2 ^ 27 != 0), (0x28, !s.entryOk f.vb)] with
    | some c => s.firingFault pe c f
    | none =>
      let link := if bit f.vb 26 then
          some (tagOf f.ctx (wDst1 f.word) f.iter + wPort1 f.word) else none
      s.ctxSend pe pipe f (.newctx (bits f.vb 9 0) link (f.carry f.ctx (bits f.vb 23 10) 0 (bits f.vb 25 24)))) s

/-- SEND (R159): a to the tag b, through the context manager. -/
def execSendTag (pe pipe : Nat) (s : State) : Out :=
  State.plain (State.onFire pe pipe 0x33 fun f s =>
    if bits f.vb 1 0 = 3 then s.firingFault pe 0x27 f
    else s.ctxSend pe pipe f
      (.send (f.carry (bits f.vb 63 44) (bits f.vb 43 30) (bits f.vb 29 2) (bits f.vb 1 0)) f.job)) s

/-- RETURN (R160): a to the context's return link; modifier bit 0 then frees the context. -/
def execReturnLink (pe pipe : Nat) (s : State) : Out :=
  State.plain (State.onFire pe pipe 0x34 fun f s =>
    if f.ctx = 0 then s.firingFault pe 0x29 f
    else s.ctxSend pe pipe f (.ret (f.carry f.ctx f.act f.iter 0) (bit (wMod f.word) 0))) s

/-- FREECTX (R160): the firing's own context is freed. -/
def execFreectx (pe pipe : Nat) (s : State) : Out :=
  State.plain (State.onFire pe pipe 0x35 fun f s =>
    if f.ctx = 0 then s.firingFault pe 0x29 f else s.ctxSend pe pipe f .free) s

/-! ### Lane operations (R169 to R176) -/

/-- The job's site map and cohort table, empty for the system context (R170). -/
def State.siteInMap (s : State) (job site : Nat) : Bool := site < s.nLanes && bit (s.job job).sites site

/-- A lane operation's fault (R170): 0x26 outside the grant, 0x27 reserved bits. -/
def State.laneFault (s : State) (f : Firing) (bad : Bool) : Option Nat :=
  let a := f.va
  let inGrant := if bit a 8 then bits a 7 0 < (s.job f.job).cohortCount else s.siteInMap f.job (bits a 7 0)
  lowest [(0x26, !inGrant), (0x27, a / 2 ^ 9 != 0 || bad)]

/-- The stand-in notice's VALUE (R176). -/
def standIn (op : Nat) : Nat := op * 2 ^ 28 + DENIED * 2 ^ 32

/-- The lane token leaves the PE (R171, R339): to the site's lane group, or to the quad router for a cohort. -/
def State.laneSendTok (pe pipe : Nat) (f : Firing) (op payload sel : Nat) (s : State) : State :=
  let t := Tok.sealed
    { ctx := BitVec.ofNat 20 f.ctx, act := BitVec.ofNat 14 (wDst0 f.word), iter := BitVec.ofNat 28 f.iter,
      port := BitVec.ofNat 2 (wPort0 f.word),
      value := BitVec.ofNat 64 (op + b2n (bit sel 8) * 4 + bits sel 7 0 * 8 + payload * 2 ^ 11),
      flow := BitVec.ofNat 10 f.outFlow, grp := BitVec.ofNat 3 (wGrp f.word), poison := false, kind := 0 }
  if bit sel 8 then
    s.updNet fun n => { n with cohortQ := n.cohortQ ++
      [{ net := 0, chan := chanOf (wGrp f.word), router := routerOf (.pe pe), src := 2 * pe + pipe, dst := .lg 0,
         body := .lane t f.job pe (some ((s.job f.job).cohortFirst + bits sel 7 0)) }] }
  else s.send 0 (chanOf (wGrp f.word)) (2 * pe + pipe) (.pe pe) (.lg (bits sel 7 0 / 8)) (.lane t f.job pe none)

/-- A lane opcode (R169 to R176): its token and the issue token to DST1, or under poison the stand-in notice. -/
def State.laneOpcode (pe pipe op : Nat) (f : Firing) (fault : Option Nat) (payload sel : Nat) (s : State) : State :=
  if f.poisoned then
    ((s.emit1 pe pipe f 0 (standIn op) true f.iter f.outFlow).emit1 pe pipe f 1 sel true f.iter f.outFlow).event cPe pe
      0x8013 f.tag
  else
    match fault with
    | some c => s.firingFault pe c f
    | none => (s.laneSendTok pe pipe f op payload sel).emit1 pe pipe f 1 sel false f.iter f.outFlow

/-- BURST (R169). -/
def execBurstSite (pe pipe : Nat) (s : State) : Out :=
  State.plain (State.onFire pe pipe 0x60 fun f s =>
    s.laneOpcode pe pipe 0 f (s.laneFault f (f.vb / 2 ^ 53 != 0)) (bits f.vb 52 0) f.va) s

/-- HALT (R172): the selector, or the site of a fail token. -/
def execHaltSite (pe pipe : Nat) (s : State) : Out :=
  State.plain (State.onFire pe pipe 0x61 fun f s =>
    match f.a with
    | some t =>
      if t.kind == 1 then s.laneOpcode pe pipe 1 f none 0 (bits t.flow.toNat 9 3)
      else s.laneOpcode pe pipe 1 f (s.laneFault f false) 0 f.va
    | none => s.laneOpcode pe pipe 1 f (s.laneFault f false) 0 f.va) s

/-- BRANCH (R169). -/
def execBranchSite (pe pipe : Nat) (s : State) : Out :=
  State.plain (State.onFire pe pipe 0x62 fun f s =>
    s.laneOpcode pe pipe 2 f (s.laneFault f (f.vb / 2 ^ 53 != 0)) (bits f.vb 52 0) f.va) s

/-- SITECTL (R175): a command of Table 05-11. -/
def execSitectl (pe pipe : Nat) (s : State) : Out :=
  State.plain (State.onFire pe pipe 0x63 fun f s =>
    s.laneOpcode pe pipe 3 f (s.laneFault f (f.vb / 2 ^ 8 != 0 || f.vb % 256 = 0 || 6 < f.vb % 256)) (f.vb % 256) f.va) s

/-! ### Outlets (R177 to R179) -/

/-- A COMMIT's requests to both outlets wait for each other's answers (R179). -/
def State.pairSlots (pe a b : Nat) (s : State) : State :=
  let f (v : Svc) : Svc :=
    if v.slot == .writer a then { v with twin := some b } else if v.slot == .writer b then { v with twin := some a } else v
  s.updPe pe fun p => { p with svc := p.svc.map f }

/-- A request to an outlet's writer port, in a slot of its own (R178). -/
def State.outSend (pe pipe o : Nat) (f : Firing) (k : OutAsk) (dead : Bool) (s : State) : State :=
  let n := (s.pe pe).wrSlot
  (s.updPe pe fun p => { p with svc := p.svc ++ [{ f := f, slot := .writer n, pipe := pipe, dead := dead }] }).sendChk 1 0 1000
    (.pe pe) (.outlet o (quadOf pe % 4)) (.out pe n f.ctx f.outFlow k) (some f.operand)

/-- APPEND (R177, R178). A poisoned control word sends a poison mark to both outlets; the firing completes with the north
outlet's answer. -/
def execAppendRec (pe pipe : Nat) (s : State) : Out :=
  State.plain (State.onFire pe pipe 0x70 fun f s =>
    if f.ctlPoisoned then (s.outSend pe pipe 0 f .mark false).outSend pe pipe 1 f .mark true
    else if f.ctl / 2 ^ 13 != 0 || 9 ≤ bits f.ctl 4 1 then s.firingFault pe 0x27 f
    else s.outSend pe pipe (bits f.ctl 0 0) f
      (.append f.ctl f.va (match f.a with | some t => t.poison | none => false)) false) s

/-- COMMIT (R177 to R179). A poisoned control word acts on its key in both outlets. -/
def execCommitRec (pe pipe : Nat) (s : State) : Out :=
  State.plain (State.onFire pe pipe 0x71 fun f s =>
    if f.ctlPoisoned then
      let s1 := s.outSend pe pipe 0 f .commitPoisoned false
      (s1.outSend pe pipe 1 f .commitPoisoned false).pairSlots pe (s.pe pe).wrSlot (s1.pe pe).wrSlot
    else if f.ctl / 2 ^ 2 != 0 then s.firingFault pe 0x27 f
    else s.outSend pe pipe (bits f.ctl 0 0) f (.commit f.ctl) false) s

/-! ### Reserved opcodes (R188, R189) -/

/-- A trap message (Table 05-19). An immediate stands in the image of the operand that it supplies, its CRC 0 (R60, R146). The
system context has no job number: the field is zero for its firings (log entry 108, DESIGN CHOICE). -/
def trapMsg (pe slot : Nat) (f : Firing) : TrapMsg :=
  let imm (sel : Nat) (o : Option Tok) : List Byte :=
    match o with
    | some t => t.image
    | none => if wImmSel f.word = sel then
        ({ ctx := BitVec.ofNat 20 f.ctx, act := BitVec.ofNat 14 f.act, iter := BitVec.ofNat 28 f.iter,
           port := BitVec.ofNat 2 (sel - 1), value := BitVec.ofNat 64 (f.imm.getD 0) } : Tok).image
      else zeros 20
  { time := f.issued, word := f.word, key := f.tag, pe := pe, slot := slot,
    present := b2n (f.a.isSome || wImmSel f.word = 1) + b2n (f.b.isSome || wImmSel f.word = 2) * 2
      + b2n (f.c.isSome || wImmSel f.word = 3) * 4,
    job := f.job % 4096, a := imm 1 f.a, b := imm 2 f.b, c := imm 3 f.c }

/-- RESERVED_OPCODE_TRAP (R188): a firing of a reserved opcode holds a trap slot and sends its trap message. -/
def execReservedOpcodeTrap (pe pipe : Nat) (s : State) : Out :=
  State.inDom (quadDom pe) (fun s =>
    match Tbl.find (s.pe pe).fire pipe with
    | none => s
    | some f =>
      if !opReserved (wOpc f.word) then s
      else
        let n := (s.pe pe).trapSlot
        ((s.updPe pe fun p => { p with fire := p.fire.del pipe }).serve pe pipe f (.trap n)).send 1 0 1000 (.pe pe) .stew
          (.trap (trapMsg pe n f))) s

/-- A trap return's flag bits of FLOW (R189). -/
def State.trapReturn (pe : Nat) (t : Tok) (v : Svc) (s : State) : State :=
  let fl := t.flow.toNat
  let k : Slot := .trap (fl % 32)
  if bit fl 8 then (s.freeSvc pe k).faultWith pe 0x2B (t.value.toNat % 2 ^ 16) { v.f with pipe := v.pipe }
  else
    match s.timedVal pe v.f t.value.toNat (t.poison || v.f.poisoned) with
    | none => s
    | some (x, ps, s0) =>
    let e (i : Nat) (s : State) : State := s.emit1 pe v.pipe v.f i x ps v.f.iter v.f.outFlow
    let s1 := when (bit fl 6) (e 1) (when (bit fl 5) (e 0) s0)
    if bit fl 7 then (s1.freeSvc pe k).traceDone pe v else s1

/-- TRAP_RETURN_ARRIVAL (R51, R189, R190): the oldest trap return at the PE. -/
def execTrapReturnArrival (pe : Nat) (s : State) : Out :=
  State.inDom (quadDom pe) (fun s =>
    match (s.pe pe).trapIn with
    | [] => s
    | t :: r =>
      let s1 := s.updPe pe fun p => { p with trapIn := r }
      if s1.staleAt pe t.ctx.toNat then s1.staleDrop pe 0 t
      else
        match (s1.pe pe).inSlot (.trap (t.flow.toNat % 32)) with
        | none => s1.tokenFault pe 6 0 t
        | some v =>
          if v.dead || v.f.tag != tagOf t.ctx.toNat t.act.toNat t.iter.toNat then s1.tokenFault pe 6 0 t
          else if !bit t.flow.toNat 8 && (s1.valueWaits pe v.f || !s1.outRoom pe v.pipe v.f) then s
          else s1.trapReturn pe t v) s

/-! ### Responses, replies and answers (R132, R133) -/

/-- The first of a PE's arrived responses of a kind, with the rest. -/
def Pe.nextRsp (p : Pe) (k : Body → Bool) : Option (Body × Pe) :=
  match p.rsp.find? k with
  | none => none
  | some b => some (b, { p with rsp := p.rsp.erase b })

/-- A firing in service completes with a value, or a fault; a dead one's late answer is discarded. -/
def State.complete (pe : Nat) (k : Slot) (fault : Nat) (g : Svc → State → State) (s : State) : State :=
  match (s.pe pe).inSlot k with
  | none => s
  | some v =>
    let s1 := s.freeSvc pe k
    if v.dead then s1 else if fault != 0 then s1.firingFault pe fault { v.f with pipe := v.pipe } else g v (s1.traceDone pe v)

/-- Whether an opcode's result is a timing-dependent source (R191). -/
def opTimed (o : Nat) : Bool := o == 0x18 || o == 0x50 || (0x52 ≤ o && o ≤ 0x56) || o == 0x85 || o == 0x71 || opReserved o

/-- A firing's completion emits its result, journalled or from the journal where its opcode is timing-dependent. -/
def State.emitTimed (pe : Nat) (v : Svc) (x : Nat) (poison : Bool) (s : State) : State :=
  if opTimed (wOpc v.f.word) then
    match s.timedVal pe v.f x poison with
    | none => s
    | some (y, p, s1) => s1.emitAs pe v.pipe v.f y p v.f.iter v.f.outFlow
  else s.emitAs pe v.pipe v.f x poison v.f.iter v.f.outFlow

/-- Whether a firing's completion emits: SEND, RETURN and FREECTX emit nothing (R133). -/
def opEmits (o : Nat) : Bool := !(0x33 ≤ o && o ≤ 0x35)

/-- Whether the completion of the firing in a slot must wait: for room for its tokens (R114), or for its value (R441, R445). -/
def State.slotWaits (s : State) (pe : Nat) (k : Slot) (fault : Nat) : Bool :=
  match (s.pe pe).inSlot k with
  | none => false
  | some v => !v.dead && fault == 0 &&
      ((opEmits (wOpc v.f.word) && !s.outRoom pe v.pipe v.f) || (opTimed (wOpc v.f.word) && s.valueWaits pe v.f))

/-- MEMORY_RESPONSE (R133): the result is the value read, or the operand a for ST, ISTORE and RESET. -/
def execMemoryResponse (pe : Nat) (s : State) : Out :=
  State.inDom (quadDom pe) (fun s =>
    match (s.pe pe).nextRsp fun b => match b with | .rsp k _ _ fl => !s.slotWaits pe (.rsp k) fl | _ => false with
    | some (.rsp slot value poison fault, p) =>
      (s.updPe pe fun _ => p).complete pe (.rsp slot) fault fun v s =>
        let o := wOpc v.f.word
        let x := if o = 0x51 || o = 0x41 || o = 0x42 then v.f.va else value
        s.emitTimed pe v x (poison || v.f.poisoned)
    | _ => s) s

/-- CONTEXT_REPLY (R133): NEWCTX emits its base tag to DST0; SEND, RETURN and FREECTX emit nothing. -/
def execContextReply (pe : Nat) (s : State) : Out :=
  State.inDom (quadDom pe) (fun s =>
    match (s.pe pe).nextRsp fun b => match b with | .reply k _ fl => !s.slotWaits pe (.ctx k) fl | _ => false with
    | some (.reply slot value fault, p) =>
      (s.updPe pe fun _ => p).complete pe (.ctx slot) fault fun v s =>
        if wOpc v.f.word = 0x32 then s.emit1 pe v.pipe v.f 0 value v.f.poisoned v.f.iter v.f.outFlow else s
    | _ => s) s

/-- The first of two answers is kept with the firing that awaits the other (R179). -/
def State.keepPart (pe slot value : Nat) (s : State) : State :=
  let f (v : Svc) : Svc := if v.slot == .writer slot then { v with twin := none, part := some value } else v
  s.updPe pe fun p => { p with svc := p.svc.map f }

/-- OUTLET_ANSWER (R133, R178, R179): APPEND's result is its control word, COMMIT's is its result word. -/
def execOutletAnswer (pe : Nat) (s : State) : Out :=
  State.inDom (quadDom pe) (fun s =>
    match (s.pe pe).nextRsp fun b => match b with | .answer _ k _ fl => !s.slotWaits pe (.writer k) fl | _ => false with
    | some (.answer _ slot value fault, p) =>
      let s1 := s.updPe pe fun _ => p
      match (s1.pe pe).inSlot (.writer slot) with
      | none => s1
      | some v =>
        let s2 := s1.freeSvc pe (.writer slot)
        if v.dead then s2
        else if fault != 0 then s2.firingFault pe fault v.f
        else
          match v.twin with
          | some k => s2.keepPart pe k value
          | none =>
            let x := match v.part with | none => value | some y => commitBoth y value
            s2.emitTimed pe v (if wOpc v.f.word = 0x70 then v.f.ctl else x) v.f.poisoned
    | _ => s) s

end Sys2Proof.Machine
end

