-- ==== Sys2Proof/Machine/Disp.lean ====
section
/-! DEFINITION. The stewards' dispatchers (R385 to R390, R397) and the peg bank (R362 to R366): task states, flags and
routes, effective priority, selection, pegs and their hand-off. -/

namespace Sys2Proof.Machine
open Sys2Proof

/-! ### Tasks -/

def Steward.task (c : Steward) (k : Nat) : Task := Tbl.get {} c.tasks k
def State.task (s : State) (st k : Nat) : Task := (s.core st).task k
def State.updTask (st k : Nat) (f : Task → Task) (s : State) : State :=
  s.updCore st fun c => { c with tasks := c.tasks.upd {} k f }

/-- A write to a general register; g0 reads as zero (R370). -/
def putG (g : Tbl Nat) (r v : Nat) : Tbl Nat := if r = 0 then g else g.put r (v % 2 ^ 32)

/-- The four states of a slot that is not FREE (Table 11-8). -/
def tsStopped : Nat := 1
def tsReady : Nat := 2
def tsRunning : Nat := 3
def tsWaiting : Nat := 4

/-! ### Peg words (R362) -/

/-- Master codes: 0 host PF0, 1 BMC, 2 to 5 ST0 to ST3, 6 actor engine, 7 partner. -/
def masterSt (st : Nat) : Nat := 2 + st

/-- Pegs that a steward task holds. -/
def State.pegsOf (s : State) (st slot : Nat) : List Peg :=
  (s.pegs.filter fun p => p.2.held && p.2.owner == masterSt st && p.2.ownerId == slot).map (·.2)

/-- A task's base priority: above 13 is not granted to an extension task (R394). -/
def Task.base (t : Task) : Nat := if bit t.ctl 4 then bits t.ctl 3 0 else min 13 (bits t.ctl 3 0)

/-- The effective priority of a task (R389): its base and, along a chain of holders, that of every waiter. `fuel` bounds
the chain by the number of tasks. -/
def State.effPriN (s : State) : Nat → Nat → Nat → Nat
  | 0, st, slot => (s.task st slot).base
  | n + 1, st, slot =>
    (s.pegsOf st slot).foldl (fun m p => p.waits.foldl (fun m w => max m (s.effPriN n w.1 w.2.1)) m)
      (s.task st slot).base

/-- The effective priority of a task. -/
def State.effPri (s : State) (st slot : Nat) : Nat := s.effPriN 128 st slot

/-- The priority of a peg's highest waiter. -/
def State.waitPri (s : State) (p : Peg) : Nat := p.waits.foldl (fun m w => max m (s.effPri w.1 w.2.1)) 0

/-- The peg word of Table 10-10, bits [31:30] zero. -/
def State.pegWord (s : State) (n : Nat) : Nat :=
  let p := s.peg n
  if !p.held then 0
  else
    1 + p.owner * 2 + p.ownerId % 2 ^ 12 * 2 ^ 4
      + (if 2 ≤ p.owner ∧ p.owner ≤ 5 then s.effPri (p.owner - 2) p.ownerId else 0) * 2 ^ 16
      + s.waitPri p * 2 ^ 20 + b2n (!p.waits.isEmpty) * 2 ^ 24

def pegGranted : Nat := 2 ^ 31
def pegDenied : Nat := 2 ^ 30

/-! ### Selection (R390) -/

/-- A slot in its place among the READY tasks. -/
def Steward.readyIn (c : Steward) (slot seq : Nat) (at_ : Option Nat) : Steward :=
  { c with readySeq := seq, readyAt := at_,
           tasks := c.tasks.upd {} slot fun t => { t with state := tsReady, readySeq := seq, timeout := none } }

/-- A task becomes READY by an event, behind those that became so in earlier fc; those of one fc stand together (R397). -/
def State.ready (st slot : Nat) (s : State) : State :=
  s.updCore st fun c =>
    c.readyIn slot (if c.readyAt = some s.time then c.readySeq else c.readySeq + 1) (some s.time)

/-- The running task goes behind the READY tasks (R390). -/
def State.readyBehind (st slot : Nat) (s : State) : State := s.updCore st fun c => c.readyIn slot (c.readySeq + 1) none

/-- The READY task that the dispatcher takes next: highest effective priority, then the order of becoming READY, then the
lower slot. -/
def State.nextTask (s : State) (st : Nat) : Option Nat :=
  ((List.range 32).foldl (fun (b : Option (Nat × Nat × Nat)) k =>
    if (s.task st k).state != tsReady then b
    else
      let e := s.effPri st k
      let q := (s.task st k).readySeq
      match b with
      | none => some (k, e, q)
      | some (k0, e0, q0) => if e0 < e || (e == e0 && q < q0) then some (k, e, q) else some (k0, e0, q0))
    none).map (·.1)

/-- The running task's registers are saved in its slot. -/
def State.saveTask (st : Nat) (s : State) : State :=
  s.updCore st fun c => { c with tasks := c.tasks.upd {} c.cur fun t =>
    { t with g := c.g, pc := c.pc, psw := c.psw, rs := c.rs, stkLo := c.stkLo, stkHi := c.stkHi, xio := c.xio, xdr := c.xdr } }

/-- A slot's registers are loaded and its task runs. -/
def State.loadTask (st slot : Nat) (s : State) : State :=
  s.updCore st fun c =>
    let t := c.task slot
    { c with g := t.g, pc := t.pc, psw := t.psw, rs := t.rs, stkLo := t.stkLo, stkHi := t.stkHi, xio := t.xio, xdr := t.xdr,
             cur := slot, idle := false, switches := sat32 c.switches 1,
             tasks := c.tasks.put slot { t with state := tsRunning } }

/-- The core takes the next READY task, or stops its clock. -/
def State.selectTask (st : Nat) (s : State) : State :=
  if (s.core st).halted then s.updCore st fun c => { c with idle := true }
  else
    match s.nextTask st with
    | some k => s.loadTask st k
    | none => s.updCore st fun c => { c with idle := true }

/-- The task that an idle core took in this fc, and of which no instruction has run, gives way to one of a higher effective
priority, or of its own in a lower slot, that has become READY in the same fc (R397). -/
def State.rePick (st : Nat) (s : State) : State :=
  let c := s.core st
  match s.nextTask st with
  | some k =>
    let t := c.task c.cur
    if c.pickedAt = some s.time && c.pc == t.pc && c.rs == t.rs && c.g == t.g && (s.effPri st c.cur < s.effPri st k
        || (s.effPri st c.cur == s.effPri st k && (s.task st k).readySeq == t.readySeq && k < c.cur)) then
      (s.updCore st fun c =>
        { c with switches := c.switches - 1, tasks := c.tasks.upd {} c.cur fun t => { t with state := tsReady } }).loadTask st k
    else s
  | none => s

/-- An idle core takes a task that has become READY at once. -/
def State.wakeCore (st : Nat) (s : State) : State :=
  if (s.core st).idle then (s.updCore st fun c => { c with pickedAt := some s.time }).selectTask st else s.rePick st

/-- Whether a task runs on a core. -/
def State.running (s : State) (st : Nat) : Bool := !(s.core st).idle && !(s.core st).halted

/-- The running task leaves the core in a given state. -/
def State.leaveCore (st state : Nat) (s : State) : State :=
  ((s.saveTask st).updTask st (s.core st).cur fun t => { t with state := state }).selectTask st

/-! ### Hand-off and release (R363, R365, R388) -/

/-- The waiter that a released peg passes to. -/
def State.bestWaiter (s : State) (p : Peg) : Option (Nat × Nat × Nat) :=
  p.waits.foldl (fun b w =>
    match b with
    | none => some w
    | some v =>
      let ew := s.effPri w.1 w.2.1
      let ev := s.effPri v.1 v.2.1
      if ev < ew || (ev == ew && (w.1 < v.1 || (w.1 == v.1 && w.2.1 < v.2.1))) then some w else some v) none

/-- A peg as this fc has it: what another fc saw is gone. -/
def Peg.now (p : Peg) (t : Nat) : Peg := if p.asksAt = t then p else { p with won := none, lost := [], asksAt := t }

/-- The acquires of this fc that have not obtained a peg. -/
def State.askedNow (s : State) (n : Nat) : List PegAsk := ((s.peg n).now s.time).lost

/-- The order in which acquires of one fc obtain a free peg (R365): BMC, host PF0, partner, ST0 to ST3, and the actor engine by
physical PE. -/
def PegAsk.rank (q : PegAsk) : Nat :=
  if q.m = 1 then 0 else if q.m = 0 then 1 else if q.m = 7 then 2 else if q.m < 6 then 1 + q.m else 7 + q.pe

/-- The first of some acquires in that order. -/
def bestAsk (l : List PegAsk) : Option PegAsk :=
  l.foldl (fun b q => match b with | none => some q | some r => if q.rank < r.rank then some q else some r) none

/-- A waiter obtains a peg: its IN completes with the granted peg word. -/
def State.pegHand (n st slot rd : Nat) (s : State) : State :=
  let s1 := s.updPeg n fun p =>
    { p with held := true, owner := masterSt st, ownerId := slot, waits := p.waits.filter fun w => w != (st, slot, rd), won := none }
  let w := s1.pegWord n + pegGranted
  (((s1.updTask st slot fun t => { t with pegWait := none, g := putG t.g rd w }).note (.handed n st slot) 1).ready st
    slot).wakeCore st

/-- The result of an acquire of this fc becomes another peg word. -/
def State.pegTell (w : Nat) (q : PegAsk) (s : State) : State :=
  if q.cmd && 2 ≤ q.m then s.updCl fun c => { c with pegRes := w }
  else if 2 ≤ q.m && q.m < 6 then
    let st := q.m - 2
    if (s.core st).cur = q.id && !(s.core st).idle then s.updCore st fun c => { c with g := putG c.g q.rd w }
    else s.updTask st q.id fun t => { t with g := putG t.g q.rd w }
  else if q.m = 6 then
    s.updNet fun x => { x with transit := x.transit.map fun p =>
      match p.body with
      | .rsp k _ poison fault => if p.dst = .pe q.pe && k = q.place then { p with body := .rsp k w poison fault } else p
      | _ => p }
  else
    match s.pair.pegHeld[q.place]? with
    | some e => s.updPair fun p => { p with pegHeld := p.pegHeld.set q.place (e.1, w) }
    | none => s.updCl fun c => { c with pegRes := w }

/-- A peg is released. It passes to the best of the tasks that waited before this fc; with none, an acquire of this fc comes
after the release and obtains it; else it is free (R365). -/
def State.freePeg (n : Nat) (s : State) : State :=
  let p := (s.peg n).now s.time
  let newWait (w : Nat × Nat × Nat) : Bool := p.lost.any fun q => q.wait && q.m == masterSt w.1 && q.id == w.2.1
  match s.bestWaiter { p with waits := p.waits.filter fun w => !newWait w } with
  | some (st, slot, rd) => s.pegHand n st slot rd
  | none =>
    match bestAsk (p.lost.filter fun q => !q.wait || p.waits.contains (q.m - 2, q.id, q.rd)) with
    | none => { s with pegs := s.pegs.del n }
    | some q =>
      if q.wait then s.pegHand n (q.m - 2) q.id q.rd
      else
        let s1 := s.updPeg n fun _ =>
          { p with held := true, owner := q.m, ownerId := q.id, won := some q, lost := p.lost.erase q }
        s1.pegTell (s1.pegWord n + pegGranted) q

/-- PEG_DENY_CNT and PEG_FORCED_CNT (R369). -/
def State.ioBump (a : Nat) (s : State) : State := s.setReg (.io 1) a (sat32 (s.ioReg a 0) 1)

/-- Whether a master may use a peg's group; a change takes effect in the next fc (R364). -/
def State.pegRight (s : State) (m n : Nat) : Bool :=
  bit (s.oldOf (0x2C00 + n / 64) (s.ioReg (0x2C00 + n / 64) 0x3C)) m

/-- A task becomes a waiter and is suspended, if it still runs (R388). -/
def State.pegPark (n st slot rd : Nat) (s : State) : State :=
  let s1 := (s.updPeg n fun p => { p with waits := p.waits ++ [(st, slot, rd)] }).updTask st slot fun t =>
    { t with pegWait := some (n, rd) }
  if (s.core st).cur = slot && !(s.core st).idle then s1.leaveCore st tsWaiting
  else s1.updTask st slot fun t => { t with state := tsWaiting }

/-- A peg is won against others in one fc: the journal's ARBIT record (Table 13-3; log entry 45, DESIGN CHOICE). -/
def State.pegArbit (n : Nat) (win lose : PegAsk) (s : State) : State := s.jrnl 0x05 [0x1000 + n, win.m, lose.m, 0, 0] []

/-- An acquire (R363 to R365): the result word and the state. One that comes before the acquire that this fc has granted takes
the peg from it. -/
def State.pegAcq (q : PegAsk) (n : Nat) (s : State) : Nat × State :=
  let p := (s.peg n).now s.time
  if !s.pegRight q.m n then (pegDenied, s.ioBump 0x2C10)
  else if !p.held then
    let s1 := s.updPeg n fun _ => { p with held := true, owner := q.m, ownerId := q.id, won := some q }
    (s1.pegWord n + pegGranted, s1)
  else
    match p.won with
    | none => (s.pegWord n, s.updPeg n fun _ => { p with lost := p.lost ++ [q] })
    | some w =>
      if q.rank < w.rank then
        let s1 := (s.updPeg n fun _ =>
          { p with owner := q.m, ownerId := q.id, won := some q, lost := p.lost ++ [w] }).pegArbit n q w
        let s2 := if w.wait then s1.pegPark n (w.m - 2) w.id w.rd else s1.pegTell (s1.pegWord n) w
        (s2.pegWord n + pegGranted, s2)
      else (s.pegWord n, (s.updPeg n fun _ => { p with lost := p.lost ++ [q] }).pegArbit n w q)

/-- A read of a peg word; a master without the right gets nothing. -/
def State.pegRead (m n : Nat) (s : State) : Nat × State :=
  if s.pegRight m n then (s.pegWord n, s) else (0, s.ioBump 0x2C10)

/-- A release (R363): by the owning master, for the actor engine by the owning job. -/
def State.pegRel (m id n : Nat) (s : State) : State :=
  let p := s.peg n
  if !s.pegRight m n || !p.held || p.owner != m || (m == 6 && p.ownerId != id) then s.ioBump 0x2C10 else s.freePeg n

/-- Forced releases (R366): each peg that a test picks is released, counted, and reported. -/
def State.pegForce (f : Peg → Bool) (s : State) : State :=
  (s.pegs.filter fun p => p.2.held && f p.2).foldl (fun s p =>
    ((s.freePeg p.1).ioBump 0x2C11).event cSt p.2.owner 0x80FF (p.1 + p.2.owner * 2 ^ 10 + p.2.ownerId * 2 ^ 13)) s

/-- A task withdraws as a waiter. -/
def State.unwaitPeg (st slot : Nat) (s : State) : State :=
  { s with pegs := s.pegs.map fun p => (p.1, { p.2 with waits := p.2.waits.filter fun w => !(w.1 == st && w.2.1 == slot) }) }

/-! ### Flags, waits and routes (R386, R387) -/

/-- Whether a wait's condition holds. -/
def Task.met (t : Task) : Bool :=
  let f := t.flags &&& t.mask
  if t.all then f == t.mask && t.mask != 0 else f != 0

/-- A waiting task whose condition holds completes its wait and becomes READY. -/
def State.checkWait (st slot : Nat) (s : State) : State :=
  let t := s.task st slot
  if t.state = tsWaiting && t.pegWait.isNone && t.met then
    (((s.updTask st slot fun t =>
      { t with g := putG t.g t.waitRd (t.flags &&& t.mask), flags := t.flags ^^^ (t.flags &&& t.mask) }).note (.took st slot)
      (t.flags &&& t.mask)).ready st slot).wakeCore st
  else s

/-- Flags [30:0] of a slot are set; a FREE slot holds nothing, a halted steward drops the signal (R397). -/
def State.setFlags (st slot v : Nat) (s : State) : State :=
  if (s.core st).halted || (s.task st slot).state = 0 then s
  else ((s.updTask st slot fun t => { t with flags := t.flags ||| v % 2 ^ 31 }).note (.flags st slot) (v % 2 ^ 31)).checkWait st slot

/-- Flags of a slot are cleared, but for those that an event of this fc has set (R11, R397). -/
def State.clearFlags (st slot v : Nat) (s : State) : State :=
  let f := (s.task st slot).flags &&& v
  let k := f &&& s.notedBits (.flags st slot)
  s.updTask st slot fun t => { t with flags := t.flags ^^^ (f ^^^ k) }

/-- WAIT_TIMEOUT (R387): the time-out of a wait that is not satisfied expires, rd = 0 and the flags unchanged. A flag of the
same fc satisfies the wait (R397), so it is settled in the fc after. -/
def execWaitTimeout (st slot : Nat) (s : State) : Out :=
  State.timed (let t := s.task st slot; if t.state = tsWaiting then t.timeout.map (· + 1) else none) (fun s =>
    ((s.updTask st slot fun t => { t with g := putG t.g t.waitRd 0 }).ready st slot).wakeCore st) s

/-- PREEMPTION (R390): with PSW.ie set, a READY task of higher effective priority takes the core. -/
def execPreemption (st : Nat) (s : State) : Out :=
  State.plain (fun s =>
    let c := s.core st
    match s.nextTask st with
    | some k =>
      if s.running st && bit c.psw 1 && s.effPri st c.cur < s.effPri st k then
        (((s.saveTask st).readyBehind st c.cur).loadTask st k)
      else s
    | none => s) s

/-- DSP_TIMER_EXPIRY (R386): source 28 each period of DSP_TIMER. -/
def execDspTimerExpiry (s : State) : Out :=
  State.timed (if s.st.timer = 0 then none else some (s.st.timerAt + s.st.timer * US)) (fun s =>
    ((s.updCl fun c => { c with timerAt := c.timerAt + c.timer * US }).raise 28).askWake 2) s

/-! ### Start, stop, free (R385, R399) -/

/-- A task starts at its entry with g1 to g15 zero and an empty return stack, its mode from DSP_CTL. -/
def State.dspStart (st slot : Nat) (s : State) : State :=
  let t := s.task st slot
  if t.state != 0 && t.state != tsStopped || (s.core st).halted then s
  else
    ((s.updTask st slot fun t =>
      { t with g := [], rs := [], pc := t.entry, psw := 8 + bits t.ctl 4 4, module := bits t.ctl 15 8, pegWait := none }).ready
      st slot).wakeCore st

/-- The pegs handed to a task in this fc that it still holds. -/
def State.handedNow (s : State) (st slot : Nat) : List Nat :=
  (s.pegs.filter fun p => p.2.held && p.2.owner == masterSt st && p.2.ownerId == slot
    && s.noted (.handed p.1 st slot) != 0).map (·.1)

/-- A task stops; one that waits for a peg withdraws (R388). The stop applies before what has made the task READY in the same
fc (R397): the flags that it took stay, and a peg handed to it passes on. -/
def State.dspStop (st slot : Nat) (s : State) : State :=
  let t := s.task st slot
  if t.state = 0 || t.state = tsStopped then s
  else
    let s1 := s.updTask st slot fun t => { t with flags := t.flags ||| s.notedBits (.took st slot) }
    let s2 :=
      if t.state = tsRunning then s1.leaveCore st tsStopped
      else (s1.unwaitPeg st slot).updTask st slot fun t => { t with state := tsStopped, timeout := none, pegWait := none }
    (s.handedNow st slot).foldl (fun s n => s.freePeg n) s2

/-- A stopped slot becomes FREE and holds nothing; its settings stay. -/
def State.dspFree (st slot : Nat) (s : State) : State :=
  if (s.task st slot).state != tsStopped then s
  else s.updTask st slot fun t => { entry := t.entry, ctl := t.ctl }

/-- DSP_START, DSP_STOP and DSP_FREE (R385, R399). -/
def execDspStart (st slot : Nat) (s : State) : Out := State.plain (State.dspStart st slot) s
def execDspStop (st slot : Nat) (s : State) : Out := State.plain (State.dspStop st slot) s
def execDspFree (st slot : Nat) (s : State) : Out := State.plain (State.dspFree st slot) s

/-- DSP_FLAGS_SET (R386). -/
def execDspFlagsSet (st slot : Nat) (v : Word) (s : State) : Out := State.plain (State.setFlags st slot v.toNat) s

/-- DSP_XSIG (R386): from any steward; a signal to a halted steward is dropped. -/
def execDspXsig (st slot : Nat) (v : Word) (s : State) : Out := State.plain (State.setFlags st slot v.toNat) s

/-- DSP_FLAGS_CLR (R399). -/
def execDspFlagsClr (st slot : Nat) (v : Word) (s : State) : Out :=
  State.plain (State.clearFlags st slot (v.toNat % 2 ^ 31)) s

/-- DSP_CTL_WRITE (R399): base_pri acts at once, the rest at the slot's next start. -/
def execDspCtlWrite (st slot : Nat) (v : Word) (s : State) : Out :=
  State.plain (fun s => s.updTask st slot fun t => { t with ctl := v.toNat &&& 0xFF1F }) s

/-! ### Peg commands (R363, R443, R463) -/

/-- The result of a peg operation by the host or the BMC; the active holds it for its epoch (R443). -/
def State.pegResult (m w : Nat) (s : State) : State :=
  if m < 2 then
    match s.holdEpoch with
    | some e => s.updPair fun p => { p with pegHeld := p.pegHeld ++ [(e, w)] }
    | none => s.updCl fun c => { c with pegRes := w }
  else s.updCl fun c => { c with pegRes := w }

/-- The register offset that a host or BMC peg operation is journalled under (R463). -/
def pegReg (m n : Nat) (rel : Bool) : Nat :=
  if m = 0 then (if rel then 0x5000 else 0x4000) + 4 * n else (if rel then 0x2000 else 0x1000) + 4 * n

/-- An acquire by a master (R363, R364, R463). The standby ignores the host's and the BMC's. -/
def State.masterAcq (m id n : Nat) (s : State) : State :=
  if m < 2 && (s.standby || !s.hostRoom) then s
  else
    let (w, s1) := s.pegAcq { m := m, id := id, cmd := true, place := s.pair.pegHeld.length } n
    (when (m < 2) (State.jrnl 0x06 [m, pegReg m n false, 0] []) s1).pegResult m w

/-- PEG_ACQUIRE. -/
def execPegAcquire (master ownerId n : Nat) (s : State) : Out :=
  State.plain (State.regDom 1 (.pegAcquire master ownerId n) (State.masterAcq master ownerId n)) s

/-- An acquire-or-wait by the running task (R363, R388). -/
def State.pegAcqWait (st n rd : Nat) (s : State) : State :=
  let k := (s.core st).cur
  let (w, s1) := s.pegAcq { m := masterSt st, id := k, rd := rd, wait := true } n
  if bit w 31 || bit w 30 then s1.updCore st fun c => { c with g := putG c.g rd w } else s1.pegPark n st k rd

/-- PEG_ACQUIRE_WAIT (R363, R388). -/
def execPegAcquireWait (st n rd : Nat) (s : State) : Out :=
  State.plain (fun s => if s.running st then s.pegAcqWait st n rd else s) s

/-- A release by a master (R363, R463). -/
def State.masterRel (m id n : Nat) (s : State) : State :=
  if m < 2 && (s.standby || !s.hostRoom) then s
  else when (m < 2) (State.jrnl 0x06 [m, pegReg m n true, 0] []) (s.pegRel m id n)

/-- PEG_RELEASE. -/
def execPegRelease (master ownerId n : Nat) (s : State) : Out :=
  let c : Instr := .pegRelease master ownerId n
  let go : State → State := State.regDom 1 c (State.masterRel master ownerId n)
  State.plain (if master = 0 then State.pf0 c go else go) s

end Sys2Proof.Machine
end

