-- ==== Sys2Proof/Machine/Expand.lean ====
section
/-! DEFINITION. How a burst descriptor expands into vectors (R221, R224, R230 to R237, R240, R241, R255): templates, pin
codes, address walk, data terms, packing and the address sidecar. -/

namespace Sys2Proof.Machine
open Sys2Proof

/-! ### Sizes (R221, R224, R225) -/

/-- Pin slots per lane, and cycles per vector. -/
def slotsOf (wcode : Nat) : Nat := 4 * 2 ^ wcode
def cyclesOf (wcode : Nat) : Nat := 1024 / slotsOf wcode
def Site.w (x : Site) : Nat := slotsOf x.wcode
def Site.c (x : Site) : Nat := cyclesOf x.wcode

/-- N_λ = ⌈λ / T_v⌉ with T_v = 8 cyc_u / W ns (R224, R225). -/
def Site.nLead (x : Site) : Nat := cdiv (x.lead * x.w) (max 1 (8 * x.cycU))

/-! ### The indirect space (R230) -/

def Lane.word (l : Lane) (a : Nat) : Nat := Tbl.get 0 l.ind a

/-- Addresses that Table 07-2 lists. -/
def indListed (a : Nat) : Bool :=
  a < 0x10100 || (0x11000 ≤ a && a < 0x15010 && a != 0x15003 && a != 0x15007 && a != 0x1500B && a != 0x1500F) ||
    (0x15010 ≤ a && a ≤ 0x15012) || (0x15020 ≤ a && a < 0x15040) || (0x16000 ≤ a && a < 0x16100)

/-- The pin code of a slot in a cycle of a template. -/
def Lane.pin (l : Lane) (t c s : Nat) : Nat := bits (l.word (4 * (64 * t + c) + s / 8)) (4 * (s % 8) + 3) (4 * (s % 8))

/-- A template's length. -/
def Lane.tplLen (l : Lane) (t : Nat) : Nat := bits (l.word (0x10000 + t)) 5 0 + 1

/-- A byte of a descriptor (Table 07-4), and a little-endian field. -/
def Lane.descByte (l : Lane) (d o : Nat) : Nat := bits (l.word (0x11000 + 8 * d + o / 4)) (8 * (o % 4) + 7) (8 * (o % 4))
def Lane.descN (l : Lane) (d o n : Nat) : Nat :=
  (List.range n).foldl (fun v i => v + l.descByte d (o + i) * 256 ^ i) 0

/-- A descriptor's fields. -/
structure Desc where
  tpls : List Nat := []
  order : Nat := 0
  dpol : Bool := false
  mode : Nat := 0
  down : List Bool := []
  bg : Nat := 0
  reps : Nat := 0
  start : List Nat := []
  limit : List Nat := []
  inc : List Nat := []
  stream : Nat := 0
  used : Bool := false
  deriving DecidableEq, Repr

def Lane.desc (l : Lane) (d : Nat) : Desc :=
  let b := l.descByte d
  let c0 := b 4
  let c1 := b 5
  { tpls := (List.range (bits c0 1 0 + 1)).map b, order := bits c0 4 2, dpol := bit c0 5, mode := bits c0 7 6,
    down := [bit c1 0, bit c1 1, bit c1 2], bg := bits c1 4 3, reps := l.descN d 6 2,
    start := [l.descN d 8 3, l.descN d 0x10 2, b 0x14], limit := [l.descN d 0xC 3, l.descN d 0x12 2, b 0x15],
    inc := [l.descN d 0x16 2, l.descN d 0x18 2, b 0x1A], stream := l.descN d 0x1C 2, used := b 0 != 0 }

/-! ### The address walk (R236) -/

/-- The start of an axis (0 X, 1 Y, 2 Z), an origin replacing those of X and Y. -/
def Desc.startOf (d : Desc) (org : Option (Nat × Nat)) (q : Nat) : Nat :=
  match org with
  | none => d.start.getD q 0
  | some (x, y) => if q = 0 then x else if q = 1 then y else d.start.getD q 0

/-- Steps of an axis; an origin beyond the limit gives one. -/
def Desc.steps (d : Desc) (org : Option (Nat × Nat)) (q : Nat) : Nat :=
  let s := d.startOf org q
  let l := d.limit.getD q 0
  let i := max 1 (d.inc.getD q 1)
  if d.down.getD q false then (if s < l then 1 else (s - l) / i + 1) else (if l < s then 1 else (l - s) / i + 1)

/-- The axes from fastest to slowest (Table 07-5). -/
def orderAxes (o : Nat) : List Nat :=
  match o with
  | 0 => [0, 1, 2]
  | 1 => [1, 0, 2]
  | 2 => [0, 2, 1]
  | 3 => [2, 0, 1]
  | 4 => [1, 2, 0]
  | _ => [2, 1, 0]

/-- Addresses that the walk visits. -/
def Desc.addrs (d : Desc) (org : Option (Nat × Nat)) : Nat := d.steps org 0 * d.steps org 1 * d.steps org 2

/-- The value of an axis at the n-th address of the walk. -/
def Desc.axisAt (d : Desc) (org : Option (Nat × Nat)) (n q : Nat) : Nat :=
  let ax := orderAxes d.order
  let n0 := d.steps org (ax.getD 0 0)
  let n1 := d.steps org (ax.getD 1 0)
  let k := if ax.getD 0 0 = q then n % n0 else if ax.getD 1 0 = q then n / n0 % n1 else n / (n0 * n1)
  let s := d.startOf org q
  let i := d.inc.getD q 0
  if d.down.getD q false then s - k * i else s + k * i

/-- The generator address at the n-th address of the walk. -/
def Desc.addrAt (d : Desc) (org : Option (Nat × Nat)) (n : Nat) : Nat :=
  d.axisAt org n 2 * 2 ^ 40 + d.axisAt org n 1 * 2 ^ 24 + d.axisAt org n 0

/-- The generator address at the start, for mode 2. -/
def Desc.addr0 (d : Desc) (org : Option (Nat × Nat)) : Nat :=
  d.startOf org 2 * 2 ^ 40 + d.startOf org 1 * 2 ^ 24 + d.startOf org 0

/-- Cycles of one pass of the body. -/
def Lane.bodyLen (l : Lane) (d : Desc) : Nat := (d.tpls.map l.tplLen).foldl (· + ·) 0

/-- A stream's base and record count (Table 07-2). -/
def Lane.streamBase (l : Lane) (n : Nat) : Nat := l.word (0x16000 + 4 * n) + l.word (0x16001 + 4 * n) * 2 ^ 32
def Lane.streamCount (l : Lane) (n : Nat) : Nat := l.word (0x16002 + 4 * n) + l.word (0x16003 + 4 * n) * 2 ^ 32

/-- Length of a burst: cycles for modes 0 and 2, vectors for mode 1. -/
def Lane.total (l : Lane) (d : Desc) (org : Option (Nat × Nat)) : Nat :=
  if d.mode = 1 then (d.reps + 1) * l.streamCount d.stream
  else if d.mode = 2 then (d.reps + 1) * l.bodyLen d
  else (d.reps + 1) * d.addrs org * l.bodyLen d

/-- The template of a body that a cycle falls in, and the cycle within it. -/
def inBody (len : Nat → Nat) : List Nat → Nat → Nat × Nat
  | [], c => (0, c)
  | t :: r, c => if c < len t then (t, c) else inBody len r (c - len t)

/-- One cycle of a burst: its template, the cycle within the instance, the instance's generator address, the descriptor
and whether it is the burst's first cycle. -/
structure Cyc where
  t : Nat := 0
  c : Nat := 0
  addr : Nat := 0
  d : Desc := {}
  first : Bool := false
  deriving DecidableEq, Repr

/-- Cycle k of a burst on a lane (the control words are alike on every lane of a site). -/
def Lane.cycAt (l : Lane) (b : Burst) : Cyc :=
  let d := l.desc b.desc
  let n := max 1 (l.bodyLen d)
  let (t, c) := inBody l.tplLen d.tpls (b.k % n)
  let a := if d.mode = 2 then d.addr0 b.org else d.addrAt b.org (b.k / n % max 1 (d.addrs b.org))
  { t := t, c := c, addr := a, d := d, first := b.k == 0 }

/-- The burst's cycle count at the end of the template instance that holds a cycle (R250). -/
def Lane.instEnd (l : Lane) (b : Burst) (k : Nat) : Nat :=
  let d := l.desc b.desc
  let (t, c) := inBody l.tplLen d.tpls (k % max 1 (l.bodyLen d))
  k - c + l.tplLen t

/-! ### Bits (R231 to R234) -/

/-- The scrambled address (R233). -/
def Lane.scrambled (l : Lane) (a : Nat) : Nat :=
  let ctl := l.word 0x15010
  let s := bits ctl 5 0
  if bit ctl 8 then setBits a (s + 11) s (bits (l.word (0x13000 + bits a (s + 11) s)) 11 0) else a

/-- The bits of an address that a selection picks, lowest first. -/
def pick48 (a sel : Nat) : Nat :=
  ((setBitsOf 48 sel).foldl (fun (x : Nat × Nat) i => (x.1 + b2n (bit a i) * 2 ^ x.2, x.2 + 1)) (0, 0)).1

/-- The data bit of a slot (R234). -/
def Lane.dataBit (l : Lane) (d : Desc) (a s : Nat) : Bool :=
  let b := 0x15000 + 4 * d.bg
  let w1 := l.word (b + 1)
  let w2 := l.word (b + 2)
  let inv := ((parity 24 (bits a 23 0 &&& bits w1 23 0) != parity 16 (bits a 39 24 &&& bits w2 15 0))
    != parity 8 (bits a 47 40 &&& bits w2 23 16)) != bit w1 31
  let sel := l.word 0x15011 + bits (l.word 0x15012) 15 0 * 2 ^ 32
  let ds := sel != 0 && bit (l.word (0x14000 + pick48 a sel)) s
  (((bit (l.word b) s) != inv) != ds) != d.dpol

/-- Stimulus bit, compared, expected bit of a slot (Table 07-3); `was` is the slot's stimulus bit in the previous cycle. -/
def Lane.slotBits (l : Lane) (y : Cyc) (s : Nat) (was : Bool) : Bool × Bool × Bool :=
  let d := l.dataBit y.d y.addr s
  let p := l.pin y.t y.c s
  if p = 0 then (false, false, false)
  else if p = 1 then (true, false, false)
  else if p = 2 then (d, false, false)
  else if p = 3 then (!d, false, false)
  else if p ≤ 7 then
    (bit (l.scrambled y.addr) (bits (l.word (0x15020 + s)) (8 * (p - 4) + 5) (8 * (p - 4))), false, false)
  else if p = 8 then (false, true, false)
  else if p = 9 then (false, true, true)
  else if p = 10 then (false, true, d)
  else if p = 11 then (false, true, !d)
  else if p = 12 then (!y.first && was, false, false)
  else (false, false, false)

/-- One cycle's planes of W bits each: stimulus, enable, expected. -/
def Lane.cycBits (l : Lane) (w : Nat) (y : Cyc) (was : Nat) : Nat × Nat × Nat :=
  (List.range w).foldl (fun (x : Nat × Nat × Nat) s =>
    let (a, b, c) := l.slotBits y s (bit was s)
    (x.1 + b2n a * 2 ^ s, x.2.1 + b2n b * 2 ^ s, x.2.2 + b2n c * 2 ^ s)) (0, 0, 0)

/-- Whether a template holds a compare code on a lane (R232). -/
def Lane.compares (l : Lane) (w t : Nat) : Bool :=
  (List.range (l.tplLen t)).any fun c => (List.range w).any fun s => let p := l.pin t c s; 8 ≤ p && p ≤ 11

/-- A vector's share of one lane from its cycles (R221, R231, R241): planes, sidecar, and the last cycle's stimulus.
Each compare instance enters with the cycle at which it starts in the vector. -/
def Lane.build (l : Lane) (w : Nat) : List Cyc → Nat → Nat → LaneVec → LaneVec × Nat
  | [], _, was, v => (v, was)
  | y :: r, i, was, v =>
    let (a, b, c) := l.cycBits w y was
    let side := if (y.c = 0 || i = 0) && l.compares w y.t then v.side ++ [(i, y.addr)] else v.side
    Lane.build l w r (i + 1) a
      { stim := v.stim + a * 2 ^ (w * i), en := v.en + b * 2 ^ (w * i), exp := v.exp + c * 2 ^ (w * i), side := side }

/-! ### Packing (R240) -/

/-- What packing a vector yields: its cycles, the burst in expansion, the queue left, and the bursts that ended. -/
structure Packed where
  cycs : List Cyc := []
  cur : Option Burst := none
  queue : List Burst := []
  ends : List Nat := []
  deriving DecidableEq, Repr

/-- `n` more cycles of a vector, bursts following one another without gaps; a stored-playback burst, a pause or an empty
queue leaves the rest to template 0. -/
def packCycles (l : Lane) (paused : Bool) : Nat → Option Burst → List Burst → Packed
  | 0, cur, q => { cur := cur, queue := q }
  | n + 1, cur, q =>
    let go (b : Burst) (q : List Burst) : Packed :=
      let y := l.cycAt b
      let b' := { b with k := b.k + 1 }
      if b'.total ≤ b'.k then
        let r := packCycles l paused n none q
        { r with cycs := y :: r.cycs, ends := b.op :: r.ends }
      else
        let r := packCycles l paused n (some b') q
        { r with cycs := y :: r.cycs }
    match cur with
    | some b => go b q
    | none =>
      match q with
      | b :: rest =>
        if paused || (l.desc b.desc).mode = 1 then
          { cycs := List.replicate (n + 1) {}, cur := none, queue := q }
        else go b rest
      | [] => { cycs := List.replicate (n + 1) {}, cur := none, queue := [] }

/-! ### Stored playback (R255) -/

/-- A record's lane vector: stimulus plane, compare plane, and the sidecar's X, Y and Z. -/
def recVec (bs : List Byte) (n stream : Nat) : LaneVec :=
  let st := leNat (bs.take 128)
  let en := leNat (slice bs 128 128)
  { stim := st, en := en, exp := st &&& en,
    side := [(0, stream % 256 * 2 ^ 40 + bits n 39 24 * 2 ^ 24 + bits n 23 0)] }

end Sys2Proof.Machine
end

