-- ==== Sys2Proof/Machine/VecEng.lean ====
section
/-! DEFINITION. Lane operations at the lane groups and the vector engines (R170 to R175, R238 to R258, R339): delivery, burst
queues, staging, halt, branch, site control, completion notices and stored playback. -/

namespace Sys2Proof.Machine
open Sys2Proof

/-! ### Ports and counters (R258) -/

/-- First port of a lane's vector engine, compare unit and lane port. -/
def lgBase (l : Nat) : Nat := 0x8000 + 0x400 * (l / 8)
def veBase (l : Nat) : Nat := lgBase l + 0x100 + 0x20 * (l % 8)
def cuBase (l : Nat) : Nat := lgBase l + 0x200 + 0x20 * (l % 8)
def lpBase (l : Nat) : Nat := lgBase l + 0x300 + 0x20 * (l % 8)

/-- A vector-engine counter of a lane, or of every lane of a site, rises. VE_PURGE_CNT's halves are kept as 0x0B and
0x1B. -/
def State.veCnt (l off n : Nat) (s : State) : State :=
  (s.updLane l fun x => { x with ve := bump x.ve off n }).note (.cnt .ve l off) n
def State.siteCnt (k off n : Nat) (s : State) : State :=
  if (s.site k).bound then (s.site k).laneList.foldl (fun s l => s.veCnt l off n) s else s

/-- A lane-port counter rises (R331). -/
def State.lpCnt (l off n : Nat) (s : State) : State :=
  (s.updLane l fun x => { x with lp := bump x.lp off n }).note (.cnt .lp l off) n

/-- LP_STALL_CNT takes the wait for STIM credit that ends (R331). -/
def State.stallEnd (l : Nat) (s : State) : State :=
  match (s.lane l).stimWait with
  | none => s
  | some _ => (s.lpCnt l 0x10 (s.time - (s.lane l).stallFrom)).updLane l fun x => { x with stimWait := none }

/-! ### The arbiter (R414) -/

/-- A command lands at its object's arbiter: in the open window, or opening one. -/
def State.land (obj : ArbObj) (rank : Nat) (what : Arb) (s : State) : State :=
  let c : ArbCmd := { rank := rank, at_ := s.time, what := what }
  if s.arb.any (fun w => w.obj == obj) then
    { s with arb := s.arb.map fun w => if w.obj == obj then { w with cmds := w.cmds ++ [c] } else w }
  else { s with arb := s.arb ++ [{ obj := obj, opened := s.time, cmds := [c] }] }

/-! ### Lane operations (R173, R174) -/

/-- A change to one lane operation of a lane group. -/
def State.updOp (g op : Nat) (f : LaneOp → LaneOp) (s : State) : State :=
  s.updLg g fun x => { x with ops := x.ops.map fun o => if o.id == op then f o else o }

/-- A site (0 to 7 of its group) is finished for an operation. -/
def LaneOp.done (o : LaneOp) (i : Nat) : LaneOp := { o with wait := o.wait &&& (255 - 2 ^ i) }

/-- Site k's part of an operation finishes: as sent or applied; cut or discarded by a halt, its halted bit set; dropped,
its delivered bit clear; or superseded. -/
def State.opDone (k op : Nat) (s : State) : State := s.updOp (k / 8) op fun o => o.done (k % 8)
def State.opHalted (k op : Nat) (s : State) : State :=
  s.updOp (k / 8) op fun o => { o.done (k % 8) with hlt := o.hlt ||| 2 ^ (k % 8) }
def State.opDropped (k op : Nat) (s : State) : State :=
  s.updOp (k / 8) op fun o => { o.done (k % 8) with del := o.del &&& (255 - 2 ^ (k % 8)) }
def State.opSuper (k op : Nat) (s : State) : State :=
  s.updOp (k / 8) op fun o => { o.done (k % 8) with sup := true }

/-- The halted bit alone (R173: a halted site that receives a SITECTL). -/
def State.opMarkHalted (k op : Nat) (s : State) : State :=
  s.updOp (k / 8) op fun o => { o with hlt := o.hlt ||| 2 ^ (k % 8) }
def State.opDelivered (k op : Nat) (s : State) : State :=
  s.updOp (k / 8) op fun o => { o with del := o.del ||| 2 ^ (k % 8) }

/-- A lane operation of a site's group. -/
def State.opOf (s : State) (k op : Nat) : Option LaneOp := (s.lg (k / 8)).ops.find? fun o => o.id == op

/-- Whether an operation reached the vector engines in this fc (R23, Table 07-9). -/
def State.opNow (s : State) (k op : Nat) : Bool := match s.opOf k op with | some o => o.at_ == s.time | none => false

/-- A burst or branch that reached its site in the fc in which a halt applies first: it is skipped as halted (Table 07-9). -/
def State.opSkipped (k op : Nat) (s : State) : State := ((s.opHalted k op).opDropped k op).siteCnt k 0x09 1

/-- A completion notice's status (Table 05-10). -/
def LaneOp.status (o : LaneOp) : Nat := if o.del = o.req then OK else if o.sup then SUPERSEDED else SITE_SKIPPED

/-- A completion notice's VALUE (Table 05-10). -/
def LaneOp.value (o : LaneOp) (g : Nat) : Nat :=
  o.del + o.req * 2 ^ 8 + o.hlt * 2 ^ 16 + g * 2 ^ 24 + o.op * 2 ^ 28 + o.status * 2 ^ 32

/-- The notice token: the lane token's tag, GRP and FLOW, KIND 10 (R174). -/
def LaneOp.notice (o : LaneOp) (g : Nat) : Tok :=
  Tok.sealed { o.tok with value := BitVec.ofNat 64 (o.value g), poison := false, kind := 2 }

/-- A notice leaves the lane group, unless DST0's port is 3 or its context is being killed (R171, R211). The active
journals it, the standby discards its own (R440, R441). -/
def State.sendNotice (g : Nat) (o : LaneOp) (s : State) : State :=
  if o.quiet || o.killed || s.standby then s
  else (s.sendTok 1000 (.lg g) (o.notice g)).jrnl 0x03 [(o.notice g).tag, o.value g, (o.notice g).attr] []

/-- COMPLETION_NOTICE (R174): the first operation whose target sites have all finished is answered; without journal credit
it waits (R445). -/
def execCompletionNotice (lg : Nat) (s : State) : Out :=
  State.inDom (lgDom lg) (fun s =>
    match (s.lg lg).ops.find? fun o => o.wait == 0 with
    | none => s
    | some o =>
      if !s.jrnlRoom then s
      else (s.updLg lg fun x => { x with ops := x.ops.filter fun p => p.id != o.id }).sendNotice lg o) s

/-! ### Lane tokens at a lane group -/

/-- The fields of a lane token's VALUE (Table 05-9). -/
def laneOpOf (t : Tok) : Nat := bits t.value.toNat 1 0
def lanePayload (t : Tok) : Nat := bits t.value.toNat 63 11

/-- Target sites of a lane token in a group: the site, or the group's slice of the cohort (R171, R242). A fail-token HALT
names its site as the others do (R172). -/
def State.targets (s : State) (g : Nat) (t : Tok) (entry : Option Nat) : List Nat :=
  match entry with
  | none => [bits t.value.toNat 10 3]
  | some e => ((List.range 8).map (8 * g + ·)).filter fun k => bit (Tbl.get 0 s.cohorts e) k

/-- A new lane operation of a group, its target sites requested and waiting. -/
def State.newOp (g : Nat) (t : Tok) (job pe : Nat) (sites : List Nat) (s : State) : Nat × State :=
  let id := (s.lg g).opId + 1
  let m := maskOf (sites.map (· % 8))
  (id, s.updLg g fun x =>
    { x with opId := id, ops := x.ops ++
      [{ id := id, tok := t, op := laneOpOf t, req := m, wait := m, quiet := t.port == 3, job := job, pe := pe,
         at_ := s.time }] })

/-- Whether a site belongs to the job, is UP and is not released (R173). -/
def State.siteOpen (s : State) (k job : Nat) : Bool :=
  let x := s.site k
  x.job == some job && !x.released && s.siteUp k

/-- The event record of an invalid burst or branch word (R239, Table 16-4). -/
def State.badWord (k word : Nat) (branch : Bool) (s : State) : State :=
  ((s.siteCnt k 0x0A 1).siteCnt k 0x09 1).event cVe (s.site k).first 0x8014
    (word + b2n branch * 2 ^ 53 + k * 2 ^ 54)

/-- A burst or branch word's descriptor and origin. -/
def wordDesc (w : Nat) : Nat := bits w 9 0
def wordOrg (w : Nat) : Option (Nat × Nat) := if bit w 10 then some (bits w 34 11, bits w 50 35) else none

/-- A descriptor of a site, from its first lane's table. -/
def State.siteDesc (s : State) (k d : Nat) : Desc := (s.lane (s.site k).first).desc d

/-- A burst of a site from its word. -/
def State.mkBurst (s : State) (k op w : Nat) : Burst :=
  let l := s.lane (s.site k).first
  let d := l.desc (wordDesc w)
  { op := op, desc := wordDesc w, org := wordOrg w, total := l.total d (wordOrg w) }

/-- Whether a burst word is valid (R237, R239). -/
def State.burstOk (s : State) (k w : Nat) : Bool := bits w 52 51 = 0 && (s.siteDesc k (wordDesc w)).used

/-- A burst enters the queue, of two that arrive in one fc the one from the lower-numbered physical PE first (Table 07-9). -/
def State.enqueue (k : Nat) (b : Burst) (pe : Nat) (s : State) : State :=
  let after (q : Burst) : Bool := match s.opOf k q.op with | some o => o.at_ == s.time && pe < o.pe | none => false
  s.updSite k fun x => { x with queue := x.queue.takeWhile (fun q => !after q) ++ b :: x.queue.dropWhile fun q => !after q }

/-- One target site's decision on a BURST (R173, R238, R239). -/
def State.burstAt (op job pe w k : Nat) (s : State) : State :=
  let x := s.site k
  if !s.siteOpen k job then (s.siteCnt k 0x09 1).opDone k op
  else if x.halted then (s.siteCnt k 0x09 1).opHalted k op
  else if !s.burstOk k w then (s.badWord k w false).opDone k op
  else if 64 ≤ x.queue.length then (s.siteCnt k 0x09 1).opDone k op
  else (s.enqueue k (s.mkBurst k op w) pe).opDelivered k op

/-- The packets of a lane group's inbox in one channel. -/
def LaneGroup.chan (x : LaneGroup) (c : Nat) : List Pkt := x.inbox.filter fun p => p.chan == c

/-- A lane token that fails its check at its lane group is discarded (R54, R55). -/
def State.dropLane (g : Nat) (p : Pkt) (t : Tok) (s : State) : State :=
  (s.updLg g fun x => { x with inbox := x.inbox.erase p }).crcFail cVe (8 * g) t

/-- A BRANCH or SITECTL at the head of its channel lands at the arbiters of its target sites (R414, R415: rank 4). -/
def State.landOp (g : Nat) (p : Pkt) (s : State) : State :=
  match p.body with
  | .lane t job pe e =>
    if !t.crcOk then s.dropLane g p t
    else
    let sites := s.targets g t e
    let (id, s1) := s.newOp g t job pe sites
    let w := lanePayload t
    sites.foldl (fun s k => s.land (.site k) 4 (if laneOpOf t = 2 then .branch id pe w else .sitectl id (w % 256)))
      (s1.updLg g fun x => { x with inbox := x.inbox.erase p })
  | _ => s

/-- Whether a packet is a lane token of a given op. -/
def Pkt.laneOp? (p : Pkt) (op : Nat) : Bool :=
  match p.body with | .lane t _ _ _ => laneOpOf t == op | _ => false

/-- Every BRANCH and SITECTL that has reached the head of its channel lands. -/
def State.lgLand (g : Nat) : Nat → State → State
  | 0, s => s
  | n + 1, s =>
    match ([0, 1].filterMap fun c => ((s.lg g).chan c).head?).find? fun p => p.laneOp? 2 || p.laneOp? 3 with
    | none => s
    | some p => State.lgLand g n (s.landOp g p)

/-- The head packet of a channel that carries a lane token of an op, the urgent channel first. -/
def LaneGroup.headOp (x : LaneGroup) (op : Nat) : Option Pkt :=
  ([0, 1].filterMap fun c => (x.chan c).head?).find? fun p => p.laneOp? op

/-! ### Halts (R23, R172, R248) -/

/-- The causes that a halt record names; the manual gives them no codes (log entry 18, DEDUCED). -/
def hcReflex : Nat := 0
def hcActor : Nat := 1
def hcJobEnd : Nat := 2
def hcUnderrun : Nat := 3
def hcLaneError : Nat := 4
def hcRetire : Nat := 5
def hcSentinel : Nat := 6
def hcTable : Nat := 7

/-- The bursts in hand at a site, and its pending branch, by operation. -/
def Site.inHand (x : Site) : List Nat :=
  (x.cur.toList ++ x.queue).map (·.op) ++ x.staged.flatMap (fun v => if v.toSend = 0 then [] else v.ends)
    ++ x.branch.toList.map (·.op)

/-- Every burst and the pending branch of a site are cut: each completes for its notice as halted (R23, R248, R253); one that
reached the site in this fc is skipped as halted (Table 07-9). -/
def State.cutBursts (k : Nat) (s : State) : State :=
  let x := s.site k
  let s1 := (x.inHand.foldl (fun s op => if s.opNow k op then s.opSkipped k op else s.opHalted k op) s).updPair fun p =>
    { p with branchPts := p.branchPts.filter fun b => b.1 != k }
  if x.branch.isSome then s1.jrnl 0x04 [k, x.next, 1] [] else s1

/-- Vectors that no lane has sent are dropped; one that some lane has sent keeps its frets (R248). -/
def Site.dropStaged (x : Site) : List Staged :=
  let full := maskOf (List.range x.lanes)
  (x.staged.filter fun v => v.toSend != full).map fun v => { v with toSend := 0, ends := [] }

/-- Vectors that were staged and are dropped unsent. -/
def Site.unsent (x : Site) : Nat :=
  (x.staged.filter fun v => v.toSend == maskOf (List.range x.lanes)).length

/-- A lane, or every lane of a site, leaves its reader (R256). -/
def State.leaveReader (k : Nat) (s : State) : State :=
  let ls := (s.site k).laneList
  { s with readers := s.readers.map fun p => (p.1, { p.2 with lanes := p.2.lanes.filter fun l => !ls.contains l }) }

/-- What a site had staged is dropped: its lanes wait for no credit and read no stream any more. -/
def State.dropVectors (k : Nat) (s : State) : State :=
  ((s.site k).laneList.foldl (fun s l => s.stallEnd l) (s.leaveReader k)).updSite k fun x =>
    { x with cur := none, queue := [], branch := none, staged := x.dropStaged, next := (x.high + 1) % 2 ^ 48 }

/-- The halt record's argument (R23): cause, and for an actor its context and actor index. -/
def haltArg (k cause ctx act : Nat) : Nat := cause + k * 2 ^ 3 + ctx * 2 ^ 10 + act * 2 ^ 30

/-- The halt record (R23). -/
def State.haltRecord (k cause ctx act : Nat) (s : State) : State :=
  s.event cVe (s.site k).first 0x80FF (haltArg k cause ctx act)

/-- Event records of this fc, changed or taken back before the recorder has taken them: what settles events of one fc may
change what an earlier one of them has asked for. -/
def State.amend (cls inst code : Nat) (f : Nat → Option Nat) (s : State) : State :=
  let g (e : EvReq) : Option EvReq :=
    if e.code = code && e.cls = cls && e.inst = inst && e.time = s.time then (f e.arg).map fun a => { e with arg := a } else some e
  s.updRcd fun r => { r with intake := r.intake.filterMap g }

/-- The halt record of this fc with an argument, changed or taken back. -/
def State.amendHalt (k old : Nat) (new : Option Nat) (s : State) : State :=
  s.amend cVe (s.site k).first 0x80FF fun a => if a = old % 2 ^ 64 then new else some a

/-- The halt flit goes out on every lane of the site (R248). -/
def State.haltFlits (k : Nat) (s : State) : State :=
  let q := if (s.site k).haltSeq + 1 < 2 ^ 24 then (s.site k).haltSeq + 1 else 1
  (s.site k).laneList.foldl (fun s l => s.updLane l fun y => { y with halt := some q })
    (s.updSite k fun x => { x with haltSeq := q, haltDue := some q, haltFlit := true })

/-- A site halts (R248): the halt flit on every lane when `flit`, stimulus dropped, one halt record. A site that is already
halted writes no second record, and sends a halt flit when none belongs to its halt (Table 09-14). -/
def State.haltSite (k cause ctx act : Nat) (flit : Bool) (s : State) : State :=
  if (s.site k).halted then when (flit && !(s.site k).haltFlit) (State.haltFlits k) s
  else
    let s1 := (((s.cutBursts k).siteCnt k 0x0D 1).haltRecord k cause ctx act).dropVectors k
    when flit (State.haltFlits k)
      (s1.updSite k fun x => { x with halted := true, haltedAt := s.time, haltCause := cause, haltFlit := false })

/-- The marks of a site as a fc began, kept at its first lane token (Table 07-9). -/
def State.noteSite (k : Nat) (s : State) : State :=
  s.updSite k fun x =>
    match x.was with
    | some (t, _) => if t = s.time then x else { x with was := some (s.time, x.halted, x.paused, x.released, x.reflex) }
    | none => { x with was := some (s.time, x.halted, x.paused, x.released, x.reflex) }

/-- A HALT that is delivered at a site (R23, R173, R248): the site halts, and the operation finishes once every lane has sent
its halt flit, at once where that has been done. The actor index is the lane token's ACT (log entry 18, DEDUCED). -/
def State.haltAt (op ctx act k : Nat) (s : State) : State :=
  let s1 := (when (s.site k).halted (State.opMarkHalted k op) (s.noteSite k)).opDelivered k op
  let s2 := (s1.haltSite k hcActor ctx act true).updSite k fun x => { x with haltIn := some (s.time, ctx, act) }
  if (s.site k).laneList.any fun l => (s2.lane l).halt.isSome then s2 else s2.opDone k op

/-- LANE_HALT (R173, R248): a halt lane token is delivered to every target site that belongs to the job and is UP. -/
def execLaneHalt (lg : Nat) (s : State) : Out :=
  State.inDom (lgDom lg) (fun s =>
    match (s.lg lg).headOp 1 with
    | some p =>
      match p.body with
      | .lane t job pe e =>
        if !t.crcOk then (s.dropLane lg p t).lgLand lg 64
        else
        let sites := s.targets lg t e
        let (id, s1) := (s.updLg lg fun x => { x with inbox := x.inbox.erase p }).newOp lg t job pe sites
        (sites.foldl (fun s k =>
          if s.siteOpen k job then s.haltAt id t.ctx.toNat t.act.toNat k else s.opDone k id) s1).lgLand lg 64
      | _ => s
    | none => s) s

/-- A HALT operation finishes at a site once every lane of it has sent its halt flit (R174). -/
def State.haltSent (k : Nat) (s : State) : State :=
  if (s.site k).laneList.any fun l => (s.lane l).halt.isSome then s
  else (s.lg (k / 8)).ops.foldl (fun s o => if o.op = 1 && bit o.wait (k % 8) then s.opDone k o.id else s) s

/-- REFLEX_STOP (R23, R272): a mismatch has triggered the site's armed reflex stop. Where a HALT halted the site in the same fc,
the halt record's cause becomes reflex. -/
def execReflexStop (site : Nat) (s : State) : Out :=
  State.plain (fun s =>
    let x := s.site site
    if !x.trig then s
    else
      let s1 := s.updSite site fun x => { x with trig := false }
      if !x.reflex then s1
      else if !x.halted then s1.haltSite site hcReflex 0 0 true
      else
        match x.haltIn with
        | some (t, ctx, act) =>
          if t = s.time && x.haltedAt = s.time && x.haltCause = hcActor then
            (s1.amendHalt site (haltArg site hcActor ctx act) (some (haltArg site hcReflex 0 0))).updSite site fun x =>
              { x with haltCause := hcReflex }
          else s1
        | none => s1) s

/-! ### Site control (R175, R251) -/

/-- The halted mark is cleared, but at a site whose tables are bad (R523), and a MARK goes before the next STIM (R251, R310). -/
def State.doRearm (k : Nat) (s : State) : State :=
  let x := s.site k
  let s1 := x.rearm.foldl (fun s op => s.opDone k op)
    (s.updSite k fun x => { x with halted := x.bad, next := (x.high + 1) % 2 ^ 48, rearm := [] })
  x.laneList.foldl (fun s l => s.updLane l fun y => { y with mark := some 3 }) s1

/-- A HALT was delivered to the site in this fc. -/
def State.haltNow (s : State) (k : Nat) : Option (Nat × Nat) :=
  match (s.site k).haltIn with | some (t, c, a) => if t = s.time then some (c, a) else none | none => none

/-- REARM at a site (R251), but at one whose tables SITE_MAP must rewrite (R523): it waits for the halt report when that is due.
Of a REARM and a HALT in one fc the REARM applies first (Table 07-9): a site that this fc's HALT has halted stays halted, one
that it found halted halts anew. -/
def State.rearmAt (k op : Nat) (s : State) : State :=
  let x := s.site k
  if !x.halted || x.bad || (x.haltedAt = s.time && (s.haltNow k).isSome) then s.opDone k op
  else
    let s1 := s.updSite k fun x => { x with rearm := x.rearm ++ [op] }
    if x.haltDue.isSome then s1
    else
      match s.haltNow k with
      | none => s1.doRearm k
      | some (c, a) => (s1.doRearm k).haltSite k hcActor c a true

/-- The site leaves its job for the rest of it (R251): queued bursts are reported as not delivered, and those that reached the
site in this fc are skipped (Table 07-9). -/
def State.releaseSite (k : Nat) (s : State) : State :=
  ((s.site k).queue.foldl (fun s b => when (s.opNow k b.op) (State.siteCnt k 0x09 1) (s.opDropped k b.op)) s).updSite k fun x =>
    { x with released := true, queue := [] }

/-- What a SITECTL changes at a site but for REARM (Table 05-11). -/
def State.ctlSet (k cmd : Nat) (s : State) : State :=
  match cmd with
  | 1 => s.updSite k fun x => { x with paused := true }
  | 2 => s.updSite k fun x => { x with paused := false }
  | 4 => s.updSite k fun x => { x with reflex := true }
  | 5 => s.updSite k fun x => { x with reflex := false, trig := false }
  | 6 => s.releaseSite k
  | _ => s

/-- A SITECTL takes effect at a delivered site. The active journals what it changes, with the index at which it applies; the
standby takes it from the journal (R193; log entry 116, DESIGN CHOICE). -/
def State.ctlEffect (k op cmd : Nat) (s : State) : State :=
  if cmd = 3 then s.rearmAt k op
  else if s.standby then s.opDone k op
  else ((s.ctlSet k cmd).opDone k op).jrnl 0x0A [k, 0, (s.site k).next, 16 + cmd] []

/-- One target site's decision on a SITECTL (R173): a halted site is marked so in the notice. -/
def State.ctlAt (k op cmd : Nat) (s : State) : State :=
  let job := ((s.opOf k op).map (·.job)).getD 0
  if !s.siteOpen k job then s.opDone k op
  else
    let found : Bool := (s.site k).halted && !(cmd = 3 && (s.site k).haltedAt = s.time && (s.haltNow k).isSome)
    ((when found (State.opMarkHalted k op) (s.noteSite k)).opDelivered k op).ctlEffect k op cmd

/-- The SITECTL at the head of a site's passed-on commands, when it is the given one. -/
def State.siteCtl (k cmd : Nat) (s : State) : State :=
  match (s.site k).ctl with
  | (op, c) :: r => if c != cmd then s else (s.updSite k fun x => { x with ctl := r }).ctlAt k op c
  | [] => s

/-- Every SITECTL that has reached a site applies before a burst or a branch is decided there (Table 07-9). -/
def State.ctlFirst (k : Nat) (s : State) : State :=
  (s.site k).ctl.foldl (fun s c => s.ctlAt k c.1 c.2) (s.updSite k fun x => { x with ctl := [] })

/-- The standby applies the site commands of its journal's SITE_EV records at their indices (R193, R441). -/
def State.followCtl (k : Nat) (s : State) : State :=
  let due := s.pair.ctls.filter fun c => c.1 == k && (c.2.1 + 2 ^ 48 + 2 ^ 47 - (s.site k).next) % 2 ^ 48 ≤ 2 ^ 47
  due.foldl (fun s c => s.ctlSet k c.2.2) (s.updPair fun p => { p with ctls := p.ctls.filter fun c => !due.contains c })

/-- PAUSE (R251): the burst in expansion finishes, queued bursts are held. -/
def execPause (site : Nat) (s : State) : Out := State.plain (State.siteCtl site 1) s

/-- RESUME (R175): held bursts continue. -/
def execResume (site : Nat) (s : State) : Out := State.plain (State.siteCtl site 2) s

/-- REARM (R251). -/
def execRearm (site : Nat) (s : State) : Out := State.plain (State.siteCtl site 3) s

/-- REFLEX_ON and REFLEX_OFF (R175). -/
def execReflexOn (site : Nat) (s : State) : Out := State.plain (State.siteCtl site 4) s
def execReflexOff (site : Nat) (s : State) : Out := State.plain (State.siteCtl site 5) s

/-- RELEASE (R251). -/
def execRelease (site : Nat) (s : State) : Out := State.plain (State.siteCtl site 6) s

/-! ### Bursts (R173, R238) -/

/-- Whether an arbitration window of a site closes in this fc: what it passes on applies before a burst (R417, Table 07-9). -/
def State.closing (s : State) (k : Nat) : Bool := s.arb.any fun w => w.obj == .site k && w.opened + 64 * NS = s.time

/-- LANE_BURST (R173, R238): a burst lane token is decided at its target sites. A general-channel token whose target has
a full queue is not accepted until an entry frees; one that meets the close of a window of its site waits for it. -/
def execLaneBurst (lg : Nat) (s : State) : Out :=
  State.inDom (lgDom lg) (fun s =>
    match (s.lg lg).headOp 0 with
    | some p =>
      match p.body with
      | .lane t job pe e =>
        if !t.crcOk then (s.dropLane lg p t).lgLand lg 64
        else
        let sites := s.targets lg t e
        let s0 := sites.foldl (fun s k => s.ctlFirst k) s
        let full := sites.any fun k => 64 ≤ (s0.site k).queue.length && s0.siteOpen k job && !(s0.site k).halted
          && s0.burstOk k (lanePayload t)
        if (p.chan = 1 && full) || sites.any s.closing then s0
        else
          let (id, s1) := (s0.updLg lg fun x => { x with inbox := x.inbox.erase p }).newOp lg t job pe sites
          (sites.foldl (fun s k => s.burstAt id job pe (lanePayload t) k) s1).lgLand lg 64
      | _ => s
    | none => s) s

/-! ### Branches (R249, R250) -/

def branchAct (w : Nat) : Nat := bits w 52 51

/-- Whether a branch word is valid (Table 07-8). -/
def State.branchOk (s : State) (k w : Nat) : Bool :=
  branchAct w != 3 && (if branchAct w = 1 then wordDesc w = 0 else (s.siteDesc k (wordDesc w)).used)

/-- The current burst is cut at the end of the template instance that holds the last staged cycle (R250). -/
def State.cutCur (s : State) (k : Nat) (b : Burst) : Option Burst :=
  let l := s.lane (s.site k).first
  let e := if (l.desc b.desc).mode = 1 then b.k else if b.k = 0 then 0 else min b.total (l.instEnd b (b.k - 1))
  if e ≤ b.k then none else some { b with total := e }

/-- Whether a burst plays stored vectors. -/
def State.plays (s : State) (k : Nat) (b : Burst) : Bool := (s.siteDesc k b.desc).mode == 1

/-- The pending branch takes effect at the branch point (R249, R250): queued bursts are dropped and reported as not
delivered, the current one is cut unless the action is NEXT, and the branch's descriptor follows. Bursts that reached the site
with the branch or after it stay in the queue behind its descriptor (Table 07-9). -/
def State.applyBranch (k : Nat) (s : State) : State :=
  let x := s.site k
  match x.branch with
  | none => s
  | some p =>
    let act := branchAct p.word
    let later (b : Burst) : Bool := match s.opOf k b.op with | some o => p.at_ ≤ o.at_ | none => false
    let s1 := (x.queue.filter fun b => !later b).foldl (fun s b => s.opDropped k b.op) s
    let cur := if act = 2 then x.cur else match x.cur with | none => none | some b => s.cutCur k b
    let s2 := if cur.isNone then (match x.cur with | none => s1 | some b => (s1.siteCnt k 0x08 1).opDone k b.op) else s1
    let s3 := if (match cur with | some b => s.plays k b | none => false) then s2 else s2.leaveReader k
    ((s3.updSite k fun x =>
      { x with branch := none, cur := cur,
               queue := (if act = 1 then [] else [s.mkBurst k 0 p.word]) ++ x.queue.filter later }).opDone k p.op).jrnl
      0x04 [k, x.next, 0] []

/-- LANE_BRANCH (R23, R173, R250, R417): the oldest BRANCH that the arbiter has passed on is decided at the site. Two that
landed in one fc are one decision: the lower-numbered physical PE wins. -/
def execLaneBranch (site : Nat) (s : State) : Out :=
  State.plain (fun s0 =>
    match (s0.site site).brq with
    | [] => s0
    | p :: r =>
      let s := s0.ctlFirst site
      let x := s.site site
      let job := ((s.opOf site p.op).map (·.job)).getD 0
      let s1 := s.updSite site fun x => { x with brq := r }
      if !s.siteOpen site job then (s1.siteCnt site 0x09 1).opDone site p.op
      else if x.halted then (s1.siteCnt site 0x09 1).opHalted site p.op
      else if !s.branchOk site p.word then (s1.badWord site p.word true).opDone site p.op
      else
        let s2 := s1.opDelivered site p.op
        match x.branch with
        | none => s2.updSite site fun x => { x with branch := some p }
        | some o =>
          if o.at_ = p.at_ && o.land = p.land then
            let (win, lose) := if p.pe < o.pe then (p, o) else (o, p)
            let s3 := s2.updSite site fun x => { x with branch := some win }
            (s3.opDropped site lose.op).opSuper site lose.op
          else (s2.applyBranch site).updSite site fun x => { x with branch := some p }) s

/-! ### Loss, admission and end (R252, R253) -/

/-- The captures of this fc at a site. -/
def State.capsOf (s : State) (k : Nat) : List (Nat × Nat × Cu) :=
  s.fcNow.caps.filter fun c => (s.site k).laneList.contains c.1

/-- A HALT of this fc is taken back: its record, its count and its flits (R253). -/
def State.unHalt (k : Nat) (s : State) : State :=
  let x := s.site k
  let arg := match x.haltIn with | some (_, c, a) => haltArg k x.haltCause c a | none => 0
  x.laneList.foldl (fun s l => s.updLane l fun y => { y with halt := none, ve := y.ve.upd 0 0x0D (· - 1) })
    ((s.amendHalt k arg none).updSite k fun x => { x with halted := false, haltDue := none, haltFlit := false })

/-- Of a lane loss and lane tokens in one fc the loss applies first (Table 07-9): what reached the site in this fc is taken back
and skipped. -/
def State.lossFirst (k : Nat) (s : State) : State :=
  let ops := (s.lg (k / 8)).ops.filter fun o => o.at_ == s.time && bit o.del (k % 8)
  let s1 := ops.foldl (fun s o => when (o.op % 2 == 0) (State.siteCnt k 0x09 1) (s.opDropped k o.id)) s
  let mine (op : Nat) : Bool := !ops.any fun o => o.id == op
  let s2 := s1.updSite k fun x =>
    { x with queue := x.queue.filter fun b => mine b.op, cur := x.cur.filter fun b => mine b.op,
             branch := x.branch.filter fun b => mine b.op, rearm := x.rearm.filter mine }
  match (s.site k).was with
  | some (t, h, p, r, f) =>
    if t = s.time then
      let undo : Bool := (s.site k).halted && !h && (s.site k).haltedAt = s.time && (s.haltNow k).isSome
      (when undo (State.unHalt k) s2).updSite k fun x => { x with halted := x.halted || h, paused := p, released := r, reflex := f }
    else s2
  | none => s2

/-- The leader stops on every lane as a lane of the site leaves UP (R253): a HALT that has not sent its flits finishes too. -/
def State.siteStop (k : Nat) (s0 : State) : State :=
  let s := s0.lossFirst k
  let x := s.site k
  let n := x.queue.length + x.cur.toList.length
    + (x.staged.map fun v => if v.toSend = 0 then 0 else v.ends.length).foldl (· + ·) 0
  let s1 := (((s.cutBursts k).siteCnt k 0x0B n).siteCnt k 0x1B x.unsent).dropVectors k
  let s2 := (s1.lg (k / 8)).ops.foldl (fun s o => if o.op = 1 && bit o.wait (k % 8) then s.opDone k o.id else s)
    (s1.updSite k fun x => { x with haltDue := none, trig := false })
  if x.rearm.isEmpty then s2 else s2.doRearm k

/-- A site joins a job (R252): after a halt or a break the next STIM has a MARK before it (R310). -/
def State.joinSite (j k : Nat) (s : State) : State :=
  let s1 := s.updSite k fun x =>
    { x with job := some j, queue := [], halted := x.bad, paused := false, released := false, reflex := x.reflexFlag,
             trig := false, next := (x.high + 1) % 2 ^ 48 }
  if !(s.site k).halted then s1
  else (s.site k).laneList.foldl (fun s l => s.updLane l fun y =>
    { y with mark := if y.state = 5 || y.state = 1 then some (y.mark.getD 3) else y.mark }) s1

/-! ### Stream readers (R255, R256) -/

/-- A reader that serves a stream base and has a record in its buffer, or a free one (R256). -/
def State.readerFor (s : State) (base pos : Nat) : Option Nat :=
  match (List.range 32).find? fun r =>
    let x := Tbl.get {} s.readers r
    !x.lanes.isEmpty && x.base == base && x.lanes.length < 16 && x.nextRec ≤ pos + 256 && pos ≤ x.nextRec with
  | some r => some r
  | none => (List.range 32).find? fun r => (Tbl.get {} s.readers r).lanes.isEmpty

/-- The reader that serves a lane. -/
def State.readerOf (s : State) (l : Nat) : Option Nat :=
  (List.range 32).find? fun r => (Tbl.get {} s.readers r).lanes.contains l

/-- A lane takes a reader for a burst of stored playback, from the lane's own stream table; none free, there is none. -/
def State.takeReader (l : Nat) (b : Burst) (s : State) : Option State :=
  let y := s.lane l
  let d := y.desc b.desc
  let base := y.streamBase d.stream
  let last := (d.reps + 1) * y.streamCount d.stream
  if (s.readerOf l).isSome then some s
  else
    match s.readerFor base b.k with
    | none => none
    | some r =>
      some { s with readers := s.readers.upd {} r fun x =>
        if x.lanes.isEmpty then { base := base, count := y.streamCount d.stream, last := last, recs := [], nextRec := b.k,
                                  lanes := [l] }
        else { x with lanes := x.lanes ++ [l], last := max x.last last } }

/-- Every lane of a site takes a reader for the stored-playback burst at the head of its queue; where one finds none, none is
taken and the burst stays there (R256). -/
def State.seekReaders (k : Nat) (s : State) : State :=
  let x := s.site k
  match x.queue with
  | b :: _ =>
    if x.paused || !s.plays k b || (match x.cur with | some c => s.plays k c | none => false) then s
    else (x.laneList.foldl (fun (o : Option State) l => o.bind fun s => s.takeReader l b) (some s)).getD s
  | [] => s

/-- A record that a lane's reader holds. -/
def State.recOf (s : State) (l n : Nat) : Option (List Byte) :=
  match s.readerOf l with
  | none => none
  | some r => ((Tbl.get {} s.readers r).recs.find? fun q => q.1 == n).map (·.2)

/-- The record that a lane's leader needs next: of the burst that its site plays, or that waits at its queue's head. -/
def State.playPos (s : State) (l : Nat) : Option Nat :=
  match s.siteOfLane l with
  | none => none
  | some k =>
    match (s.site k).cur, (s.site k).queue with
    | some b, _ => if s.plays k b then some b.k else none
    | none, b :: _ => if s.plays k b then some b.k else none
    | none, [] => none

/-! ### Staging (R240, R245, R250) -/

/-- Bursts that ended in a vector that every lane has sent complete (R174). -/
def State.endBursts (k : Nat) (ends : List Nat) (s : State) : State :=
  ends.foldl (fun s op => (s.siteCnt k 0x08 1).opDone k op) s

/-- T_v in 1/32 fc, exactly (R224). -/
def Site.tv (x : Site) : Nat := 512 * x.cycU / x.w

/-- The next vector enters the staged list, to be sent on every lane and written as a fret on every lane; its send slot
lies 16 ns ahead, and T_v after the one before (R245, R247). -/
def State.stagePush (k : Nat) (v : Staged) (s : State) : State :=
  s.updSite k fun x =>
    let m := maskOf (List.range x.lanes)
    let q := max (32 * (s.time + 32)) (x.lastSlot + x.tv)
    { x with staged := x.staged ++ [{ v with idx := x.next, at_ := cdiv q 32, slot := q, toSend := m, toFret := m }],
             next := (x.next + 1) % 2 ^ 48, lastSlot := q }

/-- Send slots from a departure on: each at least T_v after the one before (R245). -/
def respace (tv : Nat) : Nat → List Staged → List Staged
  | _, [] => []
  | p, v :: r =>
    let q := max v.slot (p + tv)
    { v with slot := q, at_ := cdiv q 32 } :: respace tv q r

/-- A vector that had to wait for credit departs: that is its send slot, and the later ones keep their distance from it (R245,
R246). -/
def Site.depart (x : Site) (idx t : Nat) : Site :=
  let l := x.staged.takeWhile (fun v => v.idx != idx)
    ++ (match x.staged.dropWhile (fun v => v.idx != idx) with
        | [] => []
        | v :: r => { v with slot := 32 * t, at_ := t } :: respace x.tv (32 * t) r)
  { x with staged := l, lastSlot := max x.lastSlot ((l.map (·.slot)).foldl max 0) }

/-- A vector of templates (R240). -/
def State.stageCycles (k : Nat) (s : State) : State :=
  let x := s.site k
  let l0 := s.lane x.first
  let r := packCycles l0 x.paused x.c x.cur x.queue
  let out := x.laneList.map fun l => (s.lane l).build x.w r.cycs 0 (Tbl.get 0 x.prev l) {}
  let vecs := out.map (·.1)
  let prev := (x.laneList.zip (out.map (·.2))).foldl (fun t p => t.put p.1 p.2) x.prev
  (s.updSite k fun x => { x with cur := r.cur, queue := r.queue, prev := prev }).stagePush k { vecs := vecs, ends := r.ends }

/-- A vector of stored playback (R255 to R257): each lane's record of its own stream; a record that is not in its reader's
buffer halts the site. -/
def State.stageRecord (k : Nat) (b : Burst) (s : State) : State :=
  let x := s.site k
  if x.laneList.any fun l => (s.recOf l b.k).isNone then (s.siteCnt k 0x0C 1).haltSite k hcUnderrun 0 0 true
  else
    let one (l : Nat) : LaneVec × (Nat × Nat) :=
      let y := s.lane l
      let d := y.desc b.desc
      let n := b.k % max 1 (y.streamCount d.stream)
      (recVec ((s.recOf l b.k).getD []) n d.stream, (y.streamBase d.stream + 256 * n, b.k))
    let b' := { b with k := b.k + 1 }
    let fin := b'.total ≤ b'.k
    let s1 := (s.updSite k fun x => { x with cur := if fin then none else some b' }).stagePush k
      { vecs := x.laneList.map fun l => (one l).1, ends := if fin then [b.op] else [],
        stream := x.laneList.map fun l => (one l).2 }
    if fin then s1.leaveReader k else s1

/-- The burst that the site expands next: the current one, or the queue's head when the site is not paused; a stored-playback
burst leaves the queue once every lane's reader holds its first record (R256; log entry 117, DEDUCED). -/
def State.startBurst (k : Nat) (s : State) : Option (Burst × State) :=
  let x := s.site k
  match x.cur with
  | some b => some (b, s)
  | none =>
    match x.queue with
    | [] => none
    | b :: r =>
      if x.paused || (s.plays k b && x.laneList.any fun l => (s.recOf l b.k).isNone) then none
      else some (b, s.updSite k fun x => { x with cur := some b, queue := r })

/-- The pending branch at a vector's staging (R250); the standby applies it at the index that its BRANCH_PT record gives,
and stages no vector before it holds that record (R441): none. -/
def State.branchPoint (k : Nat) (s : State) : Option State :=
  if (s.site k).branch.isNone then some (s.applyBranch k)
  else
    match s.pair.branchPts.find? fun b => b.1 == k with
    | none => if s.standby then none else some (s.applyBranch k)
    | some b =>
      if b.2.1 != (s.site k).next then some s
      else
        let s1 := s.updPair fun p => { p with branchPts := p.branchPts.erase b }
        some (if b.2.2 = 0 then s1.applyBranch k else s1.updSite k fun x => { x with branch := none })

/-- A vector is staged in the fc that lies 16 ns before its send slot or later, and not while an earlier one waits for credit
a flit time beyond its own slot (R245). -/
def State.stageDue (s : State) (k : Nat) : Bool :=
  ((s.site k).lastSlot + (s.site k).tv) / 32 ≤ s.time + 32 &&
    (s.site k).staged.all fun v => v.toSend == 0 || s.time < v.at_ + 20

/-- VECTOR_STAGE (R240, R245, R250): the site's next vector is expanded for every lane, 16 ns before its send slot. -/
def execVectorStage (site : Nat) (s : State) : Out :=
  State.plain (fun s =>
    if !s.siteUp site then s
    else
    let s0 := s.followCtl site
    if (s0.site site).halted then s0
    else if !s0.stageDue site then s0.seekReaders site
    else
      match s0.branchPoint site with
      | none => s0
      | some s1 =>
      match (s1.seekReaders site).startBurst site with
      | none => s1.seekReaders site
      | some (b, s2) => if s2.plays site b then s2.stageRecord site b else s2.stageCycles site) s

/-- PLAYBACK_RECORD_FETCH (R256): the reader's next record arrives in its buffer of 256 records. A record with a poisoned
line is not available (R351). -/
def execPlaybackRecordFetch (reader : Nat) (s : State) : Out :=
  State.plain (fun s =>
    let x := Tbl.get {} s.readers reader
    let behind := x.lanes.all fun l => match s.playPos l with | some p => x.nextRec < p + 256 | none => true
    if x.lanes.isEmpty || !behind || x.last ≤ x.nextRec then s
    else
      let a := x.base + 256 * (x.nextRec % max 1 x.count)
      let s1 := s.ddrRd 3 a 256
      let recs := if s1.poisonedAt a 256 then x.recs else x.recs ++ [(x.nextRec, s1.ddrBytes a 256)]
      let y : Reader := { x with nextRec := x.nextRec + 1, recs := recs.drop (recs.length - 256) }
      { s1 with readers := s1.readers.put reader y }) s

/-! ### Cohorts (R242, R339) -/

/-- COHORT_COPY (R339): the oldest cohort lane token at a quad router goes to every lane group of the entry's summary. -/
def execCohortCopy (quad : Nat) (s : State) : Out :=
  State.plain (fun s =>
    let r := (1 + quad % 4) + 6 * (1 + quad / 4)
    match s.net.cohortQ.find? fun p => p.router == r with
    | none => s
    | some p =>
      match p.body with
      | .lane t job pe (some e) =>
        let m := Tbl.get 0 s.cohorts e
        let gs := (List.range 16).filter fun g => bits m (8 * g + 7) (8 * g) != 0
        let copies : List Pkt := gs.map fun g => { p with src := 3000, dst := .lg g, body := .lane t job pe (some e) }
        s.updNet fun n => { n with cohortQ := n.cohortQ.erase p, transit := n.transit ++ copies }
      | _ => s) s

/-! ### Registers (R258) -/

/-- The counters of ports +0x08 to +0x0D reset (R258); what this fc has counted is counted after the reset. -/
def State.veClear (l : Nat) (s : State) : State :=
  s.updLane l fun x => { x with ve := s.recountAfter .ve l 0x1B 0x1B (s.recountAfter .ve l 0x08 0x0D x.ve) }

/-- VE_CNT_CLR (R258). -/
def execVeCntClr (lane : Nat) (s : State) : Out :=
  State.plain (State.regDom (lgDom (lane / 8)) (.veCntClr lane) (State.veClear lane)) s

/-- The bits that Table 07-2 gives a listed word; the others read as zero (R12, R230). -/
def indMask (a : Nat) : Nat :=
  if 0x10000 ≤ a && a < 0x10100 then 0x3F
  else if 0x13000 ≤ a && a < 0x14000 then 0xFFF
  else if 0x15000 ≤ a && a < 0x15010 then
    (if a % 4 = 1 then 0x80FFFFFF else if a % 4 = 2 then 0xFFFFFF else if a % 4 = 3 then 0 else 0xFFFFFFFF)
  else if a = 0x15010 then 0x13F
  else if a = 0x15012 then 0xFFFF
  else if 0x15020 ≤ a && a < 0x15040 then 0x3F3F3F3F
  else 0xFFFFFFFF

/-- An access to VE_IND_DATA (R230, R258): an indirect word is written, unless the lane's site belongs to a live job; the
address then advances when its increment bit is set. -/
def State.indAccess (l : Nat) (w : Option Nat) (s : State) : State :=
  let ad := s.ioReg (veBase l + 6) 0
  let i := bits ad 16 0
  let busy := match s.siteOfLane l with | some k => s.siteTaken k | none => false
  let s1 := match w with
    | none => s
    | some v => if busy || !indListed i then s else s.updLane l fun x => { x with ind := x.ind.put i (v &&& indMask i) }
  if bit ad 31 then s1.setReg (.io 0) (veBase l + 6) (setBits ad 16 0 ((i + 1) % 2 ^ 17)) else s1

/-- VE_IND_ACCESS. -/
def execVeIndAccess (lane : Nat) (write : Option Word) (s : State) : Out :=
  State.plain (State.regDom (lgDom (lane / 8)) (.veIndAccess lane write) (State.indAccess lane (write.map (·.toNat)))) s

end Sys2Proof.Machine
end

