-- ==== Sys2Proof/Machine/PairOps.lean ====
section
/-! DEFINITION. What chapter 13 does to a package from many places: UNPROTECTED, DETACHED, journalled results of firings
(R433, R441, R443, R448, R454). -/

namespace Sys2Proof.Machine
open Sys2Proof

/-! ### Removing contexts everywhere -/

/-- A PE keeps only what belongs to the contexts that a test keeps. -/
def Pe.filterCtx (keep : Nat → Bool) (p : Pe) : Pe :=
  let kt (t : Tok) : Bool := keep t.ctx.toNat
  let kf (f : Firing) : Bool := keep f.ctx
  { (p.spill.filter fun x => !kt x.ent.tok).foldl (fun p x => p.cellDown x.ent.tok.cell) p with
           qU := p.qU.filter (kt ·.2), qG := p.qG.filter (kt ·.2), inU := p.inU.filter kt, inG := p.inG.filter kt,
           outL := p.outL.map fun x => (x.1, x.2.filter kt), half := p.half.filter fun h => kt h.2.2.2,
           ents := p.ents.filter fun e => kt e.2.tok, spill := p.spill.filter fun x => kt x.ent.tok,
           park := p.park.filter fun k => kt k.tok, ready := p.ready.filter kf, fk := p.fk.filter kf,
           ovf := p.ovf.filter fun x => kf x.2, fire := p.fire.filter fun x => kf x.2,
           svc := p.svc.filter fun v => kf v.f, trapIn := p.trapIn.filter kt, dying := p.dying.filter keep,
           sweeps := p.sweeps.filter fun w => keep w.ctx }

/-- The context that a packet's content belongs to, if any. -/
def Body.ctx? : Body → Option Nat
  | .tok t => some t.ctx.toNat
  | .lane t _ _ _ => some t.ctx.toNat
  | .mem r => some r.ctx
  | .tally r => some r.ctx
  | .ctx _ _ c _ => some c
  | .out _ _ c _ _ => some c
  | .trap m => some (bits m.key 63 44)
  | .rsp .. => none
  | .reply .. => none
  | .answer .. => none

/-- Whether a body may stay. -/
def Body.kept (keep : Nat → Bool) (b : Body) : Bool := match b.ctx? with | some c => keep c | none => true

/-- The regions' entries of dropped contexts and of overflow records that are gone leave the Cabinet. -/
def State.dropEnts (keep : Nat → Bool) (s : State) : State :=
  s.cab.regions.foldl (fun s r =>
    let ovf := (s.pe (s.physOf r.1)).ovf
    let gone (e : Ent) : Bool := if e.isOvf then !ovf.any (fun x => x.1 = e.tok.iter.toNat) else !keep e.tok.ctx.toNat
    ((r.2.ents.filter fun e => gone e.2).foldl (fun s e => s.cabDrop r.1 e.1 e.2) s).restage r.1) s

/-- A kill notice. -/
def Notice.isKill : Notice → Bool
  | .kill _ _ => true
  | _ => false

/-- Every job, its contexts and the queued jobs are dropped without record, completion or message (R454, R457): the
system context and the contexts that it starts stay. -/
def State.dropJobs (s : State) : State :=
  let keep (c : Nat) : Bool := c == 0 || (s.ctxLive c && (s.ctx c).job == sysJob)
  let kb (b : Body) : Bool := b.kept keep
  State.dropEnts keep { s with
    pes := s.pes.map fun p => (p.1, p.2.filterCtx keep),
    cm := { s.cm with ctxs := s.cm.ctxs.filter fun c => keep c.1, cache := s.cm.cache.filter fun c => keep c.1,
                      missQ := s.cm.missQ.filter fun m => keep m.2.2.1, grantQ := [], queue := [], jobs := [], killQ := [],
                      kills := [], acks := [], fence := none, fenced := s.cm.fenced.filter keep, waiting := [],
                      istrDying := s.cm.istrDying.filter keep,
                      db := { lo := s.cm.db.lo } },
    net := { s.net with transit := s.net.transit.filter fun k => kb k.body,
                        holdBuf := s.net.holdBuf.filter fun k => kb k.body, killIn := [], cohortQ := [],
                        notices := s.net.notices.filter fun x => !x.isKill,
                        heldNotices := s.net.heldNotices.filter fun x => !x.2.isKill },
    sites := s.sites.map fun p => (p.1, { p.2 with job := none, queue := [], cur := none, branch := none, staged := [],
                                                   brq := [], ctl := [], rearm := [], trig := false }),
    lgs := s.lgs.map fun p => (p.1, { p.2 with ops := [], inbox := [] }),
    cus := s.cus.map fun p => (p.1, { p.2 with frets := [], fifo := [], held := [], heldAcc := none, summary := false,
                                               acc := {}, destSet := false }),
    outlets := s.outlets.map fun p =>
      (p.1, { p.2 with ports := p.2.ports.map fun q => (q.1, q.2.filter fun k => kb k.body),
                       open_ := p.2.open_.filter fun r => keep r.ctx, done := p.2.done.filter fun r => keep r.ctx,
                       dead := p.2.dead.filter fun d => keep d.1 }),
    ddrs := s.ddrs.map fun p => (p.1, { p.2 with q := p.2.q.filter fun r => keep r.ctx,
                                                 atomics := p.2.atomics.filter fun r => keep r.ctx,
                                                 istr := p.2.istr.filter fun r => keep r.ctx }),
    shelfAtomics := s.shelfAtomics.filter fun r => keep r.ctx,
    istr := s.istr.map fun p => (p.1, p.2.filter fun r => keep r.ctx),
    tally := s.tally.map fun p => (p.1, { p.2 with q := p.2.q.filter fun r => keep r.ctx }),
    st := { s.st with fwTraps := s.st.fwTraps.filter fun m => keep (bits m.key 63 44) },
    readers := s.readers.map fun p => (p.1, { p.2 with lanes := [] }),
    arb := s.arb.map fun w => { w with cmds := w.cmds.filter fun c =>
      match c.what with | .sitectl .. => false | .branch .. => false | _ => true } }

/-! ### Pair states (R433, R448, R454) -/

/-- The package becomes DETACHED with a cause (R433, R448, R454). -/
def State.detach (cause : Nat) (s : State) : State :=
  let s1 := (s.dropJobs.pegForce fun p => p.owner == 7).updPair fun p =>
    { p with state := 3, detach := cause, detachCnt := sat32 p.detachCnt 1, unprot := false, running := false, journal := [],
             sent := [], rxCur := [], rxDigest := none, values := [], grants := [], seqs := [], branchPts := [], modes := [], ctls := [],
             capHeld := [], acked := none, suspectAt := none }
  (s1.event cBr 0 0x80FF cause).alert 7

/-- A fault that would leave the standby's state different from the active's (R448). -/
def State.standbyFault (cause : Nat) (s : State) : State := if s.standby then s.detach cause else s

end Sys2Proof.Machine
end

