-- ==== Sys2Proof/Machine/Mailbox.lean ====
section
/-! DEFINITION. How a mailbox command is served and completed (R407 to R411, R443, R453, R496). A mailbox number of 16 and
above stands for the replay of a journalled command of mailbox number − 16 at the standby (R441). -/

namespace Sys2Proof.Machine
open Sys2Proof

/-- The mailbox commands that are journalled (Table 12-7). -/
def mbJournalled (id : Nat) : Bool := [0x10, 0x11, 0x20, 0x21, 0x22, 0x30, 0x31, 0x40, 0x51, 0x90].contains id

/-- The ids of Table 12-7. -/
def mbIds : List Nat :=
  [0x01, 0x02, 0x10, 0x11, 0x20, 0x21, 0x22, 0x23, 0x24, 0x30, 0x31, 0x40, 0x50, 0x51, 0x52, 0x60, 0x61, 0x62, 0x63, 0x70,
   0x71, 0x72, 0x73, 0x80, 0x81, 0x90, 0x91, 0xA0, 0xB0, 0xB1, 0xB2]

/-- The ids that the BMC may send (Table 12-7). -/
def mbBmc (id : Nat) : Bool := [0x01, 0x02, 0x22, 0x50, 0x80, 0x81, 0x90, 0x91, 0xB2].contains id

/-- The ids that the boot ROM serves in a device state (R496). -/
def mbBootRom (dev id : Nat) : Bool :=
  if dev = 0 then [0x01, 0x02, 0xB0, 0xB1, 0xB2, 0x61].contains id
  else if dev = 3 then [0x01, 0x02, 0xB2, 0x70].contains id
  else false

/-- Id, tag and argument length in the command word. -/
def Mbox.cmdId (x : Mbox) : Nat := bits x.cmd 7 0
def Mbox.cmdTag (x : Mbox) : Nat := bits x.cmd 15 8
def Mbox.argLen (x : Mbox) : Nat := bits x.cmd 23 16

/-- The arguments: bytes beyond arg_len are none of them. -/
def Mbox.args (x : Mbox) : List Byte := padTo 224 (x.data.take x.argLen)

/-- The in-band interrupt byte of mailbox 15's completion (Table 12-16). -/
def ibiMb : Nat := 0x20

/-- A mailbox reaches DONE: response, length, time and status, then its message (R408, R423). -/
def State.mbDone (m status : Nat) (rsp : List Byte) (s : State) : State :=
  let x := s.mb m
  let s1 := s.updMb m fun x => { x with data := padTo 224 rsp, rspLen := rsp.length, time := s.time, status := status,
                                        state := 3, held := none }
  if !bit x.cfg 0 || x.orphan then s1 else if m = 15 then s1.ibi ibiMb else s1.msix0 m

/-- A command completes. The active holds the DONE of a journalled one until its epoch is acknowledged (R443); a replay's
outcome is kept with its mailbox (R453). -/
def State.finish (m status : Nat) (rsp : List Byte) (s : State) : State :=
  if 16 ≤ m then
    let x := s.mb m
    (s.updMb (m - 16) fun y => { y with replay := some (x.id, x.tag, status, rsp) }).updMb m fun _ => {}
  else
    match (if mbJournalled (s.mb m).id then s.holdEpoch else none) with
    | some e => s.updMb m fun x => { x with held := some (e, status, rsp) }
    | none => s.mbDone m status rsp

/-- Peg results and mailbox completions held for epochs up to k, or all of them, are released (R443, R454). -/
def State.releaseHeld (k : Option Nat) (s : State) : State :=
  let free (e : Nat) : Bool := match k with | none => true | some n => e ≤ n
  let pg := s.pair.pegHeld.filter fun x => free x.1
  let s1 := (s.updPair fun p => { p with pegHeld := p.pegHeld.filter fun x => !free x.1 }).updCl fun c =>
    { c with pegRes := pg.foldl (fun _ x => x.2) c.pegRes }
  (List.range 16).foldl (fun s m =>
    match (s.mb m).held with
    | some (e, st, rsp) => if free e then s.mbDone m st rsp else s
    | none => s) s1

/-- The active becomes UNPROTECTED: journalling ends, everything held is released, alert bit 7, and a
swap in service is over (R433, R448, R454, R464). -/
def State.setUnprot (s : State) : State :=
  if s.pair.state != 1 then s
  else
    let s1 := ((s.updPair fun p =>
      { p with unprot := true, running := false, acked := none, journal := [], sent := [], swapMb := none, swapAt := none }
      ).releaseHeld none).alert 7
    match s.pair.swapMb with | some m => s1.mbDone m TIMEOUT [] | none => s1

/-- A completion with no response. -/
def State.fin (m status : Nat) (s : State) : State := s.finish m status []

/-- Whether every byte of the arguments that no field names is zero (R409, R411). -/
def unnamedZero (a : List Byte) (n : Nat) (named : List (Nat × Nat)) : Bool :=
  (List.range n).all fun i => named.any (fun f => f.1 ≤ i && i < f.1 + f.2) || a.getD i 0 == 0

/-- The steward cluster restarts, or none of its cores runs until the sentinel restarts it (R383, R409). -/
def State.clusterDown (s : State) : Bool := s.st.restarting || (List.range 4).all fun st => (s.core st).halted

/-- The checks of R409 on a queued command with a layout: the status of the first that fails. -/
def State.mbCheck (s : State) (m len : Nat) (named : List (Nat × Nat)) (enc absent : Bool) : Option Nat :=
  let x := s.mb m
  let id := x.cmdId
  if 16 ≤ m then none
  else if s.clusterDown then some BUSY
  else if !s.fwRuns && !mbBootRom s.boot.dev id then some (if s.boot.dev = 3 then TAMPER_HOLD else NOT_ACTIVE)
  else if !mbIds.contains id then some BAD_ARG
  else if m = 15 && !mbBmc id then some DENIED
  else if x.argLen < len || !unnamedZero x.args x.argLen named || !enc then some BAD_ARG
  else if absent then some ABSENT
  else if mbJournalled id && (s.pair.state == 2 || s.pair.state == 3 || (s.pair.state == 4 && id != 0x51)) then
    some NOT_ACTIVE
  else none

/-- The command's HOSTCMD record (R440, R443). -/
def State.hostCmd (m : Nat) (s : State) : State :=
  let x := s.mb m
  if 16 ≤ m then s else s.jrnl 0x06 [m, m, x.id, x.tag, x.argLen] (x.data.take x.argLen)

/-- Whether a journalled command must stay QUEUED (R408, R445, R511). -/
def State.mbWaits (s : State) (m id : Nat) : Bool :=
  m < 16 && mbJournalled id && !s.hostRoom

/-- A queued command of an id (and of a form in byte 0 of its arguments) is served: refused by R409, answered from the
replay of R453, or carried out. `forms` is how many forms the id has; the row of form 0 also refuses the others. An
arbitrated command writes its HOSTCMD record when its window closes. -/
def State.serveMb (m id forms form len : Nat) (named : List (Nat × Nat)) (enc absent : List Byte → Bool) (arb : Bool)
    (act : List Byte → State → State) (s : State) : State :=
  let x := s.mb m
  let f := (x.args.getD 0 0).toNat
  if x.state != 1 || x.cmdId != id || (1 < forms && f != form && !(form = 0 && forms ≤ f)) then s
  else if m < 16 && !s.domOn 1 then s.wakeDom 1
  else
    let s1 := s.updMb m fun x => { x with id := x.cmdId, tag := x.cmdTag, rspLen := 0,
                                          st := (Tbl.get {} s.st.routes m).st }
    match s.mbCheck m len named (enc x.args && (forms ≤ 1 || f < forms)) (absent x.args) with
    | some c => s1.mbDone m c []
    | none =>
      match (if mbJournalled id then x.replay else none) with
      | some (i, t, st, rsp) =>
        if i = id && t = x.cmdTag then s1.mbDone m st rsp
        else if s.mbWaits m id then s
        else act x.args ((when (mbJournalled id && !arb) (State.hostCmd m) s1).updMb m fun x => { x with state := 2 })
      | none =>
        if s.mbWaits m id then s
        else act x.args ((when (mbJournalled id && !arb) (State.hostCmd m) s1).updMb m fun x => { x with state := 2 })

/-- No further check on encodings or units. -/
def okArgs : List Byte → Bool := fun _ => true
def noAbsent : List Byte → Bool := fun _ => false

/-- A DDR5 source is read: its charge, and the errors found in it (R351, R353). -/
def State.sourceRd (loc addr len : Nat) (s : State) : State :=
  if loc = 1 && s.inJobArea addr len then s.ddrRd 6 addr len else s

/-- An image that loc, len and addr name (R410): the status of the command where it cannot be read. -/
def State.image (s : State) (loc addr len : Nat) : Except Nat (List Byte) :=
  if loc = 0 then
    (if !s.host.pf0.bme then .error DENIED else if s.hostReads addr len then .ok (s.hostBytes addr len) else .error BAD_ARG)
  else if s.inJobArea addr len && !s.poisonedAt addr len then .ok (s.ddrBytes addr len) else .error BAD_ARG

/-- MB_GO_UNDEFINED_ID (R409): a queued command whose id is not in Table 12-7. -/
def execMbGoUndefinedId (mb : Nat) (s : State) : Out :=
  State.plain (fun s =>
    let x := s.mb mb
    if x.state != 1 || mbIds.contains x.cmdId then s
    else if !s.domOn 1 then s.wakeDom 1
    else
      (s.updMb mb fun x => { x with id := x.cmdId, tag := x.cmdTag }).mbDone mb ((s.mbCheck mb 0 [] true false).getD BAD_ARG) []) s

end Sys2Proof.Machine
end

