-- ==== Sys2Proof/Machine/Flash.lean ====
section
/-! DEFINITION. The flash devices and their engine (R497, R499 to R507): areas, firmware slots, boot records, the settings
image, the two queues of unit steps, and the flash commands. -/

namespace Sys2Proof.Machine
open Sys2Proof

/-! ### Devices and areas -/

/-- Device sizes: the least that Table 15-5 allows (log entry 20, DESIGN CHOICE). -/
def flSize (cs : Nat) : Nat := if cs = 0 then 2 ^ 25 else 2 ^ 26

/-- A device's content; an unlisted byte is erased. -/
def State.flMem (s : State) (cs : Nat) : Mem := if cs = 0 then s.boot.cs0 else s.boot.cs1

/-- A device's content replaced. -/
def State.setFl (cs : Nat) (m : Mem) (s : State) : State :=
  s.updBoot fun b => if cs = 0 then { b with cs0 := m } else { b with cs1 := m }

/-- Bytes of a device. -/
def State.flBytes (s : State) (cs a n : Nat) : List Byte := Mem.readBytes 0xFF (s.flMem cs) a n

/-- A page program clears bits only. -/
def State.flProg (cs a : Nat) (bs : List Byte) (s : State) : State :=
  s.setFl cs (Mem.writeBytes 0xFF (s.flMem cs) a ((s.flBytes cs a bs.length).zipWith (· &&& ·) bs))

/-- A 4 KiB erase. -/
def State.flErase (cs a : Nat) (s : State) : State :=
  s.setFl cs (Mem.writeBytes 0xFF (s.flMem cs) a (List.replicate 4096 0xFF))

/-- A device's queue (R502). -/
def State.flQ (s : State) (cs : Nat) : List FlOp := if cs = 0 then s.boot.q0 else s.boot.q1

def State.setFlQ (cs : Nat) (q : List FlOp) (s : State) : State :=
  s.updBoot fun b => if cs = 0 then { b with q0 := q } else { b with q1 := q }

/-- An operation joins a device's queue in arrival order. -/
def State.flPut (cs : Nat) (x : FlOp) (s : State) : State := s.setFlQ cs (s.flQ cs ++ [x])

/-- Whether [a, a + n) meets [lo, hi). -/
def meets (a n lo hi : Nat) : Bool := a < hi && lo < a + n

/-- The areas of Table 15-7 that are closed to a write now. -/
def State.flClosed (s : State) (cs a n : Nat) : Bool :=
  if cs = 0 then s.fwRuns && meets a n 0 0x2000000
  else (s.fwRuns && (meets a n 0 0x2200000 || meets a n 0x2210000 0x2230000))
    || (!s.otp.extHash.isEmpty && meets a n 0x2200000 0x2210000)

/-! ### Firmware slots (R497) -/

/-- The image of a slot when it is valid under R497. -/
def State.slotImage (s : State) (slot : Nat) : Option Image :=
  let base := slot * 0x1000000
  let h := s.flBytes 0 base 4096
  let len := fld h 0x14 4
  let svn := fld h 0xC 1
  if fld h 0 4 = 0x4D57464B && fld h 4 2 = 1 && fld h 6 2 < 2 && svn ≤ 64 && fld h 0xD 1 = 0 && fld h 0x12 2 = 0
      && 4 ≤ len && len ≤ 16773120 && allZero (slice h 0xA9 87) && allZero (slice h 0x160 3744)
      && Config.sha384 (slice h 0x48 97) == padTo 48 s.otp.vendorHash
      && Config.ecdsaOk (slice h 0x48 97) (Config.sha384 (h.take 0x100)) (slice h 0x100 96)
      && Config.sha384 (s.flBytes 0 (base + 0x1000) len) == slice h 0x18 48 && s.otp.svnFloor ≤ svn then
    some { version := fld h 8 4, svn := svn, api := fld h 0xE 2, setFmt := fld h 0x10 2, raise := bit (fld h 6 2) 0 }
  else none

/-! ### Boot records (R500) -/

/-- A boot record's bytes. -/
def BootRec.bytes (r : BootRec) : List Byte :=
  let b := leBytes 4 0x54425344 ++ leBytes 4 r.seq ++ leBytes 1 r.active ++ leBytes 1 r.prev ++ leBytes 1 (b2n r.trial)
    ++ leBytes 1 r.attempts ++ leBytes 2 r.timeout ++ zeros 46
  b ++ leBytes 4 (crc32 b)

/-- A boot record with a good CRC. -/
def bootRecOf (b : List Byte) : Option BootRec :=
  if fld b 0 4 = 0x54425344 && crc32 (b.take 60) = fld b 60 4 then
    some { seq := fld b 4 4, active := fld b 8 1 % 2, prev := fld b 9 1 % 2, trial := fld b 10 1 != 0,
           attempts := fld b 11 1, timeout := fld b 12 2 }
  else none

/-- Where record i of a boot-record sector lies. -/
def brAddr (sec i : Nat) : Nat := 0x2210000 + 0x10000 * sec + 64 * i

/-- The record with the highest seq and a good CRC, with its sector, and the next free place of that sector. -/
def State.scanRecs (s : State) : Option BootRec × Nat × Nat :=
  let best := (List.range 2048).foldl (fun b i =>
    match bootRecOf (s.flBytes 1 (brAddr (i / 1024) (i % 1024)) 64), b with
    | some r, some (q, k) => if q.seq < r.seq then some (r, i) else some (q, k)
    | some r, none => some (r, i)
    | none, b => b) (none : Option (BootRec × Nat))
  let sec := match best with | some (_, i) => i / 1024 | none => 0
  let used := (List.range 1024).foldl (fun n i =>
    if (s.flBytes 1 (brAddr sec i) 64).all (· == 0xFF) then n else i + 1) 0
  (best.map (·.1), sec, used)

/-- A record is appended into the sector in use, or into the other one, erased first, when that sector is full (R500). -/
def State.appendBoot (r : BootRec) (ends : FlEnd) (mb : Option Nat) (s : State) : State :=
  let r' := { r with seq := match s.boot.record with | some q => q.seq + 1 | none => 0 }
  let full := 1024 ≤ s.boot.brNext
  let sec := if full then 1 - s.boot.brSector else s.boot.brSector
  let i := if full then 0 else s.boot.brNext
  (s.updBoot fun b => { b with brSector := sec, brNext := i + 1,
                               record := match ends with | .activate _ => b.record | _ => some r' }).flPut 1
    { off := brAddr sec i, erase := if full then 16 else 0, data := r'.bytes, ends := ends, mb := mb }

/-! ### The settings image (R503) -/

/-- A settings record's bytes. -/
def setRec (p : Nat × List Byte) : List Byte :=
  leBytes 2 p.1 ++ leBytes 2 p.2.length ++ padTo (4 * cdiv p.2.length 4) p.2

/-- A settings image. -/
def settingsBytes (fmt seq trialSeq : Nat) (trial : Bool) (t : Tbl (List Byte)) : List Byte :=
  let body := t.flatMap setRec
  leBytes 4 0x47545353 ++ leBytes 2 fmt ++ leBytes 2 (b2n trial) ++ leBytes 4 seq ++ leBytes 4 trialSeq
    ++ leBytes 4 body.length ++ leBytes 4 (crc32 body) ++ zeros 40 ++ body

/-- The records of a body, at most `n`. -/
def setRecs : Nat → List Byte → Tbl (List Byte)
  | 0, _ => []
  | n + 1, b =>
    if b.length < 4 then []
    else
      let len := fld b 2 2
      (setRecs n (b.drop (4 + 4 * cdiv len 4))).put (fld b 0 2) (slice b 4 len)

/-- A settings image as read: format, trial flag, seq, records; none when its CRC is bad. -/
def settingsOf (b : List Byte) : Option (Nat × Bool × Nat × Tbl (List Byte)) :=
  let len := fld b 16 4
  if fld b 0 4 = 0x47545353 && len ≤ 0x100000 - 64 && crc32 (slice b 64 len) = fld b 20 4 then
    some (fld b 4 2, bit (fld b 6 2) 0, fld b 8 4, setRecs (len / 4) (slice b 64 len))
  else none

/-- The settings area of a copy: 0 primary, 1 backup. -/
def State.settingsAt (s : State) (k : Nat) : Option (Nat × Bool × Nat × Tbl (List Byte)) :=
  settingsOf (s.flBytes 1 (0x100000 * k) 0x100000)

/-- Firmware writes the settings: primary first, then backup; during a trial the primary alone, flagged (R505). -/
def State.writeSettings (s : State) : State :=
  let seq := s.boot.setSeq + 1
  let bs := settingsBytes s.boot.image.setFmt seq (match s.boot.record with | some r => if s.boot.trial then r.seq else 0 | none => 0)
    s.boot.trial s.boot.settings
  let n := cdiv bs.length 4096
  let s1 := (s.updBoot fun b => { b with setSeq := seq }).flPut 1 { off := 0, erase := n, data := bs, ends := .keep }
  when (!s.boot.trial) (State.flPut 1 { off := 0x100000, erase := n, data := bs, ends := .keep }) s1

/-- A settings record changes and is made to last (R485, R473). -/
def State.persist (tag : Nat) (data : List Byte) (s : State) : State :=
  (s.updBoot fun b => { b with settings := b.settings.put tag data }).writeSettings

/-! ### Unit steps (R502) -/

/-- A flash operation is over: its status is the last one, refusals count, its mailbox completes. -/
def State.flFin (mb : Option Nat) (c : Nat) (rsp : List Byte) (s : State) : State :=
  let s1 := s.updBoot fun b =>
    { b with flStat := c, refuseCnt := if c = NOT_BLANK || c = DENIED || c = VERIFY_FAIL then sat32 b.refuseCnt 1
                                       else b.refuseCnt }
  match mb with
  | some m => s1.finish m c rsp
  | none => s1

/-- The end of an operation that has left its queue. -/
def State.flEnd (cs : Nat) (x : FlOp) (s : State) : State :=
  match x.ends with
  | .done => s.flFin x.mb (if x.blank && s.flBytes cs x.off x.data.length != x.data then VERIFY_FAIL else OK) []
  | .keep => s.flFin x.mb OK []
  | .bytes => s.flFin x.mb OK (s.flBytes cs x.off x.read)
  | .stage slot =>
    if (s.slotImage slot).isSome then s.flFin x.mb OK []
    else s.setFlQ cs ({ off := slot * 0x1000000, erase := 4096, ends := .failed, mb := x.mb } :: s.flQ cs)
  | .failed => s.flFin x.mb VERIFY_FAIL []
  | .fetch slot t =>
    if (s.slotImage slot).isNone then (s.updBoot fun b => { b with activating := none }).flFin x.mb DENIED []
    else s.appendBoot { active := slot, prev := s.boot.running.getD 0, trial := true, attempts := 0, timeout := t }
      (.activate slot) x.mb
  | .activate _ =>
    ((s.updBoot fun b => { b with record := bootRecOf x.data, dev := 4 }).updCl fun c => { c with restarting := true }).flFin
      x.mb ACCEPTED []
  | .confirm =>
    let bs := s.flBytes 1 0 (min (64 + fld (s.flBytes 1 0 64) 16 4) 0x100000)
    s.flPut 1 { off := 0x100000, erase := cdiv bs.length 4096, data := bs, ends := .keep, mb := x.mb }

/-- Whether nothing of an operation is left. -/
def FlOp.over (x : FlOp) : Bool := x.erase ≤ x.erased && x.data.length ≤ x.pos && x.read ≤ x.pos

/-- One unit step of the operation at a queue's head: an erase of 4 KiB, a page of 256 B or a read of up to 4 KiB. -/
def State.flUnit (cs : Nat) (x : FlOp) (s : State) : FlOp × State :=
  if x.erased < x.erase then
    ({ x with erased := x.erased + 1 },
     (s.flErase cs (x.off / 4096 * 4096 + 4096 * x.erased)).updBoot fun b => { b with eraseCnt := sat32 b.eraseCnt 1 })
  else if x.pos < x.data.length then
    let a := x.off + x.pos
    let n := 256 - a % 256
    ({ x with pos := min (x.pos + n) x.data.length },
     (s.flProg cs a (slice x.data x.pos n)).updBoot fun b => { b with progCnt := sat32 b.progCnt 1 })
  else ({ x with pos := min (x.pos + 4096) x.read }, s)

/-- FLASH_UNIT_STEP (R501, R502): the blank check covers the whole range before the first byte is written. -/
def execFlashUnitStep (cs : Nat) (s : State) : Out :=
  State.plain (fun s =>
    match s.flQ cs with
    | [] => s
    | x :: r =>
      if x.blank && x.pos = 0 && !(s.flBytes cs x.off x.data.length).all (· == 0xFF) then
        (s.setFlQ cs r).flFin x.mb NOT_BLANK []
      else
        let (y, s1) := s.flUnit cs x
        if y.over then (s1.setFlQ cs r).flEnd cs y else s1.setFlQ cs (y :: r)) s

/-! ### Mailbox commands -/

/-- A flash command's range lies in a device (check 1 of R501). -/
def flRange (cs off len : Nat) : Bool := cs < 2 && off + len ≤ flSize cs

/-- FLASH_ERASE. -/
def execFlashErase (mb : Nat) (s : State) : Out :=
  State.plain (State.serveMb mb 0xB0 1 0 12 [(0, 1), (4, 4), (8, 4)] okArgs noAbsent false fun a s =>
    let cs := fld a 0 1
    let off := fld a 4 4
    let len := fld a 8 4
    if !flRange cs off len || off % 4096 != 0 || len % 4096 != 0 then s.flFin (some mb) BAD_ARG []
    else if s.flClosed cs off len then s.flFin (some mb) DENIED []
    else s.flPut cs { off := off, erase := len / 4096, mb := some mb }) s

/-- FLASH_PROGRAM. -/
def execFlashProgram (mb : Nat) (s : State) : Out :=
  State.plain (State.serveMb mb 0xB1 1 0 24 [(0, 1), (1, 1), (4, 4), (8, 4), (16, 8)] (fun a => fld a 1 1 ≤ 1) noAbsent
    false fun a s =>
      let cs := fld a 0 1
      let off := fld a 4 4
      let len := fld a 8 4
      if !flRange cs off len then s.flFin (some mb) BAD_ARG []
      else if s.flClosed cs off len then s.flFin (some mb) DENIED []
      else
        let s := s.sourceRd (fld a 1 1) (fld a 16 8) len
        match s.image (fld a 1 1) (fld a 16 8) len with
        | .error c => s.flFin (some mb) c []
        | .ok img => s.flPut cs { off := off, data := img, blank := true, mb := some mb }) s

/-- FLASH_READ. -/
def execFlashRead (mb : Nat) (s : State) : Out :=
  State.plain (State.serveMb mb 0xB2 1 0 10 [(0, 1), (4, 4), (8, 2)] (fun a => 1 ≤ fld a 8 2 && fld a 8 2 ≤ 192) noAbsent
    false fun a s =>
      let cs := fld a 0 1
      let off := fld a 4 4
      let len := fld a 8 2
      if !flRange cs off len then s.flFin (some mb) BAD_ARG []
      else s.flPut cs { off := off, read := len, ends := .bytes, mb := some mb }) s

/-- The slot that does not run. -/
def State.otherSlot (s : State) : Nat := 1 - s.boot.running.getD 0

/-- A trial waits for its confirmation, or an activation is under way. -/
def State.confPending (s : State) : Bool := s.boot.trial || s.boot.activating.isSome

/-- FW_STAGE (R410, R507). -/
def execFwStage (mb : Nat) (s : State) : Out :=
  State.plain (State.serveMb mb 0x60 1 0 16 [(0, 1), (4, 4), (8, 8)] (fun a => fld a 0 1 ≤ 1) noAbsent false fun a s =>
    let len := fld a 4 4
    if s.confPending then s.flFin (some mb) DENIED []
    else if len < 4100 || 16777216 < len then s.fin mb BAD_ARG
    else
      let s := s.sourceRd (fld a 0 1) (fld a 8 8) len
      match s.image (fld a 0 1) (fld a 8 8) len with
      | .error c => s.fin mb c
      | .ok img =>
        if len != 4096 + fld img 0x14 4 then s.fin mb BAD_ARG
        else s.flPut 0 { off := s.otherSlot * 0x1000000, erase := 4096, data := img, ends := .stage s.otherSlot,
                         mb := some mb }) s

/-- FW_ACTIVATE while firmware runs (R508): the new slot is read through the flash engine, checked again, the boot record
written, and the cluster restarted. -/
def State.activate (mb t : Nat) (s : State) : State :=
  if s.confPending || (s.slotImage s.otherSlot).isNone then s.fin mb DENIED
  else if t != 0 && (t < 10 || 600 < t) then s.fin mb BAD_ARG
  else
    let t' := if t != 0 then t else match Tbl.find s.boot.settings 0x60 with | some d => fld d 0 2 | none => 120
    let n := 4096 + fld (s.flBytes 0 (s.otherSlot * 0x1000000) 4096) 0x14 4
    (s.updBoot fun b => { b with activating := some s.otherSlot }).flPut 0
      { off := s.otherSlot * 0x1000000, read := n, ends := .fetch s.otherSlot t', mb := some mb }

/-- FW_REVERT (R510): the record with the previous slot active is appended, and the cluster restarts on it. -/
def State.revert (s : State) : State :=
  let cur := s.boot.running.getD 0
  ((s.appendBoot { active := s.boot.prevSlot, prev := cur, trial := false } .keep none).updBoot fun b =>
    { b with trial := false, confAt := none, reverting := true, dev := 4, activating := some b.prevSlot }).updCl fun c =>
      { c with restarting := true }

def execFwRevert (mb : Nat) (s : State) : Out :=
  State.plain (State.serveMb mb 0x63 1 0 0 [] okArgs noAbsent false fun _ s =>
    if !s.boot.trial then s.fin mb NOT_ACTIVE else (s.fin mb OK).revert) s

/-- FW_CONFIRM (R509): the record is queued, the copy of the settings follows it, and the completion follows both. -/
def State.confirm (mb : Nat) (s : State) : State :=
  if !s.boot.trial then s.fin mb NOT_ACTIVE
  else
    let cur := s.boot.running.getD 0
    (s.appendBoot { active := cur, prev := s.boot.prevSlot, trial := false } .confirm (some mb)).updBoot fun b =>
      { b with trial := false, confAt := none }

/-- FW_CONFIRM raises svn_floor to the image's svn when raise_floor is set: fuses only ever set (R497). -/
def execFwConfirm (mb : Nat) (s : State) : Out :=
  let n := State.serveMb mb 0x62 1 0 0 [] okArgs noAbsent false (fun _ s => s.confirm mb) s
  let up := s.boot.trial && !n.boot.trial && s.boot.image.raise
  .next { n with time := s.time, pending := s.pending,
                 otp := { s.otp with svnFloor := if up then max s.otp.svnFloor s.boot.image.svn else s.otp.svnFloor } }

end Sys2Proof.Machine
end

