-- ==== Sys2Proof/Machine/Mem.lean ====
section
/-! DEFINITION. DDR5 (R349 to R356, R367, R368), the Shelf (R357 to R359), far atomics (R360, R361), the I-structure
controllers (R162 to R165, R563) and the tally units (R182, R183). -/

namespace Sys2Proof.Machine
open Sys2Proof

/-! ### Geometry and budget (R350, R353, R354, R368) -/

def dcReg (c r : Nat) : Nat := 0xD000 + 0x10 * c + r
def State.dcCfg (s : State) (c : Nat) : Nat := s.ioReg (dcReg c 0) 0x12
def State.dcOn (s : State) (c : Nat) : Bool := c < s.nDc && bit (s.dcCfg c) 8

/-- GiB of a channel: eight data devices a rank (R349, Table 10-13). -/
def State.chanGiB (s : State) : Nat := [16, 24, 32].getD (bits (s.dcCfg 0) 4 3) 32 * (bits (s.dcCfg 0) 2 2 + 1)

/-- The first address above populated memory. -/
def State.ddrTop (s : State) : Nat := s.nDc * s.chanGiB * 2 ^ 30

/-- Hundredths of a GB/s that one channel gives at a rate. -/
def chanRate (rate : Nat) : Nat := [3750, 4375, 5000].getD rate 5000

/-- Whether a channel refreshes at twice the normal rate. -/
def State.derated (s : State) : Bool := (List.range s.nDc).any fun c => (s.dc c).hot

/-- DDR_USABLE (R353). -/
def State.ddrUsable (s : State) : Nat :=
  let x := s.nDc * chanRate (bits (s.dcCfg 0) 1 0)
  (if s.derated then x * 94 / 100 else x) / 100

/-- The reset shares of Table 10-8 and the order beyond share. -/
def shareTable : List Nat := [64, 8, 64, 160, 64, 16, 8, 1]
def beyondOrder : List Nat := [1, 2, 0, 3, 4, 6, 5, 7]

/-- DDR_SHARE of a user. -/
def State.share (s : State) (u : Nat) : Nat := s.ioReg (0xD101 + u) (shareTable.getD u 0)

/-- The bytes of a user's share in one window of one channel, scaled while derated. -/
def State.shareBytes (s : State) (u : Nat) : Nat :=
  let b := s.share u * 1000 / max 1 s.nDc
  if s.derated then b * 94 / 100 else b

/-- Every share that no write has changed follows DDR_USABLE (R354). -/
def State.rescale (s : State) : State :=
  (List.range 8).foldl (fun s u =>
    if bit s.shareWritten u then s
    else s.setReg (.io 1) (0xD101 + u) (max 1 (shareTable.getD u 0 * s.ddrUsable / 400))) s

/-- A write of DC_CFG (R350, R368): ignored in part while enabled, refused for a geometry beyond 32 GiB or unlike DC0's. -/
def State.dcWrite (c v : Nat) (s : State) : State :=
  if s.nDc ≤ c then s
  else
    let old := s.dcCfg c
    let rate := if bits v 1 0 = 3 then bits old 1 0 else bits v 1 0
    let den := if bits v 4 3 = 3 then bits old 4 3 else bits v 4 3
    let new := rate + bits v 2 2 * 4 + den * 8
    if bit old 8 then
      if bit v 8 then s
      else (s.setReg (.io 1) (dcReg c 0) (bits old 7 0)).updDc c fun d => { d with trained := false }
    else if !bit v 8 then s.setReg (.io 1) (dcReg c 0) new
    else if (bit new 2 && den != 0) || (c != 0 && new != bits (s.dcCfg 0) 4 0) then s
    else ((s.setReg (.io 1) (dcReg c 0) (new + 0x100)).updDc c fun d => { d with trained := true }).rescale

/-- DC_CFG_ENABLE (R350, R368). -/
def execDcCfgEnable (chan : Nat) (v : Word) (s : State) : Out :=
  State.plain (State.regDom (dcDom chan) (.dcCfgEnable chan v) (State.dcWrite chan v.toNat)) s

/-- A write of DDR_SHARE (R354). -/
def State.shareWrite (u v : Nat) (s : State) : State :=
  let new := v % 1024
  let sum := (List.range 8).foldl (fun n w => n + if w = u then new else s.share w) 0
  if s.ddrUsable < sum then { s.note (.w1c .budget 0) 1 with budgetRefused := true }
  else { s.setReg (.io 1) (0xD101 + u) new with shareWritten := s.shareWritten ||| 2 ^ u }

/-- DDR_SHARE_WRITE (R354). -/
def execDdrShareWrite (user : Nat) (v : Word) (s : State) : Out := State.plain (State.shareWrite user v.toNat) s

/-- DDR_SCHEDULE_WINDOW (R354): a window of 1 µs begins, with nothing charged. `upset` is an error that a line has taken in the
window before (R351). -/
def execDdrScheduleWindow (chan : Nat) (upset : Option (Nat × Nat)) (s : State) : Out :=
  State.timed (some ((s.dc chan).winAt + US)) (fun s => (match upset with | some (l, e) => s.upsetLine l e | none => s).updDc chan fun d =>
    if d.useAt + 1000 * US ≤ s.time then { d with used := [], winAt := s.time, useMs := d.use_, use_ := [], useAt := s.time }
    else { d with used := [], winAt := s.time }) s

/-- REFRESH_DERATE (R353). -/
def execRefreshDerate (chan : Nat) (hot : Bool) (s : State) : Out :=
  State.plain (fun s =>
    let was := s.derated
    let s1 := s.updDc chan fun d => { d with hot := hot }
    if !was && s1.derated then (s1.event cDdr chan 0x80FF 0).alert 11 else s1) s

/-! ### Requests in DDR5 (R352, R354, R360) -/

/-- A request of the same PE to the same 64-byte line, issued earlier (R167). -/
def MemReq.after (r q : MemReq) : Bool := q.pe == r.pe && q.addr / 64 == r.addr / 64 && q.seq < r.seq

/-- Whether no request that must be performed before another still waits at its memory (R167). -/
def State.inOrder (s : State) (r : MemReq) : Bool :=
  let d := s.dc (s.chanOfAddr r.addr)
  let l := if r.shelf then (s.shelfQ.filter (·.st.isNone)).map (·.req) ++ s.shelfAtomics else d.q ++ d.atomics ++ d.istr
  l.all fun q => !r.after q

/-- A queue's next request: within share oldest first, then user by user (R354). -/
def State.ddrNext (s : State) (c : Nat) : Option MemReq :=
  let d := s.dc c
  let l := d.q.filter s.inOrder
  match l.find? fun r => Tbl.get 0 d.used r.user < s.shareBytes r.user with
  | some r => some r
  | none => beyondOrder.findSome? fun u => l.find? fun r => r.user == u

/-- A response to a PE from the memory at an endpoint. -/
def State.memRsp (from_ : Ep) (r : MemReq) (v : Nat) (poison : Bool) (fault : Nat) (s : State) : State :=
  s.send 2 0 2000 from_ (.pe r.pe) (.rsp r.slot v poison fault)

/-- A write's response waits until every data cache has dropped the line (R352). -/
def State.wrRsp (c : Nat) (r : MemReq) (v : Nat) (poison : Bool) (s : State) : State :=
  if s.cachedAt r.addr then
    s.updDc c fun d => { d with invWait := d.invWait ++ [(r.addr / 64, { r with b := v, sched := poison })] }
  else s.memRsp (.dc c) r v poison 0

/-- The value that a load of n bytes gives. -/
def extend (n : Nat) (signed : Bool) (v : Nat) : Nat := if signed then wrap 64 (sext (8 * n) v) else v % 2 ^ (8 * n)

/-- A plain access in DDR5. -/
def State.ddrDo (c : Nat) (r : MemReq) (s : State) : State :=
  match r.op with
  | .ld n sg => s.memRsp (.dc c) r (extend n sg (Mem.readN 0 s.ddr r.addr n)) (s.poisonedAt r.addr n) 0
  | .st n => ((s.ddrPut r.addr (leBytes n r.b)).invalidate r.addr n).wrRsp c r 0 false
  | _ => s

/-- DDR_REQUEST_SERVED (R351, R354): a channel serves its next request; `err` is what the line's check code reports. -/
def execDdrRequestServed (chan err : Nat) (s : State) : Out :=
  State.plain (fun s =>
    match (if s.domOn (dcDom chan) && !(s.dc chan).selfRef then s.ddrNext chan else none) with
    | none => s
    | some r =>
      let (n, wr) := match r.op with | .st n => (n, true) | .ld n _ => (n, false) | _ => (8, false)
      let s1 := ((s.updDc chan fun d => { d with q := d.q.erase r }).charge r.user r.addr n wr).upsetLine (r.addr / 128) err
      (s1.lineRead r.addr n).ddrDo chan r) s

/-- The lines of a channel, and the time at which its patrol scrub reads the next: a pass reads every line once in each
DC_SCRUB period, in hours, spread evenly over it (log entry 111, DESIGN CHOICE). -/
def State.scrubLines (s : State) : Nat := s.chanGiB * 2 ^ 23
def State.scrubDue (s : State) (c : Nat) : Option Nat :=
  let hours := s.ioReg (dcReg c 6) 24 % 256
  let d := s.dc c
  if !s.dcOn c || hours = 0 || d.selfRef then none
  else some (d.scrubAt + hours * 3600 * SEC * (d.scrub / 128) / s.scrubLines)

/-- PATROL_SCRUB (R351): the next populated line of a channel is read when it falls due; DC_SCRUB 0 stops scrub. -/
def execPatrolScrub (chan err : Nat) (s : State) : Out :=
  State.timed (s.scrubDue chan) (fun s =>
    let o := (s.dc chan).scrub
    let a := (o / 256 * s.nDc + chan) * 256 + o % 256
    let s1 := s.updDc chan fun d => if o + 128 < s.chanGiB * 2 ^ 30 then { d with scrub := o + 128 }
      else { d with scrub := 0, scrubAt := s.time }
    ((s1.upsetLine (a / 128) err).ddrRd 7 a 128)) s

/-- CACHE_INVALIDATION (R352, R375): a steward that the notice has reached drops a 64-byte line; writes that waited for it are
answered. -/
def execCacheInvalidation (st line : Nat) (s : State) : Out :=
  State.plain (fun s =>
    if !s.net.invIn.contains (st, line) then s else
    let s1 := (s.updNet fun n => { n with invIn := n.invIn.erase (st, line) }).updCore st fun c => { c with cache := c.cache.del line }
    if s1.cachedAt (line * 64) then s1
    else
      (List.range 8).foldl (fun s c =>
        let w := (s.dc c).invWait.filter fun x => x.1 == line
        w.foldl (fun s x => s.memRsp (.dc c) x.2 x.2.b x.2.sched 0)
          (s.updDc c fun d => { d with invWait := d.invWait.filter fun x => x.1 != line })) s1) s

/-! ### Far atomics (R168, R360, R361) -/

/-- The word's new value and the old value's use. -/
def atomNew (op : MemOp) (w old b c : Nat) : Nat :=
  match op with
  | .swap => b
  | .cas => if old = b then c else old
  | .fadd => (old + b) % 2 ^ w
  | .for_ => old ||| b
  | .fmaxu => max old b
  | _ => old

/-- The request an atomic unit serves next: the highest priority, then the first to arrive. -/
def nextAtomic (l : List MemReq) : Option MemReq :=
  l.foldl (fun b r => match b with | none => some r | some q => if q.prio < r.prio then some r else some q) none

/-- An atomic of the peg alias: SWAP of 1 acquires (R363). -/
def State.pegSwap (r : MemReq) (s : State) : State :=
  let (w, s1) := s.pegAcq { m := 6, id := (s.ctx r.ctx).job % 4096, pe := r.pe, place := r.slot } ((r.addr - pegAlias) / 8)
  s1.memRsp .shelf r w false 0

/-- ATOMIC_SERVICE (R360): units 0 to 7 lie at the DDR5 controllers, unit 8 at Shelf port 0. `err` is what the check code of
the word reports; a word that carries an uncorrectable error gives its old value poisoned and stays (R47). -/
def execAtomicService (unit err : Nat) (s : State) : Out :=
  State.plain (fun s =>
    if unit = 8 then
      match nextAtomic (s.shelfAtomics.filter s.inOrder) with
      | none => s
      | some r =>
        let s1 := { s with shelfAtomics := s.shelfAtomics.erase r }
        if pegAlias ≤ r.addr then s1.pegSwap r
        else
          let s2 := s1.shelfErr r.addr err
          let old := Mem.readN 0 s.shelf r.addr 8
          if s2.shelfBadAt r.addr 8 then s2.memRsp .shelf r old true 0
          else (s2.shelfPut r.addr (leBytes 8 (atomNew r.op 64 old r.b r.c))).memRsp .shelf r old false 0
    else
      match (if s.domOn (dcDom unit) && !(s.dc unit).selfRef then nextAtomic ((s.dc unit).atomics.filter s.inOrder) else none) with
      | none => s
      | some r =>
        let s1 := ((s.updDc unit fun d => { d with atomics := d.atomics.erase r }).charge r.user r.addr 8 true).upsetLine
          (r.addr / 128) err
        let s2 := s1.lineRead r.addr 8
        let old := Mem.readN 0 s.ddr r.addr 8
        if s2.poisonedAt r.addr 8 then s2.memRsp (.dc unit) r old true 0
        else ((s2.ddrPut r.addr (leBytes 8 (atomNew r.op 64 old r.b r.c))).invalidate r.addr 8).wrRsp unit r old false) s

/-- The requests that wait at an atomic unit. -/
def State.atomQ (s : State) (unit : Nat) : List MemReq := if unit = 8 then s.shelfAtomics else (s.dc unit).atomics
def State.setAtomQ (unit : Nat) (l : List MemReq) (s : State) : State :=
  if unit = 8 then { s with shelfAtomics := l } else s.updDc unit fun d => { d with atomics := l }

/-- ATOMIC_AGING (R361): a waiting request rises by one level for each full µs that it waits, up to 15. -/
def execAtomicAging (unit : Nat) (s : State) : Out :=
  State.timed
    ((s.atomQ unit).foldl (fun b r => match b with | none => some (r.since + US) | some d => some (min d (r.since + US))) none)
    (fun s => s.setAtomQ unit ((s.atomQ unit).map fun r =>
      if r.since + US ≤ s.time then { r with prio := min 15 (r.prio + 1), since := r.since + US } else r)) s

/-! ### I-structures (R163, R165, R563) -/

/-- Readers deferred on an element. -/
def State.readers? (s : State) (e : Nat) : List MemReq := Tbl.get [] s.istr e

/-- An element's state: 2 without a reader list, and 3, read as empty. -/
def State.elemState (s : State) (e : Nat) : Nat :=
  let v := bits (Mem.readN 0 s.ddr (e + 8) 1) 1 0
  if v = 3 || (v = 2 && (s.readers? e).isEmpty) then 0 else v

/-- An element's state byte and the bytes above it. -/
def State.putElem (e st : Nat) (s : State) : State := s.ddrPut (e + 8) (leBytes 8 st)

/-- One request on its element. The reference that a deferred element's bytes 9 to 15 hold is internal: an open value. -/
def State.istrDo (c : Nat) (r : MemReq) (s : State) : State :=
  let e := r.addr
  let st := s.elemState e
  match r.op with
  | .iload =>
    if st = 1 then s.memRsp (.dc c) r (Mem.readN 0 s.ddr e 8) (s.poisonedAt e 16) 0
    else
      let (v, s1) := s.fresh
      { (s1.ddrPut (e + 8) (2 :: leBytes 7 v)).invalidate (e + 8) 8 with istr := s1.istr.put e (s.readers? e ++ [r]) }
  | .istore =>
    if st = 1 then s.memRsp (.dc c) r 0 false 0x24
    else
      let s1 := ((s.ddrPut e (leBytes 8 r.b)).putElem e 1).invalidate e 16
      let s2 := (s.readers? e).foldl (fun s q => s.memRsp (.dc c) q r.b false 0) { s1 with istr := s1.istr.del e }
      s2.wrRsp c r 0 false
  | .ireset =>
    if st = 2 then s.memRsp (.dc c) r 0 false 0x25 else ((s.putElem e 0).invalidate e 16).wrRsp c r 0 false
  | _ => s

/-- ISTRUCT_REQUEST (R163, R165): the controller's oldest request acts on its element. An ILOAD of a context that is dying or
dead, which would be deferred, is withdrawn without a response (R163). -/
def execIstructRequest (dc : Nat) (s : State) : Out :=
  State.plain (fun s =>
    match (s.dc dc).istr with
    | [] => s
    | r :: q =>
      if !s.domOn (dcDom dc) || (s.dc dc).selfRef || !s.inOrder r then s
      else
        let full := s.elemState r.addr = 1
        let s1 := ((s.updDc dc fun d => { d with istr := q }).charge r.user r.addr 16 (!(r.op = .iload && full))).lineRead r.addr 16
        if r.op = .iload && !full && s.cm.istrDying.contains r.ctx then s1.dropSlot r.pe (.rsp r.slot)
        else s1.istrDo dc r) s

/-- The readers of a context leave every list (R163): an element whose list empties is empty. A slot that its PE's sweep has
completed already is free. The controllers know the context as dying until its drain fence is over. -/
def State.istrKill (ctx : Nat) (s0 : State) : State :=
  let gone := s0.istr.flatMap (fun p => p.2.filter (·.ctx == ctx))
    ++ s0.ddrs.flatMap fun d => d.2.istr.filter fun r => r.ctx == ctx && r.op == .iload && s0.elemState r.addr != 1
  let s := gone.foldl (fun s r => s.dropSlot r.pe (.rsp r.slot))
    (s0.updCm fun c => { c with istrDying := if c.istrDying.contains ctx then c.istrDying else c.istrDying ++ [ctx] })
  s.istr.foldl (fun s p =>
    if p.2.all (·.ctx != ctx) then s
    else
      let l := p.2.filter (·.ctx != ctx)
      if l.isEmpty then ({ s with istr := s.istr.del p.1 }).putElem p.1 0 else { s with istr := s.istr.put p.1 l })
    { s with ddrs := s.ddrs.map fun p => (p.1, { p.2 with istr := p.2.istr.filter fun r => !gone.contains r }) }

/-! ### The Shelf (R358, R359) -/

def shelfBank (a : Nat) : Nat := bits a 9 6

/-- The first access of a port at a bank. -/
def State.shHead (s : State) (bank port : Nat) : Option ShAcc :=
  s.shelfQ.find? fun x => x.port == port && shelfBank x.req.addr == bank && (x.st.isSome || s.inOrder x.req)

/-- Whether an access writes. -/
def ShAcc.writes (x : ShAcc) : Bool := match x.req.op with | .st _ => true | _ => false

/-- A steward's posted store is answered (R376). -/
def Steward.postReady (c : Steward) (coll : Bool) : Steward :=
  let i := c.posted.findIdx fun p => !p.ready
  { c with posted := c.posted.modify i fun _ => { collided := coll, ready := true } }

/-- One Shelf access is performed and answered; at the peg alias, LD reads the peg word and ST releases (R363). A word that
carries an uncorrectable error is read poisoned (R47). -/
def State.shDo (coll : Bool) (x : ShAcc) (s : State) : State :=
  let s1 := { s with shelfQ := s.shelfQ.erase x }
  let r := x.req
  let n := (r.addr - pegAlias) / 8
  match x.st with
  | some st => (s1.shelfPut r.addr x.data).updCore st fun c => c.postReady coll
  | none =>
    match r.op with
    | .ld k sg =>
      if pegAlias ≤ r.addr then let (w, s2) := s1.pegRead 6 n; s2.memRsp .shelf r w false 0
      else s1.memRsp .shelf r (extend k sg (Mem.readN 0 s.shelf r.addr k)) (s1.shelfBadAt r.addr k) 0
    | .st k =>
      if pegAlias ≤ r.addr then (s1.pegRel 6 ((s.ctx r.ctx).job % 4096) n).memRsp .shelf r 0 false 0
      else (s1.shelfPut r.addr (leBytes k r.b)).memRsp .shelf r 0 false 0
    | _ => s1

/-- SHELF_ACCESS (R358, R359): a bank serves its lowest port; a write of the same 8-byte word at another port completes in
the same cycle before it, marked as collided; the other ports stall. `err` is what the check code of a word that is read
reports. -/
def execShelfAccess (bank err : Nat) (s : State) : Out :=
  State.plain (fun s =>
    let heads := (List.range 4).filterMap fun p => s.shHead bank p
    match heads with
    | [] => s
    | x :: rest =>
      let coll := rest.filter fun y => x.writes && y.writes && y.req.addr / 8 == x.req.addr / 8
      let stall := rest.length - coll.length
      let s1 := coll.reverse.foldl (fun s y => (s.ioBump 0x2C21).shDo true y) s
      let s2 := if x.writes || pegAlias ≤ x.req.addr then s1 else s1.shelfErr x.req.addr err
      (s2.shDo false x).setReg (.io 1) 0x2C20 (sat32 (s.ioReg 0x2C20 0) stall)) s

/-! ### Tally units (R182, R183) -/

/-- A line's entry index in a CAM. -/
def findLine (t : Tbl TallyLine) (sp a : Nat) : Option Nat :=
  (t.find? fun p => p.2.space == sp && p.2.addr == a).map (·.1)
def lineCount (t : Tbl TallyLine) (sp a : Nat) : Nat :=
  match findLine t sp a with | some i => (Tbl.get {} t i).count | none => 0

/-- The lowest free entry of a CAM of 16,384. -/
def freeLine (t : Tbl TallyLine) : Option Nat := (List.range 16384).find? fun i => (Tbl.find t i).isNone

/-- A line counts one more distinct cell. -/
def addLine (t : Tbl TallyLine) (sp a : Nat) : Tbl TallyLine :=
  match findLine t sp a with
  | some i => t.upd {} i fun l => { l with count := min 0xFFFF (l.count + 1) }
  | none => match freeLine t with
    | some i => t.put i { space := sp, addr := a, count := 1 }
    | none => t

def Tally.space (x : Tally) (k : Nat) : TallySpace := Tbl.get {} x.spaces k

/-- The result word of ADD and of the queries (Table 05-15). -/
def Tally.result (x : Tally) (sp rc cc : Nat) (ovf dup : Bool) : Nat :=
  rc + cc * 2 ^ 16 + b2n ((x.space sp).cs < rc) * 2 ^ 32 + b2n ((x.space sp).rs < cc) * 2 ^ 33 + b2n ovf * 2 ^ 34
    + b2n dup * 2 ^ 35

/-- The unit with a space's entries freed. -/
def Tally.clear (x : Tally) (sp : Nat) : Tally :=
  { x with cells := x.cells.filter (·.1 != sp), rows := x.rows.filter fun p => p.2.space != sp,
           cols := x.cols.filter fun p => p.2.space != sp,
           spaces := x.spaces.upd {} sp fun t => { t with ovf := false } }

/-- ADD (R183): the result and the unit. -/
def Tally.add (x : Tally) (sp row col : Nat) : Nat × Tally :=
  let res (y : Tally) (ovf dup : Bool) : Nat := y.result sp (lineCount y.rows sp row) (lineCount y.cols sp col) ovf dup
  if (x.space sp).ovf then (res x true false, x)
  else if x.cells.contains (sp, row, col) then (res x false true, x)
  else if 16384 ≤ x.cells.length || ((findLine x.rows sp row).isNone && (freeLine x.rows).isNone)
      || ((findLine x.cols sp col).isNone && (freeLine x.cols).isNone) then
    let y := { x with spaces := x.spaces.upd {} sp fun t => { t with ovf := true } }
    (res y true false, y)
  else
    let y := { x with cells := x.cells ++ [(sp, row, col)], rows := addLine x.rows sp row, cols := addLine x.cols sp col }
    (res y false false, y)

/-- SCAN (Table 05-14): the first must-repair line at or above the cursor. -/
def Tally.scan (x : Tally) (sp a : Nat) : Nat :=
  let col := bit a 16
  let lim := if col then (x.space sp).rs else (x.space sp).cs
  match (if col then x.cols else x.rows).find? fun p => p.2.space == sp && bits a 13 0 ≤ p.1 && lim < p.2.count with
  | some (i, l) => l.addr + i * 2 ^ 32 + 2 ^ 46 + b2n col * 2 ^ 47
  | none => b2n col * 2 ^ 47

/-- The unit's oldest request, when it is of an operation, is served and answered (R182). -/
def State.tallyServe (u op : Nat) (f : TallyReq → Tally → Nat × Tally) (s : State) : State :=
  match (s.tu u).q with
  | [] => s
  | r :: q =>
    if r.op != op || !s.domOn (tuDom u) then s
    else
      let (v, x) := f r (s.tu u)
      (s.updTu u fun _ => { x with q := q }).send 2 0 2000 (.tu u) (.pe r.pe) (.rsp r.slot v false 0)

/-- TALLY_SETUP: the space is cleared, its spare counts set. -/
def execTallySetup (tu : Nat) (s : State) : Out :=
  State.plain (State.tallyServe tu 0 fun r x =>
    (0, { x.clear r.space with spaces := x.spaces.put r.space { rs := bits r.a 15 0, cs := bits r.a 31 16 } })) s

/-- TALLY_ADD (R183). -/
def execTallyAdd (tu : Nat) (s : State) : Out :=
  State.plain (State.tallyServe tu 1 fun r x => x.add r.space (bits r.a 31 0) (bits r.a 63 32)) s

/-- TALLY_QRY_ROW: the column fields are zero. -/
def execTallyQryRow (tu : Nat) (s : State) : Out :=
  State.plain (State.tallyServe tu 2 fun r x =>
    let n := lineCount x.rows r.space (bits r.a 31 0)
    (n + b2n ((x.space r.space).cs < n) * 2 ^ 32 + b2n (x.space r.space).ovf * 2 ^ 34, x)) s

/-- TALLY_QRY_COL: the row fields are zero. -/
def execTallyQryCol (tu : Nat) (s : State) : Out :=
  State.plain (State.tallyServe tu 3 fun r x =>
    let n := lineCount x.cols r.space (bits r.a 31 0)
    (n * 2 ^ 16 + b2n ((x.space r.space).rs < n) * 2 ^ 33 + b2n (x.space r.space).ovf * 2 ^ 34, x)) s

/-- TALLY_SCAN (R183). -/
def execTallyScan (tu : Nat) (s : State) : Out :=
  State.plain (State.tallyServe tu 4 fun r x => (x.scan r.space r.a, x)) s

/-- TALLY_CLEAR: the space's entries are freed. -/
def execTallyClear (tu : Nat) (s : State) : Out :=
  State.plain (State.tallyServe tu 5 fun r x => (0, x.clear r.space)) s

end Sys2Proof.Machine
end

