-- ==== Sys2Proof/Machine/Steward.lean ====
section
/-! DEFINITION. The steward cores' instructions (R370 to R383, R387, R390), but IN and OUT: fetch, operand fields, loads and
stores, the return stack, exceptions, and the waits. Each command is one instruction at the PC of a steward's running task;
a command whose instruction is not the one there changes nothing. -/

namespace Sys2Proof.Machine
open Sys2Proof

/-! ### Fields (R378) -/

def sMajor (w : Nat) : Nat := bits w 31 26
def sRd (w : Nat) : Nat := bits w 25 22
def sRa (w : Nat) : Nat := bits w 21 18
def sRb (w : Nat) : Nat := bits w 17 14
def sFn (w : Nat) : Nat := bits w 13 0
/-- imm18, sign-extended to 32 bits and not. -/
def sImm (w : Nat) : Nat := wrap 32 (sext 18 w)
def sImmZ (w : Nat) : Nat := bits w 17 0

/-- A general register; g0 reads as zero. -/
def Steward.reg (c : Steward) (r : Nat) : Nat := if r = 0 then 0 else Tbl.get 0 c.g r % 2 ^ 32

/-- The operand values of a word. -/
def Steward.va (c : Steward) (w : Nat) : Nat := c.reg (sRa w)
def Steward.vb (c : Steward) (w : Nat) : Nat := c.reg (sRb w)
def Steward.vd (c : Steward) (w : Nat) : Nat := c.reg (sRd w)

/-- Whether a word's major or fn is reserved (R379). -/
def sReserved (w : Nat) : Bool :=
  let m := sMajor w
  m == 0 || 0x20 < m || (m == 0x01 && 18 < sFn w) || (m == 0x1F && 4 < sFn w) || (m == 0x20 && 15 < sFn w)

/-- Whether a field that the form leaves unused is not zero (R379). -/
def sUnused (w : Nat) : Bool :=
  let m := sMajor w
  let d := sRd w != 0
  let a := sRa w != 0
  let b := sRb w != 0
  let f := sFn w != 0
  if m = 0x08 then bits w 17 7 != 0
  else if m = 0x1A || m = 0x1B then d || b || f
  else if m = 0x1C then d || a || b || f
  else if m = 0x20 then
    let k := sFn w
    if k = 4 || k = 5 then false
    else if k = 7 || k = 12 || k = 13 then a || b
    else if k = 8 || k = 11 || k = 14 then d || b
    else if k = 9 then b
    else if k = 10 then d
    else d || a || b
  else false

/-- The kinds of instruction: a major, a major with fn, SHI with its sub-field. -/
def sIs (m : Nat) (w : Nat) : Bool := sMajor w == m
def sIsFn (m k : Nat) (w : Nat) : Bool := sMajor w == m && sFn w == k
def sIsShi (k : Nat) (w : Nat) : Bool := sMajor w == 0x08 && bits w 6 5 == k

/-! ### State of the core -/

/-- A core that executes: a task runs and the cluster's domain is on. -/
def State.stAlive (s : State) (st : Nat) : Bool := s.running st && s.domOn 1

/-- The PSW as software reads it (Table 11-1). -/
def State.psw (s : State) (st : Nat) : Nat :=
  let c := s.core st
  bits c.psw 6 0 + s.effPri st c.cur * 2 ^ 8 + c.cur * 2 ^ 12

/-- Firmware mode. -/
def State.fwMode (s : State) (st : Nat) : Bool := bit (s.core st).psw 0

/-- A result register is written. -/
def State.putRd (st w v : Nat) (s : State) : State := s.updCore st fun c => { c with g := putG c.g (sRd w) v }

/-- The PC moves to an address. -/
def State.goto (st pc : Nat) (s : State) : State := s.updCore st fun c => { c with pc := pc % 2 ^ 32 }

/-- The next instruction follows. -/
def State.advance (st : Nat) (s : State) : State := s.updCore st fun c => { c with pc := addW 32 c.pc 4 }

/-- A PSW bit is set. -/
def setPsw (i : Nat) (c : Steward) : Steward := { c with psw := c.psw ||| 2 ^ i }

/-! ### D-space (R373 to R375, R394) -/

/-- Where a D address lies. -/
inductive DLoc where
  | priv (a : Nat)
  | shelf (o : Nat)
  | win (a : Nat) (cached : Bool)
  deriving DecidableEq, Repr

/-- Table 11-2: none where the access raises D_ACCESS. -/
def State.dLoc (s : State) (st a : Nat) : Option DLoc :=
  if a < 0x40 then none
  else if a < 0x40000 then some (.priv a)
  else if 0x10000000 ≤ a && a < 0x10800000 then some (.shelf (a - 0x10000000))
  else if 0x80000000 ≤ a then
    let b := Tbl.get 0 (s.core st).dwin (bits a 30 28)
    let x := bits b 9 0 * 2 ^ 28 + bits a 27 0
    if bit b 16 && x < s.ddrTop then some (.win x (bit b 17 && (s.core st).cacheOn)) else none
  else none

/-- The running task's D regions (R394): region k from its base to its limit. -/
def Steward.inRegion (c : Steward) (a n : Nat) : Bool :=
  (List.range 4).any fun k => Tbl.get 0 c.xdr (2 * k) ≤ a && a + n ≤ Tbl.get 0 c.xdr (2 * k + 1)

/-- An access of n bytes by the running task. -/
def State.dAcc (s : State) (st a n : Nat) (write : Bool) : Option DLoc :=
  if !s.fwMode st && ((write && 0x40 ≤ a && a < 0x80) || !(s.core st).inRegion a n) then none else s.dLoc st a

/-- Whether a steward's own posted Shelf store overlaps a range. -/
def State.ownStore (s : State) (st o n : Nat) : Bool :=
  s.shelfQ.any fun x => x.st == some st && x.req.addr < o + n && o < x.req.addr + x.data.length

/-- Whether the memory behind a place answers now; a sleeping channel does not. -/
def State.dReady (s : State) (st n : Nat) : DLoc → Bool
  | .priv _ => true
  | .shelf o => !s.ownStore st o n
  | .win a _ => s.domOn (dcDom (s.chanOfAddr a)) && !(s.dc (s.chanOfAddr a)).selfRef

/-- A place that does not answer yet: a sleeping channel is asked to wake (R343), and the instruction waits. -/
def State.dWait (l : DLoc) (s : State) : State :=
  match l with
  | .win a _ =>
    if s.domOn (dcDom (s.chanOfAddr a)) then s else s.updDom (dcDom (s.chanOfAddr a)) fun d => { d with wake := true }
  | _ => s

/-- Whether bytes of private D-space meet a word that holds an uncorrectable error. -/
def State.badPriv (s : State) (st a n : Nat) : Bool := (s.core st).dbad.any fun w => 4 * w < a + n && a < 4 * w + 4

/-- A load's value, or none where the data is poisoned (R376) or the word uncorrectable (R523), with the cache line it leaves
(R375): 512 lines, the first making room. A line whose invalidation has arrived misses (R397). The layout of the task save blocks is internal: a load there gives an open value
(R373, log entry 122, DESIGN CHOICE). -/
def State.dRead (st n : Nat) (l : DLoc) (s : State) : Option Nat × State :=
  match l with
  | .priv a =>
    if s.badPriv st a n then (none, s)
    else if a < 0x3000 && 0x1000 < a + n then let (v, s1) := s.fresh; (some (v % 2 ^ (8 * n)), s1)
    else (some (Mem.readN 0 (s.core st).priv a n), s)
  | .shelf o => (if s.shelfBadAt o n then none else some (Mem.readN 0 s.shelf o n), s)
  | .win a cached =>
    match (if cached && !s.net.invIn.contains (st, a / 64) then Tbl.find (s.core st).cache (a / 64) else none) with
    | some line => (some (fld line (a % 64) n), s)
    | none =>
      let s1 := if cached then s.ddrRd 6 (a / 64 * 64) 64 else s.ddrRd 6 a n
      if s1.poisonedAt a n then (none, s1)
      else
        (some (Mem.readN 0 s1.ddr a n),
         when cached (State.updCore st fun c =>
           let t : Tbl (List Byte) := if 512 ≤ c.cache.length then c.cache.drop 1 else c.cache
           { c with cache := t.put (a / 64) (s.ddrBytes (a / 64 * 64) 64) }) s1)

/-- Bytes written into a cached line, if the core holds it (R375: written through, not allocated). -/
def cachePatch (t : Tbl (List Byte)) (a : Nat) (bs : List Byte) : Tbl (List Byte) :=
  match Tbl.find t (a / 64) with
  | none => t
  | some line => t.put (a / 64) (line.take (a % 64) ++ bs ++ line.drop (a % 64 + bs.length))

/-- Bytes of private D-space are written; a word written whole holds no error. -/
def Steward.privPut (a : Nat) (bs : List Byte) (c : Steward) : Steward :=
  { c with priv := Mem.writeBytes 0 c.priv a bs,
           dbad := c.dbad.filter fun w => !(a ≤ 4 * w && 4 * w + 4 ≤ a + bs.length) }

/-- The bytes of a store take effect, or wait at the Shelf port as a posted store. A poisoned line that the store merges
into is counted by the controller (R376). -/
def State.dWrite (st : Nat) (bs : List Byte) (l : DLoc) (s : State) : State :=
  match l with
  | .priv a => s.updCore st (Steward.privPut a bs)
  | .shelf o =>
    let x : ShAcc := { port := 1 + st / 2, req := { op := .st bs.length, shelf := true, addr := o }, st := some st, data := bs }
    let s1 : State := { s with shelfQ := s.shelfQ ++ [x] }
    s1.updCore st fun c => { c with posted := c.posted ++ [({} : Posted)] }
  | .win a _ =>
    let s1 := when (s.poisonedAt a bs.length) (State.updDc (s.chanOfAddr a) fun d => { d with ue := sat32 d.ue 1 }) s
    ((s1.charge 6 a bs.length true).ddrPut a bs).updCore st fun c =>
      { c with cache := cachePatch c.cache a bs, posted := c.posted ++ [({ ready := true } : Posted)] }

/-! ### Exceptions (R381 to R383) -/

def eIFetch : Nat := 2
def eIllegal : Nat := 3
def ePriv : Nat := 4
def eAlign : Nat := 5
def eDAccess : Nat := 6
def eIo : Nat := 7
def eRsOver : Nat := 8
def eRsUnder : Nat := 9
def eSyscall : Nat := 10
def eBreak : Nat := 11
def eBus : Nat := 12

/-- Whether the stack pointer is valid (R382). The 16 bytes below it lie in private D-space or the Shelf. -/
def Steward.stackOk (c : Steward) : Bool :=
  let g := c.reg 14
  g % 4 == 0 && c.stkLo + 16 ≤ g && g ≤ c.stkHi
    && ((0x40 + 16 ≤ g && g ≤ 0x40000) || (0x10000000 + 16 ≤ g && g ≤ 0x10800000))

/-- The four words of an entry, written below the stack pointer. -/
def State.pushFrame (st : Nat) (ws : List Nat) (s : State) : State :=
  let g := (s.core st).reg 14
  ((List.range 4).foldl (fun s i =>
    match s.dLoc st (g - 16 + 4 * i) with
    | some l => s.dWrite st (leBytes 4 (ws.getD i 0)) l
    | none => s) s).updCore st fun c => { c with g := putG c.g 14 (g - 16) }

/-- The fault shelf (Table 11-7). -/
def State.faultShelf (st cause info : Nat) (s : State) : State :=
  let c := s.core st
  let words := [c.pc, s.psw st, cause, info, c.reg 14, c.stkLo, c.stkHi, c.cur]
  s.updCore st (Steward.privPut 0x40 (words.flatMap (leBytes 4) ++ leBytes 8 s.time ++ zeros 24))

/-- A double fault halts the steward (R383, steps 1 to 3); adoption follows. -/
def State.haltCore (st : Nat) (s : State) : State :=
  let pc := Mem.readN 0 (s.core st).priv 0x40 4
  let cause := Mem.readN 0 (s.core st).priv 0x48 4
  let s1 := s.updCore st fun c => { c with halted := true, idle := true, adopt := true }
  (((s1.event cSt st 0x8009 (pc + cause % 256 * 2 ^ 32)).tot 9).alert 12).pegForce fun p => p.owner == masterSt st

/-- The extension module that a task belongs to, if it is an extension task. -/
def State.taskModule (s : State) (st slot : Nat) : Option (Nat × Module) :=
  let m := (s.task st slot).module
  if m = 0 then none else (Tbl.find s.st.modules m).map fun x => (m, x)

/-- Firmware's answer to an exception of an extension task other than SYSCALL: the task stops, one event record (R395). -/
def State.stopFaulting (st cause : Nat) (ext : Bool) (s : State) : State :=
  match (if ext && cause != eSyscall then s.taskModule st (s.core st).cur else none) with
  | none => s
  | some (_, m) => ((s.event cSt st 0x800A (m.id + cause * 2 ^ 32)).alert 12).leaveCore st tsStopped

/-- Exception entry (R382). -/
def State.enter (st cause info : Nat) (s : State) : State :=
  let c := s.core st
  if bit c.psw 2 then s.haltCore st
  else
    let psw := s.psw st
    let s1 := s.updCore st fun c => { c with excCnt := sat32 c.excCnt 1 }
    let s2 :=
      if c.stackOk then
        ((s1.pushFrame st [c.pc, psw, cause, info]).updCore st fun c =>
          { c with psw := setBits (setBits c.psw 0 0 1) 1 1 0 }).goto st (4 * cause)
      else
        ((s1.faultShelf st cause info).updCore st fun c =>
          { c with psw := setBits (setBits (setBits c.psw 0 0 1) 1 1 0) 2 2 1 }).goto st 4
    s2.stopFaulting st cause (!bit c.psw 0)

/-- The instruction word at the PC, if it lies in loaded code and holds no uncorrectable error (R372). -/
def Steward.fetch (c : Steward) : Option Nat :=
  if c.pc % 4 = 0 && c.pc < 0x40000 && c.iloaded.contains (c.pc / 4096) && !c.ibad.contains (c.pc / 4) then
    some (Mem.readN 0 c.ispace c.pc 4)
  else none

/-- One instruction of the running task. Every command of this family takes the exceptions of fetch and decoding; `f`
is the effect of an instruction of the command's kind on the word. -/
def State.stStep (st : Nat) (kind : Nat → Bool) (f : Nat → State → State) (s : State) : State :=
  if !s.stAlive st then s
  else
    match (s.core st).fetch with
    | none => s.enter st eIFetch (s.core st).pc
    | some w =>
      if sReserved w then s.enter st eIllegal w
      else if !kind w then s
      else if sUnused w then s.enter st eIllegal w
      else f w s

/-- The answer of a steward instruction. -/
def stOut (st : Nat) (kind : Nat → Bool) (f : Nat → State → State) (s : State) : Out :=
  State.plain (State.stStep st kind f) s

/-! ### Arithmetic (Table 11-4) -/

/-- rd = op(ra, rb). -/
def stAlu (st k : Nat) (op : Nat → Nat → Nat) (s : State) : Out :=
  stOut st (sIsFn 1 k) (fun w s => (s.putRd st w (op ((s.core st).va w) ((s.core st).vb w))).advance st) s

/-- rd = op(ra, imm18), the immediate sign-extended or zero-extended. -/
def stImm (st m : Nat) (op : Nat → Nat → Nat) (imm : Nat → Nat) (s : State) : Out :=
  stOut st (sIs m) (fun w s => (s.putRd st w (op ((s.core st).va w) (imm w))).advance st) s

/-- SHI: a shift by imm[4:0]. -/
def stShi (st k : Nat) (op : Nat → Nat → Nat) (s : State) : Out :=
  stOut st (sIsShi k) (fun w s => (s.putRd st w (op ((s.core st).va w) (bits w 4 0))).advance st) s

def execStAdd (st : Nat) (s : State) : Out := stAlu st 0 (addW 32) s
def execStSub (st : Nat) (s : State) : Out := stAlu st 1 (subW 32) s
def execStAnd (st : Nat) (s : State) : Out := stAlu st 2 (· &&& ·) s
def execStOr (st : Nat) (s : State) : Out := stAlu st 3 (· ||| ·) s
def execStXor (st : Nat) (s : State) : Out := stAlu st 4 (· ^^^ ·) s
def execStAndn (st : Nat) (s : State) : Out := stAlu st 5 (andnW 32) s
def execStShl (st : Nat) (s : State) : Out := stAlu st 6 (shlW 32) s
def execStShr (st : Nat) (s : State) : Out := stAlu st 7 (shrW 32) s
def execStSar (st : Nat) (s : State) : Out := stAlu st 8 (sarW 32) s
def execStRotl (st : Nat) (s : State) : Out := stAlu st 9 (rotlW 32) s
def execSlt (st : Nat) (s : State) : Out := stAlu st 10 (fun a b => b2n (ltS 32 a b)) s
def execSltu (st : Nat) (s : State) : Out := stAlu st 11 (fun a b => b2n (a < b)) s
def execStMul (st : Nat) (s : State) : Out := stAlu st 12 (mulLo 32) s
def execStMulhu (st : Nat) (s : State) : Out := stAlu st 13 (mulHiU 32) s
def execStMulhs (st : Nat) (s : State) : Out := stAlu st 14 (mulHiS 32) s
def execStDivu (st : Nat) (s : State) : Out := stAlu st 15 (divU 32) s
def execStRemu (st : Nat) (s : State) : Out := stAlu st 16 remU s
def execStDivs (st : Nat) (s : State) : Out := stAlu st 17 (divS 32) s
def execStRems (st : Nat) (s : State) : Out := stAlu st 18 (remS 32) s
def execAddi (st : Nat) (s : State) : Out := stImm st 0x02 (addW 32) sImm s
def execSlti (st : Nat) (s : State) : Out := stImm st 0x03 (fun a b => b2n (ltS 32 a b)) sImm s
def execSltiu (st : Nat) (s : State) : Out := stImm st 0x04 (fun a b => b2n (a < b)) sImm s
def execAndi (st : Nat) (s : State) : Out := stImm st 0x05 (· &&& ·) sImmZ s
def execOri (st : Nat) (s : State) : Out := stImm st 0x06 (· ||| ·) sImmZ s
def execXori (st : Nat) (s : State) : Out := stImm st 0x07 (· ^^^ ·) sImmZ s
def execShiShl (st : Nat) (s : State) : Out := stShi st 0 (shlW 32) s
def execShiShr (st : Nat) (s : State) : Out := stShi st 1 (shrW 32) s
def execShiSar (st : Nat) (s : State) : Out := stShi st 2 (sarW 32) s
def execShiRotl (st : Nat) (s : State) : Out := stShi st 3 (rotlW 32) s

/-- LUI: rd = imm22 << 10. -/
def execLui (st : Nat) (s : State) : Out :=
  stOut st (sIs 0x09) (fun w s => (s.putRd st w (bits w 21 0 * 2 ^ 10)).advance st) s

/-! ### Loads and stores (R373 to R376) -/

/-- The D address of a load or store. -/
def State.dAddr (s : State) (st w : Nat) : Nat := addW 32 ((s.core st).va w) (sImm w)

/-- The place of an access of n bytes, after the checks of Table 11-6 in their order. -/
def State.withD (st a n : Nat) (write : Bool) (f : DLoc → State → State) (s : State) : State :=
  if a % n != 0 then s.enter st eAlign a
  else
    match s.dAcc st a n write with
    | none => s.enter st eDAccess a
    | some l => if s.dReady st n l then f l s else s.dWait l

/-- A load of n bytes. -/
def stLoad (st m n : Nat) (signed : Bool) (s : State) : Out :=
  stOut st (sIs m) (fun w s =>
    let a := s.dAddr st w
    s.withD st a n false fun l s =>
      match s.dRead st n l with
      | (none, s1) => s1.enter st eBus a
      | (some v, s1) => (s1.putRd st w (extendN 32 n signed v)).advance st) s

def execLb (st : Nat) (s : State) : Out := stLoad st 0x0A 1 true s
def execLbu (st : Nat) (s : State) : Out := stLoad st 0x0B 1 false s
def execLh (st : Nat) (s : State) : Out := stLoad st 0x0C 2 true s
def execLhu (st : Nat) (s : State) : Out := stLoad st 0x0D 2 false s
def execLw (st : Nat) (s : State) : Out := stLoad st 0x0E 4 false s

/-- Whether a store may go at once: a posted store does not wait for another. -/
def State.stReady (s : State) : DLoc → Bool
  | .win a _ => s.domOn (dcDom (s.chanOfAddr a)) && !(s.dc (s.chanOfAddr a)).selfRef
  | _ => true

/-- A posted store of n bytes. -/
def stStore (st m n : Nat) (s : State) : Out :=
  stOut st (sIs m) (fun w s =>
    let a := s.dAddr st w
    if a % n != 0 then s.enter st eAlign a
    else
      match s.dAcc st a n true with
      | none => s.enter st eDAccess a
      | some l =>
        if s.stReady l then (s.dWrite st (leBytes n ((s.core st).vd w)) l).advance st else s.dWait l) s

def execSb (st : Nat) (s : State) : Out := stStore st 0x0F 1 s
def execSh (st : Nat) (s : State) : Out := stStore st 0x10 2 s
def execSw (st : Nat) (s : State) : Out := stStore st 0x11 4 s

/-- STORE_RESPONSE (R376): the response to the steward's oldest answered store arrives. -/
def execStoreResponse (st : Nat) (s : State) : Out :=
  State.plain (fun s =>
    match (s.core st).posted.find? (·.ready) with
    | none => s
    | some p => when p.collided (State.note (.wc st) 1) (s.updCore st fun c =>
        let c1 := { c with posted := c.posted.erase p }
        if p.collided then setPsw 5 { c1 with wcCnt := sat32 c1.wcCnt 1 } else c1)) s

/-- The far atomics (R360): the word of a place, as its unit numbers it. -/
def State.atomUnit (s : State) : DLoc → Option (Nat × Nat)
  | .priv _ => none
  | .shelf o => some (8, o)
  | .win a _ => some (s.chanOfAddr a, a)

/-- ATOM fn k: the unit performs it once no request of its word with as high a priority waits. -/
def stAtom (st k : Nat) (op : MemOp) (s : State) : Out :=
  stOut st (sIsFn 0x1F k) (fun w s =>
    let c := s.core st
    let a := c.va w
    if a % 4 != 0 then s.enter st eAlign a
    else
      match s.dAcc st a 4 true with
      | none => s.enter st eDAccess a
      | some l =>
        match s.atomUnit l with
        | none => s.enter st eDAccess a
        | some (u, x) =>
          let before := (s.atomQ u).any fun r => r.addr / 8 == x / 8 && s.effPri st c.cur ≤ r.prio
          if before || !s.dReady st 4 l then s.dWait l
          else
            match s.dRead st 4 (match l with | .win a _ => .win a false | l => l) with
            | (none, s1) => s1.enter st eBus a
            | (some old, s1) =>
              let new := if k = 1 then atomNew .cas 32 old (c.vd w) (c.vb w) else atomNew op 32 old (c.vb w) 0
              let s2 := match l with
                | .shelf o => s1.shelfPut o (leBytes 4 new)
                | .win a _ => ((s1.charge 6 a 4 true).ddrPut a (leBytes 4 new)).updCore st fun c =>
                    { c with cache := cachePatch c.cache a (leBytes 4 new) }
                | .priv _ => s1
              (s2.putRd st w old).advance st) s

def execAtomSwap (st : Nat) (s : State) : Out := stAtom st 0 .swap s
def execAtomCas (st : Nat) (s : State) : Out := stAtom st 1 .cas s
def execAtomFadd (st : Nat) (s : State) : Out := stAtom st 2 .fadd s
def execAtomFor (st : Nat) (s : State) : Out := stAtom st 3 .for_ s
def execAtomFmaxu (st : Nat) (s : State) : Out := stAtom st 4 .fmaxu s

/-! ### Branches and the return stack (R379, R380) -/

/-- A branch: off18 words from itself. Its registers are the B format's ra [25:22] and rb [21:18]. -/
def stBranch (st m : Nat) (rel : Nat → Nat → Bool) (s : State) : Out :=
  stOut st (sIs m) (fun w s =>
    let c := s.core st
    if rel (c.reg (sRd w)) (c.reg (sRa w)) then s.goto st (addW 32 c.pc (wrap 32 (4 * sext 18 w))) else s.advance st) s

def execBeq (st : Nat) (s : State) : Out := stBranch st 0x12 (· == ·) s
def execBne (st : Nat) (s : State) : Out := stBranch st 0x13 (· != ·) s
def execBlt (st : Nat) (s : State) : Out := stBranch st 0x14 (ltS 32) s
def execBge (st : Nat) (s : State) : Out := stBranch st 0x15 (fun a b => leS 32 b a) s
def execBltu (st : Nat) (s : State) : Out := stBranch st 0x16 (fun a b => a < b) s
def execBgeu (st : Nat) (s : State) : Out := stBranch st 0x17 (fun a b => b ≤ a) s

/-- The target of a J-format word. -/
def jTarget (pc w : Nat) : Nat := addW 32 pc (wrap 32 (4 * sext 26 w))

/-- J. -/
def execJump (st : Nat) (s : State) : Out :=
  stOut st (sIs 0x18) (fun w s => s.goto st (jTarget (s.core st).pc w)) s

/-- A push (R380): refused with RS_OVERFLOW, or in wrap mode at the cost of the oldest entry; `f` follows it. -/
def State.rsPush (st v : Nat) (f : State → State) (s : State) : State :=
  let c := s.core st
  if c.rs.length < 16 then f (s.updCore st fun c => { c with rs := v :: c.rs })
  else if bit c.psw 3 then s.enter st eRsOver v
  else f (s.updCore st fun c => setPsw 4 { c with rs := v :: c.rs.take 15 })

/-- A pop. -/
def State.rsPopTo (st : Nat) (f : Nat → State → State) (s : State) : State :=
  match (s.core st).rs with
  | [] => s.enter st eRsUnder 0
  | v :: r => f v (s.updCore st fun c => { c with rs := r })

/-- CALL. -/
def execCall (st : Nat) (s : State) : Out :=
  stOut st (sIs 0x19) (fun w s =>
    let pc := (s.core st).pc
    s.rsPush st (addW 32 pc 4) (State.goto st (jTarget pc w))) s

/-- JR. -/
def execJr (st : Nat) (s : State) : Out := stOut st (sIs 0x1A) (fun w s => s.goto st ((s.core st).va w)) s

/-- CALLR. -/
def execCallr (st : Nat) (s : State) : Out :=
  stOut st (sIs 0x1B) (fun w s =>
    let c := s.core st
    s.rsPush st (addW 32 c.pc 4) (State.goto st (c.va w))) s

/-- RET. -/
def execRet (st : Nat) (s : State) : Out := stOut st (sIs 0x1C) (fun _ s => s.rsPopTo st (State.goto st)) s

/-! ### SYS functions (Table 11-5) -/

/-- A SYS function. -/
def stSys (st k : Nat) (f : Nat → State → State) (s : State) : Out := stOut st (sIsFn 0x20 k) f s

/-- A privileged SYS function (PRIV in extension mode). -/
def stPriv (st k : Nat) (f : Nat → State → State) (s : State) : Out :=
  stSys st k (fun w s => if s.fwMode st then f w s else s.enter st ePriv w) s

/-- A word of a frame, read from the stack as it stands there (log entry 122, DESIGN CHOICE); none where it cannot be read. -/
def State.popWord (st : Nat) (l : DLoc) (s : State) : Option Nat × State :=
  match l with
  | .priv a => (if s.badPriv st a 4 then none else some (Mem.readN 0 (s.core st).priv a 4), s)
  | l => s.dRead st 4 l

/-- A frame's word i on the stack, where it can be read. -/
def State.frameWord (s : State) (st i : Nat) : Nat :=
  match s.dLoc st ((s.core st).reg 14 + 4 * i) with
  | some l => ((s.popWord st l).1).getD 0
  | none => 0

/-- Firmware returns from a service call to the instruction after it (R395). -/
def State.svcReturn (st status : Nat) (s : State) : State :=
  let pc := s.frameWord st 0
  let psw := s.frameWord st 1
  s.updCore st fun c =>
    { c with g := putG (putG c.g 14 (c.reg 14 + 16)) 1 status, pc := addW 32 pc 4, psw := bits psw 6 0 }

/-- The running task stands at the SYSCALL vector, entered from extension mode by a module's task: its module and the
service code. -/
def State.svcCall (s : State) (st : Nat) : Option (Nat × Module × Nat) :=
  if s.stAlive st && (s.core st).pc == 4 * eSyscall && s.fwMode st && !bit (s.core st).psw 2 && !bit (s.frameWord st 1) 0
      && s.frameWord st 2 == eSyscall then
    (s.taskModule st (s.core st).cur).map fun x => (x.1, x.2, s.frameWord st 3)
  else none

/-- SYSCALL: a service code that Table 11-12 does not list is answered BAD_ARG. -/
def execSyscall (st : Nat) (s : State) : Out :=
  stSys st 0 (fun _ s =>
    let s1 := s.enter st eSyscall ((s.core st).reg 1)
    match s1.svcCall st with
    | some (_, _, code) => if 5 < code then s1.svcReturn st BAD_ARG else s1
    | none => s1) s

/-- BREAK. -/
def execBreakpoint (st : Nat) (s : State) : Out := stSys st 1 (fun _ s => s.enter st eBreak (s.core st).pc) s

/-- RETE (R382). -/
def execRete (st : Nat) (s : State) : Out :=
  stPriv st 2 (fun _ s =>
    let c := s.core st
    if bit c.psw 2 then
      s.updCore st fun c => { c with pc := Mem.readN 0 c.priv 0x40 4, psw := bits (Mem.readN 0 c.priv 0x44 4) 6 0 }
    else
      let a := c.reg 14
      s.withD st a 4 false fun l s => s.withD st (addW 32 a 4) 4 false fun l2 s =>
        match s.popWord st l, s.popWord st l2 with
        | (some pc, _), (some psw, s1) =>
          s1.updCore st fun c => { c with pc := pc, psw := bits psw 6 0, g := putG c.g 14 (a + 16) }
        | _, (_, s1) => s1.enter st eBus a) s

/-- FENCE: waits until every earlier store has its response; OUTs and atomics have theirs at once. -/
def execFence (st : Nat) (s : State) : Out :=
  stSys st 3 (fun _ s => if (s.core st).posted.isEmpty then s.advance st else s) s

/-- WAITANY and WAITALL (R387). -/
def stWait (st k : Nat) (all : Bool) (s : State) : Out :=
  stSys st k (fun w s =>
    let c := s.core st
    let mask := bits (c.va w) 30 0
    let out := bits (c.vb w) 19 0
    let f := (s.task st c.cur).flags &&& mask
    let ok : Bool := if all then f == mask && mask != 0 else f != 0
    if ok then
      (((s.clearFlags st c.cur f).putRd st w f).advance st)
    else if mask = 0 && out = 0 then (s.putRd st w 0).advance st
    else
      ((s.advance st).updTask st c.cur fun t =>
        { t with mask := mask, all := all, waitRd := sRd w, pegWait := none,
                 timeout := if out = 0 then none else some (s.time + out * US) }).leaveCore st tsWaiting) s

def execWaitany (st : Nat) (s : State) : Out := stWait st 4 false s
def execWaitall (st : Nat) (s : State) : Out := stWait st 5 true s

/-- YIELD (R390). -/
def execYield (st : Nat) (s : State) : Out :=
  stSys st 6 (fun _ s =>
    let s1 := s.advance st
    let k := (s.core st).cur
    match s.nextTask st with
    | some n => if s.effPri st k ≤ s.effPri st n then ((s1.saveTask st).readyBehind st k).selectTask st else s1
    | none => s1) s

/-- MFPSW. -/
def execMfpsw (st : Nat) (s : State) : Out := stSys st 7 (fun w s => (s.putRd st w (s.psw st)).advance st) s

/-- MTPSW (R371): wc ends set when a store of the same fc has collided. -/
def execMtpsw (st : Nat) (s : State) : Out :=
  stSys st 8 (fun w s =>
    let v := (s.core st).va w
    let wc := s.noted (.wc st)
    (s.updCore st fun c =>
      let p := if bit c.psw 0 then bits v 6 0 else setBits c.psw 6 4 (bits v 6 4)
      { c with psw := if wc = 0 then p else p ||| 2 ^ 5 }).advance st) s

/-- IRDW: an address that is not aligned or lies beyond I-space gives an open value, and so does a word with an uncorrectable
error. -/
def execIrdw (st : Nat) (s : State) : Out :=
  stPriv st 9 (fun w s =>
    let a := (s.core st).va w
    if a % 4 = 0 && a < 0x40000 && !(s.core st).ibad.contains (a / 4) then
      (s.putRd st w (Mem.readN 0 (s.core st).ispace a 4)).advance st
    else let (v, s1) := s.fresh; (s1.putRd st w v).advance st) s

/-- IWRW: the page then holds loaded code; an address that is not aligned or lies beyond I-space writes nothing. -/
def execIwrw (st : Nat) (s : State) : Out :=
  stPriv st 10 (fun w s =>
    let a := (s.core st).va w
    if a % 4 = 0 && a < 0x40000 then
      (s.updCore st fun c =>
        { c with ispace := Mem.writeN 0 c.ispace a 4 (c.vb w), ibad := c.ibad.erase (a / 4),
                 iloaded := if c.iloaded.contains (a / 4096) then c.iloaded else c.iloaded ++ [a / 4096] }).advance st
    else s.advance st) s

/-- RSPUSH. -/
def execRspush (st : Nat) (s : State) : Out :=
  stSys st 11 (fun w s => s.rsPush st ((s.core st).va w) (State.advance st)) s

/-- RSPOP. -/
def execRspop (st : Nat) (s : State) : Out :=
  stSys st 12 (fun w s => s.rsPopTo st fun v s => (s.putRd st w v).advance st) s

/-- RSDEPTH. -/
def execRsdepth (st : Nat) (s : State) : Out :=
  stSys st 13 (fun w s => (s.putRd st w (s.core st).rs.length).advance st) s

/-- CINV (R375). -/
def execCinv (st : Nat) (s : State) : Out :=
  stSys st 14 (fun w s =>
    match s.dLoc st ((s.core st).va w) with
    | some (.win a _) => (s.updCore st fun c => { c with cache := c.cache.del (a / 64) }).advance st
    | _ => s.advance st) s

/-- HALT: the core stops until the cluster restarts. -/
def execStHalt (st : Nat) (s : State) : Out :=
  stPriv st 15 (fun _ s => s.updCore st fun c => { c with halted := true, idle := true }) s

/-- SC_CTL_INVALIDATE (R398). -/
def execScCtlInvalidate (st : Nat) (s : State) : Out :=
  State.plain (State.updCore st fun c => { c with cache := [] }) s

end Sys2Proof.Machine
end

