-- ==== Sys2Proof/Machine/Ext.lean ====
section
/-! DEFINITION. Token injection (R53, R398), traps to firmware and to extension modules (R188, R189, R396), extension service
calls (R395), EXT_LOAD and EXT_UNLOAD (R391 to R393, R396), and what a steward's halt leaves to another (R383, R384). -/

namespace Sys2Proof.Machine
open Sys2Proof

/-! ### Injection -/

/-- A token from the injection port goes to the context manager, which checks it against the table (R210). -/
def State.inject (t : Tok) (s : State) : State := s.send 0 (chanOf t.grp.toNat) 1000 .stew .cm (.tok t.sealed)

/-- TOKEN_INJECT (R53, R398): the token staged in TI_W0 to TI_W4; KIND 01 and PORT 3 are refused. -/
def State.tiGo (st : Nat) (s : State) : State :=
  let w := (s.core st).ti
  let img := (List.range 4).flatMap (fun i => leBytes 4 (w.getD i 0)) ++ leBytes 2 (w.getD 4 0)
  let t := Tok.ofImage img
  if t.kind = 1 || t.port = 3 then s.updCore st fun c => { c with tiStat := BAD_ARG * 2 ^ 16 }
  else (s.inject t).updCore st fun c => { c with tiStat := OK * 2 ^ 16 }

def execTokenInject (st : Nat) (s : State) : Out := State.plain (State.tiGo st) s

/-! ### Traps (R188, R189, R396) -/

/-- The trap message's 96 bytes (Table 05-19). -/
def TrapMsg.bytes (m : TrapMsg) : List Byte :=
  leBytes 8 m.time ++ leBytes 8 m.word ++ leBytes 8 m.key ++ leBytes 1 m.pe ++ leBytes 1 m.slot ++ leBytes 1 m.present
    ++ leBytes 1 m.job ++ padTo 20 m.a ++ padTo 20 m.b ++ padTo 20 m.c ++ leBytes 1 (m.job / 256) ++ zeros 7

/-- A fault return answers a trap; its VALUE is an open value, which no rule makes visible but as a copy (R189). -/
def State.trapFault (m : TrapMsg) (s : State) : State :=
  let (v, s1) := s.fresh
  s1.inject (Tok.ofParts m.key v ((m.slot % 32 + 0x180) * 64 + 3))

/-- The loaded module whose emul range holds an opcode. -/
def State.emulOf (s : State) (opc : Nat) : Option Nat :=
  (s.st.modules.find? fun p => p.2.emulLo != 0 && p.2.emulLo ≤ opc && opc ≤ p.2.emulHi).map (·.1)

/-- A module whose queue holds a trap sets flag 0 of its task 0 (R396). -/
def State.moduleFlag (m : Nat) (s : State) : State :=
  let x := Tbl.get {} s.st.modules m
  if x.traps.isEmpty then s else s.setFlags x.st (x.slots.headD 32) 1

/-- A trap message arrives at the cluster. -/
def State.trapArrive (m : TrapMsg) (s : State) : State :=
  match s.emulOf (wOpc m.word) with
  | some k =>
    (s.updCl fun c => { c with modules := c.modules.upd {} k fun x => { x with traps := x.traps ++ [m] } }).moduleFlag k
  | none => (s.updCl fun c => { c with fwTraps := c.fwTraps ++ [m] }).raise 16

/-- Firmware of service level 1 holds an empty table (R188): its emulation task answers every waiting trap that no module
claims with a fault return. -/
def State.fwAnswer (s : State) : State :=
  s.st.fwTraps.foldl (fun s m => s.trapFault m) (s.updCl fun c => { c with fwTraps := [] })

/-- EVENT_ROUTED (R386): a pending source with an enabled route reaches its flag; the task of source 16 serves the traps. -/
def execEventRouted (source : Nat) (s : State) : Out :=
  State.plain (fun s =>
    let r := Tbl.get {} s.st.routes source
    if r.pend && r.en && !s.st.restarting then
      when (source = 16) State.fwAnswer
        ((s.updCl fun c => { c with routes := c.routes.put source { r with pend := false } }).setFlags r.st r.slot (2 ^ r.flag))
    else s) s

/-! ### Service calls (Table 11-12) -/

/-- A service of the code, by the task at the SYSCALL vector: its module's index and record. -/
def svc (st code : Nat) (f : Nat → Module → State → State) (s : State) : Out :=
  State.plain (fun s =>
    match s.svcCall st with
    | some (k, m, c) => if c = code then f k m s else s
    | none => s) s

/-- EXIT. -/
def execExit (st : Nat) (s : State) : Out := svc st 0 (fun _ _ s => s.leaveCore st tsStopped) s

/-- EVENT. -/
def execEvent (st : Nat) (s : State) : Out :=
  svc st 1 (fun _ _ s =>
    let c := s.core st
    (s.event cExt st (c.reg 2 % 2 ^ 16) (c.reg 3 + c.reg 4 * 2 ^ 32)).svcReturn st OK) s

/-- TASK_START: a task that is not stopped is refused. -/
def execTaskStart (st : Nat) (s : State) : Out :=
  svc st 2 (fun _ m s =>
    match m.slots[(s.core st).reg 2]? with
    | none => s.svcReturn st BAD_ARG
    | some k =>
      if (s.task st k).state != tsStopped then s.svcReturn st DENIED else (s.dspStart st k).svcReturn st OK) s

/-- INFO. -/
def execInfo (st : Nat) (s : State) : Out :=
  svc st 3 (fun _ m s =>
    (s.updCore st fun c => { c with g := putG (putG (putG c.g 2 m.id) 3 st) 4 (0x10000000 + m.shelf) }).svcReturn st OK) s

/-- The place of n bytes at D[g2] within the calling task's regions. -/
def State.svcMem (s : State) (st n : Nat) : Option DLoc :=
  let c := s.core st
  if c.inRegion (c.reg 2) n then s.dLoc st (c.reg 2) else none

/-- TRAP_NEXT. -/
def execTrapNext (st : Nat) (s : State) : Out :=
  svc st 4 (fun k m s =>
    match m.traps with
    | [] => s.svcReturn st DENIED
    | t :: r =>
      match s.svcMem st 96 with
      | none => s.svcReturn st BAD_ARG
      | some l =>
        (((s.dWrite st t.bytes l).updCl fun c =>
          { c with modules := c.modules.put k { m with traps := r, given := m.given ++ [(t, false)] } }).moduleFlag k).svcReturn
          st OK) s

/-- The bytes at a place of a steward's D-space as firmware reads them for a service call, none where an uncorrectable error
lies under them. -/
def State.svcRead (st n : Nat) (l : DLoc) (s : State) : Option (List Byte) × State :=
  match l with
  | .priv a => (if s.badPriv st a n then none else some (Mem.readBytes 0 (s.core st).priv a n), s)
  | .shelf o => (if s.shelfBadAt o n then none else some (Mem.readBytes 0 s.shelf o n), s)
  | .win a _ =>
    let s1 := s.ddrRd 6 a n
    (if s1.poisonedAt a n then none else some (s1.ddrBytes a n), s1)

/-- TRAP_RETURN: its slot and match key must name a trap delivered to the module. An image that cannot be read is answered with
BAD_ARG (log entry 121, DESIGN CHOICE). -/
def execTrapReturn (st : Nat) (s : State) : Out :=
  svc st 5 (fun k m s0 =>
    match s0.svcMem st 18 with
    | none => s0.svcReturn st BAD_ARG
    | some l =>
      match s0.svcRead st 18 l with
      | (none, s) => s.svcReturn st BAD_ARG
      | (some bs, s) =>
      let t := Tok.ofImage bs
      match m.given.find? fun x => x.1.slot == t.flow.toNat % 32 && x.1.key == t.tag with
      | none => s.svcReturn st BAD_ARG
      | some x =>
        if t.kind != 3 then s.svcReturn st BAD_ARG
        else
          let rest := m.given.erase x
          let given := if bit t.flow.toNat 7 || bit t.flow.toNat 8 then rest else rest ++ [(x.1, true)]
          ((s.inject t).updCl fun c => { c with modules := c.modules.put k { m with given := given } }).svcReturn st OK) s

/-! ### The module image (R391) -/

def extISize (h : List Byte) : Nat := fld h 0x14 4
def extDSize (h : List Byte) : Nat := fld h 0x18 4
def extTasks (h : List Byte) : Nat := fld h 0x13 1
def extSteward (h : List Byte) : Nat := fld h 0x12 1

/-- Task i's entry offset, base priority, start flag and stack bytes. -/
def extEntry (h : List Byte) (i : Nat) : Nat := fld h (0x40 + 8 * i) 4
def extPri (h : List Byte) (i : Nat) : Nat := fld h (0x44 + 8 * i) 1
def extStart (h : List Byte) (i : Nat) : Nat := fld h (0x45 + 8 * i) 1
def extStack (h : List Byte) (i : Nat) : Nat := 16 * fld h (0x46 + 8 * i) 2

/-- Stack bytes of the tasks before task n. -/
def extStacks (h : List Byte) (n : Nat) : Nat := (List.range n).foldl (fun a i => a + extStack h i) 0

/-- Private D pages: the initial data and the stacks above it. -/
def extDPages (h : List Byte) : Nat := cdiv (extDSize h + extStacks h (extTasks h)) 4096

/-- The rules of Table 11-10, for firmware of a service level. -/
def extOk (api len : Nat) (h : List Byte) : Bool :=
  let emul := fld h 0x24 2
  fld h 0 4 == 0x4D584B53 && fld h 4 2 == 1 && fld h 6 2 < 4 && fld h 8 4 != 0 && fld h 0x10 2 ≤ api
    && (extSteward h < 4 || extSteward h == 0xFF) && 1 ≤ extTasks h && extTasks h ≤ 8
    && extISize h % 4 == 0 && 4 ≤ extISize h && extISize h ≤ 98304 && extDSize h % 4 == 0 && extDSize h ≤ 65536
    && fld h 0x1C 4 ≤ 2097152 && fld h 0x20 4 % 2 ^ 20 == 0 && fld h 0x20 4 ≤ 2 ^ 28
    && (emul == 0 || (0xA0 ≤ emul % 256 && emul % 256 ≤ emul / 256))
    && allZero (slice h 0x26 26) && allZero (slice h 0xA0 96) && allZero (slice h 0x161 7) && allZero (slice h 0x1C8 56)
    && ((List.range (extTasks h)).all fun i =>
      extEntry h i % 4 == 0 && extEntry h i < extISize h && extPri h i ≤ 13 && extStart h i ≤ 1)
    && len == 512 + extISize h + extDSize h

/-- The lowest run of free pages. -/
def freeRun (used : List Nat) (first count n : Nat) : Option Nat :=
  ((List.range count).map (· + first)).find? fun p =>
    p + n ≤ first + count && (List.range n).all fun i => !used.contains (p + i)

/-- The modules on a steward. -/
def State.modulesOn (s : State) (st : Nat) : List Module := (s.st.modules.filter fun p => p.2.st == st).map (·.2)

/-- Free extension I pages of a steward: pages 40 to 63. -/
def State.freeIPages (s : State) (st : Nat) : Nat := 24 - ((s.modulesOn st).flatMap (·.ipages)).length

/-- Where a steward has room for a module: first I page, first private page, task slots. -/
def State.extRoom (s : State) (st : Nat) (h : List Byte) : Option (Nat × Nat × List Nat) :=
  let ms := s.modulesOn st
  let free := (List.range 32).filter fun k => (s.task st k).state == 0
  if (s.core st).halted || free.length < extTasks h then none
  else
    match freeRun (ms.flatMap (·.ipages)) 40 24 (cdiv (extISize h) 4096), freeRun (ms.flatMap (·.dpages)) 48 16 (extDPages h) with
    | some i, some d => some (i, d, free.take (extTasks h))
    | _, _ => none

/-- Room in the Shelf's extension area, in pages of 64 KiB. -/
def State.extShelf (s : State) (h : List Byte) : Option Nat :=
  freeRun (s.st.modules.flatMap fun p => (List.range p.2.shelfPages).map (· + p.2.shelf / 2 ^ 16)) 32 32 (cdiv (fld h 0x1C 4) (2 ^ 16))

/-- Room in DDR5 outside the job area. -/
def State.extDdr (s : State) (h : List Byte) : Bool :=
  (s.st.modules.foldl (fun n p => n + p.2.ddrSize) (fld h 0x20 4 + (s.jobLimit - s.jobBase))) ≤ s.ddrTop

/-- The steward a module goes to: the permitted one with the most free I pages, the lowest on a tie. -/
def State.extPick (s : State) (h : List Byte) : Option Nat :=
  ((if extSteward h = 0xFF then [0, 1, 2, 3] else [extSteward h]).filter fun st => (s.extRoom st h).isSome).foldl (fun b st =>
    match b with
    | none => some st
    | some x => if s.freeIPages x < s.freeIPages st then some st else some x) none

/-- A module's D regions as a task's XDR ports hold them (R394): private pages, Shelf pages, DDR5 window, stack. -/
def extRegions (d dn sh shn dd ddn lo hi : Nat) : Tbl Nat :=
  [(0, d * 4096), (1, (d + dn) * 4096), (2, 0x10000000 + sh), (3, 0x10000000 + sh + shn * 2 ^ 16), (4, dd), (5, dd + ddn),
   (6, lo / 4096 * 4096), (7, cdiv hi 4096 * 4096)]

/-- A verified image is loaded (R393). The place of its DDR5 window region is firmware's choice: an open value. -/
def State.extInstall (k st ip dp : Nat) (slots : List Nat) (sh : Nat) (img : List Byte) (s0 : State) : State :=
  let (dd, s) := s0.fresh
  let h := img.take 512
  let code := slice img 512 (extISize h)
  let data := slice img (512 + extISize h) (extDSize h)
  let ni := cdiv (extISize h) 4096
  let nd := extDPages h
  let shn := cdiv (fld h 0x1C 4) (2 ^ 16)
  let pages := (List.range ni).map (· + ip)
  let m : Module :=
    { id := fld h 8 4, flags := fld h 6 2, version := fld h 0xC 4, api := fld h 0x10 2, st := st,
      slots := slots, ipages := pages, dpages := (List.range nd).map (· + dp), shelf := sh * 2 ^ 16, shelfPages := shn,
      ddr := dd, ddrSize := fld h 0x20 4, emulLo := fld h 0x24 1, emulHi := fld h 0x25 1,
      image := img }
  let s1 := (s.updCl fun c => { c with modules := c.modules.put k m }).updCore st fun c =>
    { c with ispace := Mem.writeBytes 0 c.ispace (ip * 4096) (padTo (ni * 4096) code),
             ibad := c.ibad.filter fun w => w / 1024 < ip || ip + ni ≤ w / 1024,
             dbad := c.dbad.filter fun w => w / 1024 < dp || dp + nd ≤ w / 1024,
             iloaded := c.iloaded ++ pages.filter fun p => !c.iloaded.contains p,
             priv := Mem.writeBytes 0 c.priv (dp * 4096) (padTo (nd * 4096) data) }
  let top := (dp + nd) * 4096
  (List.range (extTasks h)).foldl (fun s i =>
    let slot := slots.getD i 32
    let hi := top - extStacks h i
    let lo := hi - extStack h i
    when (extStart h i = 1) (State.dspStart st slot) (s.updTask st slot fun _ =>
      { state := tsStopped, entry := ip * 4096 + extEntry h i, ctl := extPri h i + k * 256, module := k, stkLo := lo,
        stkHi := hi, xio := (List.range 8).map fun j => (j, fld h (0x80 + 4 * j) 4),
        xdr := extRegions dp nd (sh * 2 ^ 16) shn dd (fld h 0x20 4) lo hi })) s1

/-- The lowest free module index. -/
def State.freeModule (s : State) : Nat :=
  ((List.range 255).map (· + 1)).find? (fun k => (Tbl.find s.st.modules k).isNone) |>.getD 255

/-- EXT_LOAD after its image has been read: Table 11-11 in its order, and the module as loaded. -/
def State.extLoadImage (img : List Byte) (len : Nat) (s : State) : Except Nat (Nat × Nat × State) :=
  let h := img.take 512
  if s.boot.dev = 4 then .error BUSY
  else if s.otp.extHash.isEmpty then .error DENIED
  else if !extOk s.boot.image.api len h then .error BAD_ARG
  else if Config.sha384 (slice h 0x100 97) != s.otp.extHash
      || !Config.ecdsaOk (slice h 0x100 97) (Config.sha384 (h.take 0x168 ++ img.drop 512)) (slice h 0x168 96) then
    .error VERIFY_FAIL
  else if (s.st.modules.any fun p => p.2.id == fld h 8 4)
      || (fld h 0x24 2 != 0 && s.st.modules.any fun p =>
        p.2.emulLo != 0 && fld h 0x24 1 ≤ p.2.emulHi && p.2.emulLo ≤ fld h 0x25 1) then .error DENIED
  else
    match s.extPick h, s.extShelf h with
    | some st, some sh =>
      match s.extRoom st h with
      | some (ip, dp, slots) =>
        if s.extDdr h then .ok (fld h 8 4, st, s.extInstall s.freeModule st ip dp slots sh img) else .error DENIED
      | none => .error DENIED
    | _, _ => .error DENIED

/-- EXT_LOAD (R392). -/
def execExtLoad (mb : Nat) (s : State) : Out :=
  State.plain (State.serveMb mb 0x72 1 0 16 [(0, 1), (4, 4), (8, 8)] (fun a => fld a 0 1 ≤ 1) noAbsent false fun a s =>
    let len := fld a 4 4
    let s := s.sourceRd (fld a 0 1) (fld a 8 8) len
    match s.image (fld a 0 1) (fld a 8 8) len with
    | .error c => s.fin mb c
    | .ok img =>
      match s.extLoadImage img len with
      | .error c => s.fin mb c
      | .ok (id, st, s1) => s1.finish mb OK (leBytes 4 id ++ leBytes 1 st)) s

/-- A module's tasks stop, its pegs and pages go back, its outstanding traps are answered (R396). -/
def State.extDrop (k : Nat) (s : State) : State :=
  let m := Tbl.get {} s.st.modules k
  let s1 := m.slots.foldl (fun s t => (s.dspStop m.st t).pegForce fun p => p.owner == masterSt m.st && p.ownerId == t) s
  let s2 := m.slots.foldl (fun s t => s.updTask m.st t fun _ => {}) s1
  let s3 := (s2.updCore m.st fun c => { c with iloaded := c.iloaded.filter fun p => !m.ipages.contains p }).updCl fun c =>
    { c with modules := c.modules.del k }
  (m.traps ++ m.given.map (·.1)).foldl (fun s t => s.trapFault t) s3

/-- EXT_UNLOAD (R396). -/
def execExtUnload (mb : Nat) (s : State) : Out :=
  State.plain (State.serveMb mb 0x73 1 0 4 [(0, 4)] okArgs noAbsent false fun a s =>
    match s.st.modules.find? fun p => p.2.id == fld a 0 4 with
    | none => s.fin mb NOT_ACTIVE
    | some (k, _) => (s.extDrop k).fin mb OK) s

/-! ### Adoption (R383, R384) -/

/-- The first running steward after a halted one. -/
def State.adopter (s : State) (st : Nat) : Option Nat :=
  [(st + 1) % 4, (st + 2) % 4, (st + 3) % 4].find? fun k => !(s.core k).halted

/-- A mailbox command cut short by a halt: what it still held is withdrawn, and it completes with TIMEOUT (Table 11-17). -/
def State.cutShort (m : Nat) (s : State) : State :=
  let mine (a : Arb) : Bool := match a with
    | .retire b => b == m
    | .rejoin b _ => b == m
    | .setDomain (.mb b) _ => b == m
    | .throttle b _ => b == m
    | .ruleWrite (.mb b) _ => b == m
    | .ruleDisable (.mb b) => b == m
    | .swap b => b == m
    | _ => false
  let s1 : State :=
    { s with arb := s.arb.map fun w => { w with cmds := w.cmds.filter fun c => !mine c.what },
             lanes := s.lanes.map fun p => (p.1, { p.2 with
               ctrlQ := p.2.ctrlQ.map fun c => if c.by_ = 2 + m then { c with by_ := 0 } else c,
               unacked := p.2.unacked.map fun c => if c.by_ = 2 + m then { c with by_ := 0 } else c }) }
  let goes (o : FlOp) : Bool := o.mb == some m && o.ends != .keep
  let acts := (s.boot.q0 ++ s.boot.q1).any fun o =>
    goes o && (match o.ends with | .fetch .. => true | .activate .. => true | _ => false)
  let cut (q : List FlOp) : List FlOp :=
    (q.filter fun o => !goes o).map fun o => if o.mb = some m then { o with mb := none } else o
  let s2 := s1.updBoot fun b =>
    { b with q0 := cut b.q0, q1 := cut b.q1, activating := if acts then none else b.activating }
  let s3 := s2.updPwr fun p => { p with doms := p.doms.map fun d =>
    (d.1, { d.2 with waits := d.2.waits.filter fun w => match w.1 with | .mb k => k != m | .port _ _ => true }) }
  let x := s.mb m
  let s4 := if x.id = 0x10 then s3.updCm fun c => { c with blocks := c.blocks.del (fld x.data 0 2) } else s3
  s4.fin m TIMEOUT

/-- A firmware task of a halted steward starts again in a free slot of the adopting one; its routes follow it. -/
def State.adoptTask (st to_ slot : Nat) (s : State) : State :=
  let t := s.task st slot
  match (List.range 32).find? fun k => (s.task to_ k).state == 0 with
  | none => s
  | some k =>
    let s1 := (s.updTask to_ k fun x => { x with entry := t.entry, ctl := t.ctl }).dspStart to_ k
    s1.updCl fun c => { c with routes := c.routes.map fun r =>
      if r.2.st = st && r.2.slot = slot then (r.1, { r.2 with st := to_, slot := k }) else r }

/-- A module is loaded anew onto a steward when it may be and fits, else stopped with one event record; the traps that it
had not answered are queued again, those it had answered in part are answered with a fault return (R383, R396). -/
def State.moveModule (k to_ : Nat) (may : Bool) (s : State) : State :=
  let m := Tbl.get {} s.st.modules k
  let h := m.image.take 512
  let q := m.traps ++ (m.given.filter fun x => !x.2).map (·.1)
  let late := (m.given.filter fun x => x.2).map (·.1)
  let s1 := (s.updCl fun c => { c with modules := c.modules.upd {} k fun x => { x with traps := [], given := [] } }).extDrop k
  let s2 := late.foldl (fun s t => s.trapFault t) s1
  match (if may then s2.extRoom to_ h else none), s2.extShelf h with
  | some (ip, dp, slots), some sh => q.foldl (fun s t => s.trapArrive t) (s2.extInstall k to_ ip dp slots sh m.image)
  | _, _ => q.foldl (fun s t => s.trapFault t) ((s2.event cSt to_ 0x800A m.id).alert 12)

/-- A module of a halted steward goes to the adopting one when it is restartable and may run there. -/
def State.adoptModule (k to_ : Nat) (s : State) : State :=
  let m := Tbl.get {} s.st.modules k
  let h := m.image.take 512
  s.moveModule k to_ (bit m.flags 0 && (extSteward h = 0xFF || extSteward h = to_))

/-- STEWARD_ADOPTION (R383, steps 4 to 7). -/
def execStewardAdoption (st : Nat) (s : State) : Out :=
  State.plain (fun s =>
    match (if (s.core st).adopt then s.adopter st else none) with
    | none => s
    | some to_ =>
      let s1 := s.updCore st fun c => { c with adopt := false }
      let slots := (List.range 32).filter fun k => (s.task st k).state != 0 && (s.task st k).module == 0
      let s2 := slots.foldl (fun s k => s.adoptTask st to_ k) s1
      let s3 := s2.updCl fun c => { c with routes := c.routes.map fun r =>
        if r.2.st = st then (r.1, { r.2 with st := to_ }) else r }
      let s4 := ((List.range 16).filter fun m => (s.mb m).state == 2 && (s.mb m).st == st).foldl (fun s m => s.cutShort m) s3
      (s.st.modules.filter fun p => p.2.st == st).foldl (fun s p => s.adoptModule p.1 to_) s4) s

end Sys2Proof.Machine
end

