-- ==== Sys2Proof/Machine/Blocks.lean ====
section
/-! DEFINITION. Code blocks (R62 to R68, R147, R194 to R196, R514, R564): the image's rules, code pages, LOAD_BLOCK and
UNLOAD_BLOCK. -/

namespace Sys2Proof.Machine
open Sys2Proof

/-! ### The image (R62, R63) -/

def bhFlags (h : List Byte) : Nat := fld h 6 2
def bhActors (h : List Byte) : Nat := fld h 8 2
def bhPool (h : List Byte) : Nat := fld h 0xA 2
def bhSets (h : List Byte) : Nat := fld h 0xC 2
def bhBody (h : List Byte) : Nat := fld h 0x18 4
def bhEnc (h : List Byte) : Bool := bit (bhFlags h) 0

/-- The length that R63 gives the body. -/
def bodyLen (a p s : Nat) : Nat := 8 * a + 8 * cdiv (2 * a) 8 + 8 * p + 16 * s

/-- The header's rules (Table 02-6), with R63 and the body's check code. -/
def blockHeadOk (img : List Byte) (len : Nat) : Bool :=
  let h := img.take 64
  64 ≤ len && fld h 0 4 == 0x4C42564B && fld h 4 2 == 1 && bhFlags h < 8 && 1 ≤ bhActors h && bhActors h ≤ 16384
    && bhPool h ≤ 16384 && bhSets h ≤ 256 && (bhEnc h || allZero (slice h 0x20 0x1E)) && allZero (slice h 0x3E 2)
    && bhBody h == bodyLen (bhActors h) (bhPool h) (bhSets h) && len == 64 + bhBody h
    && fld h 0x1C 4 == crc32 (img.drop 64)

/-- Consecutive numbers of n bytes. -/
def nums (bs : List Byte) (o n count : Nat) : List Nat := (List.range count).map fun i => fld bs (o + n * i) n

/-- The block that a plaintext body gives under its header. -/
def blockOf (h body : List Byte) : Block :=
  let a := bhActors h
  let p := bhPool h
  let o1 := 8 * a
  let o2 := o1 + 8 * cdiv (2 * a) 8
  let o3 := o2 + 8 * p
  { flags := bhFlags h, words := nums body 0 8 a, place := nums body o1 2 a, pool := nums body o2 8 p,
    sets := (List.range (bhSets h)).map fun i =>
      { members := fld body (o3 + 16 * i) 8, shift := fld body (o3 + 16 * i + 8) 1, mode := fld body (o3 + 16 * i + 9) 1 },
    isa := fld h 0xE 2, w := fld h 0x10 8, keyId := fld h 0x20 2 }

/-! ### The body's rules (R64, R65, R67, R147) -/

/-- The body's padding and reserved bytes are zero, and each PE-set descriptor obeys Table 02-8. -/
def bodyBytesOk (h body : List Byte) (b : Block) : Bool :=
  let a := bhActors h
  let o1 := 8 * a
  let o3 := o1 + 8 * cdiv (2 * a) 8 + 8 * bhPool h
  allZero (slice body (o1 + 2 * a) (8 * cdiv (2 * a) 8 - 2 * a))
    && (List.range (bhSets h)).all (fun i => allZero (slice body (o3 + 16 * i + 10) 6))
    && b.sets.all fun p => p.members != 0 && p.shift ≤ 27 && p.mode ≤ 1

/-- A placement entry (Table 02-7). -/
def placeOk (b : Block) (e : Nat) : Bool :=
  bits e 14 8 == 0 && (if bit e 15 then e % 256 < b.sets.length else bits e 7 6 == 0)

/-- A destination (R67): port 3 with a zero actor, or an actor of the block and a port of its waiting set. -/
def dstOk (b : Block) (act port : Nat) : Bool :=
  if port = 3 then act == 0
  else match b.words[act]? with
    | none => false
    | some w => (waitSet w).contains port

/-- The modifier's reserved bits (R147 and the opcode tables). -/
def modOk (b : Block) (w : Nat) : Bool :=
  let o := wOpc w
  let m := wMod w
  if o = 0x18 || o = 0x2B || o = 0x35 || (0x40 ≤ o && o ≤ 0x42) || (0x52 ≤ o && o ≤ 0x56) || (0x60 ≤ o && o ≤ 0x63)
      || o = 0x82 || o = 0x83 then m == 0
  else if o = 0x34 || o = 0x81 then m < 2
  else if o = 0x50 then m < 8
  else if o = 0x51 then m < 4
  else if o = 0x36 then bits m 15 14 != 3 && bits m 13 0 < b.words.length
  else if o = 0x70 then wArity w != 0 || (m < 2 ^ 13 && bits m 4 1 ≤ 8)
  else if o = 0x71 then wArity w != 0 || m < 4
  else if 0x90 ≤ o && o ≤ 0x94 then m < 3
  else true

/-- One actor word with its placement entry (R67, R147). -/
def wordOk (b : Block) (w e : Nat) : Bool :=
  let o := wOpc w
  wArity w != 3 && !(wImmSel w != 0 && wArity w == 0) && !(wImmSel w == 3 && wArity w == 1)
    && (wImmSel w == 0 || !bit (wImm16 w) 15 || (!bit (wImm16 w) 14 && bits (wImm16 w) 13 0 < b.pool.length))
    && dstOk b (wDst0 w) (wPort0 w) && dstOk b (wDst1 w) (wPort1 w) && !(wFk w && bit e 15)
    && (opReserved o || (opForms o).any fun f => f.fits w)
    && (opReserved o || modOk b w)
    && (!(o == 0x34 || o == 0x35) || (wPort0 w == 3 && wPort1 w == 3))
    && (!(0x60 ≤ o && o ≤ 0x63) || wPort0 w == 3 || (waitSet (b.words.getD (wDst0 w) 0)).length ≤ 1)

/-- The body's rules. -/
def bodyOk (h body : List Byte) (b : Block) : Bool :=
  bodyBytesOk h body b && b.place.all (placeOk b) && (List.zipWith (wordOk b) b.words b.place).all id

/-! ### Placement and code pages (R68, R194) -/

/-- The words of code memory that a block takes on a logical PE: its actor words there, and the pool entries they name. -/
def Block.wordsOn (b : Block) (k : Nat) : Nat :=
  let here := ((List.zip b.words b.place).filter fun x => (b.pesOf x.2).contains k).map (·.1)
  let pool := (here.filter fun w => wImmSel w != 0 && bit (wImm16 w) 15).map fun w => bits (wImm16 w) 13 0
  here.length + pool.eraseDups.length

/-- Pages of 64 words. -/
def Block.pagesOn (b : Block) (k : Nat) : Nat := cdiv (b.wordsOn k) 64

/-- Free code pages of a logical PE, of 1,024. -/
def State.freePages (s : State) (k : Nat) : Nat := 1024 - s.cm.blocks.foldl (fun n p => n + p.2.pagesOn k) 0

/-- The lowest logical PE that lacks room for a block. -/
def State.noRoom (s : State) (b : Block) : Option Nat := b.named.find? fun k => s.freePages k < b.pagesOn k

/-! ### LOAD_BLOCK (R564) -/

/-- The plaintext body, or the status of the checks on encryption (orders 3 to 5). -/
def State.plainBody (s : State) (img : List Byte) : Except Nat (List Byte) :=
  let h := img.take 64
  let body := img.drop 64
  if !bhEnc h then .ok body
  else
    match (if s.sec.latch then none else Tbl.find s.sec.keys (fld h 0x20 2)) with
    | none => .error DENIED
    | some key =>
      if 2 ^ 20 < bhBody h then .error BAD_ARG
      else match Config.gcmOpen key (slice h 0x22 12) (h.take 0x2E) body (slice h 0x2E 16) with
        | none => .error VERIFY_FAIL
        | some p => .ok p

/-- The checks of Table 06-10 from order 2 on: the block, or a status with the logical PE that lacked room. -/
def State.checkBlock (s : State) (img : List Byte) (len : Nat) : Except (Nat × Nat) Block :=
  let h := img.take 64
  if !blockHeadOk img len then .error (BAD_ARG, 0xFF)
  else
    match s.plainBody img with
    | .error c => .error (c, 0xFF)
    | .ok body =>
      let b := blockOf h body
      if !bodyOk h body b then .error (BAD_ARG, 0xFF)
      else if !(b.named.all s.lpeOk) then .error (ABSENT, 0xFF)
      else if s.pair.en && bit b.flags 2 && !bit b.flags 1 then .error (DENIED, 0xFF)
      else match s.noRoom b with
        | some k => .error (DENIED, k)
        | none => .ok b

/-- Quads that hold a named PE and are not on. -/
def State.offQuads (s : State) (b : Block) : List Nat :=
  ((b.named.map fun k => quadDom (s.physOf k)).eraseDups).filter fun d => !s.domOn d

/-- Loads in progress whose quads are all on now end: the block is usable, the command completes (R195). -/
def State.finishLoads (s : State) : State :=
  (List.range 32).foldl (fun s m =>
    let x := s.mb m
    if x.state = 2 && x.id = 0x10 then
      let n := fld x.data 0 2
      match Tbl.find s.cm.blocks n with
      | some b =>
        if b.loading && (s.offQuads b).isEmpty then
          (s.updCm fun c => { c with blocks := c.blocks.put n { b with loading := false } }).finish m OK [0xFF]
        else s
      | none => s
    else s) s

/-- LOAD_BLOCK: a load whose quads sleep wakes them and waits (R195). -/
def execLoadBlock (mb : Nat) (s : State) : Out :=
  State.plain (State.serveMb mb 0x10 1 0 16 [(0, 2), (2, 1), (4, 4), (8, 8)]
    (fun a => fld a 0 2 < 1024 && fld a 2 1 ≤ 1) noAbsent false fun a s =>
      let n := fld a 0 2
      let len := fld a 4 4
      if (Tbl.find s.cm.blocks n).isSome then s.finish mb DENIED [0xFF]
      else
        let s := s.sourceRd (fld a 2 1) (fld a 8 8) len
        match s.image (fld a 2 1) (fld a 8 8) len with
        | .error c => s.finish mb c [0xFF]
        | .ok img =>
          match s.checkBlock img len with
          | .error (c, k) => s.finish mb c (leBytes 1 k)
          | .ok b =>
            ((s.offQuads b).foldl (fun s d => s.updDom d fun x => { x with wake := true })
              (s.updCm fun c => { c with blocks := c.blocks.put n { b with loading := true } })).finishLoads) s

/-- UNLOAD_BLOCK (R196). -/
def execUnloadBlock (mb : Nat) (s : State) : Out :=
  State.plain (State.serveMb mb 0x11 1 0 2 [(0, 2)] (fun a => fld a 0 2 < 1024) noAbsent false fun a s =>
    let n := fld a 0 2
    match Tbl.find s.cm.blocks n with
    | none => s.fin mb NOT_ACTIVE
    | some b =>
      if b.loading || (s.cm.ctxs.any fun p => s.ctxLive p.1 && p.2.block == n) || s.cm.queue.any (·.block == n) then
        s.fin mb BUSY
      else (s.updCm fun c => { c with blocks := c.blocks.del n }).fin mb OK) s

end Sys2Proof.Machine
end

