-- ==== Sys2Proof/Machine/Compare.lean ====
section
/-! DEFINITION. The compare units (R259 to R279, R292 to R294): frets, matching, fail tokens, floods and summary mode,
halt reports, the purge of a lost site. -/

namespace Sys2Proof.Machine
open Sys2Proof

/-! ### Indices (R223, R310) -/

/-- a comes before b among 48-bit indices (R223). -/
def idxLt (a b : Nat) : Bool := let d := (b + 2 ^ 48 - a % 2 ^ 48) % 2 ^ 48; 0 < d && d < 2 ^ 47

/-- The later of two indices. -/
def idxMax (a b : Nat) : Nat := if idxLt a b then b else a

/-- The index that a 24-bit field stands for: the nearest to n (R310). -/
def extIdx (n field : Nat) : Nat :=
  let d := (field + 2 ^ 24 - n % 2 ^ 24) % 2 ^ 24
  if d < 2 ^ 23 then (n + d) % 2 ^ 48 else (n + 2 ^ 48 - 2 ^ 24 + d) % 2 ^ 48

/-! ### Settings (R292 to R294) -/

def State.cuReg (s : State) (l r rst : Nat) : Nat := s.ioReg (cuBase l + r) rst
def State.cuWin (s : State) (l : Nat) : Nat := s.cuReg l 0 0x1F4
def State.cuFlood (s : State) (l : Nat) : Nat := s.cuReg l 1 0x02210000

/-- rt_max in fc, the flood threshold, the sub-interval of the flood window and the summary interval in fc. -/
def State.rtMax (s : State) (l : Nat) : Nat := bits (s.cuWin l) 11 0 * 4 * NS
def State.floodT (s : State) (l : Nat) : Nat := bits (s.cuFlood l) 19 0
def State.subLen (s : State) (l : Nat) : Nat := 25 * US / 16 * 2 ^ bits (s.cuFlood l) 22 20
def State.sumLen (s : State) (l : Nat) : Nat := bits (s.cuReg l 2 10) 11 0 * US

/-- A compare-unit counter rises. CU_ECC's halves are kept as 0x12 and 0x22. -/
def State.cuCnt (l off n : Nat) (s : State) : State :=
  (s.updCu l fun c => { c with cnt := bump c.cnt off n }).note (.cnt .cu l off) n

/-! ### Floods (R273, R274, R277) -/

/-- The flood count: the current sub-interval and the 15 before it. -/
def State.floodCount (s : State) (l : Nat) : Nat :=
  let q := s.time / s.subLen l
  ((s.cu l).flood.filter fun x => q < x.1 + 16).foldl (fun n x => n + x.2) 0

/-- Tokens count toward the flood. -/
def State.floodAdd (l n : Nat) (s : State) : State :=
  let q := s.time / s.subLen l
  s.updCu l fun c =>
    let keep := c.flood.filter fun x => q < x.1 + 16
    { c with flood := keep.filter (fun x => x.1 != q) ++ [(q, n + ((keep.find? fun x => x.1 == q).map (·.2)).getD 0)] }

/-- A lane enters SUMMARY (R274, R277); cause bit 0 threshold, bit 1 buffer. -/
def State.enterSummary (l k cause : Nat) (s : State) : State :=
  let s1 := (s.updCu l fun c =>
    { c with summary := true, sumEntry := s.time, sumAt := s.time + s.sumLen l, acc := { entry := true } }).cuCnt l 0x10 1
  let s2 := ((s1.updSite k fun x => { x with flooded := true }).note (.w1c .flood k) 1).event cCu l FLOODED
    (k + l * 2 ^ 7 + cause * 2 ^ 14)
  if (s.site k).flooded then s2 else s2.alert 2

/-! ### Summary records (R275, R276, R291) -/

/-- Two spans of counts as one. -/
def SumAcc.merge (a b : SumAcc) : SumAcc :=
  { first := match a.first with | some i => some i | none => b.first,
    top := match a.top, b.top with | some i, some j => some (idxMax i j) | some i, none => some i | none, t => t,
    any := a.any || b.any, miss := a.miss + b.miss, late := a.late + b.late, repl := a.repl + b.repl,
    cmp := a.cmp + b.cmp, slots := b.slots.foldl (fun t p => t.upd 0 p.1 (· + p.2)) a.slots,
    entry := a.entry || b.entry }

/-- The next index that the follower writes on a lane of a site. -/
def State.nextFret (s : State) (l k : Nat) : Nat :=
  let x := s.site k
  match x.staged.find? fun v => bit v.toFret (l - x.first) with
  | some v => v.idx
  | none => x.next

/-- L of R262: the lowest index among armed frets, or the next to be written. -/
def State.lowFret (s : State) (l k : Nat) : Nat :=
  match (s.cu l).frets with
  | [] => s.nextFret l k
  | f :: r => r.foldl (fun m g => if idxLt g.idx m then g.idx else m) f.idx

/-- The range of a summary record. -/
def State.sumFirst (s : State) (l k : Nat) (a : SumAcc) : Nat := a.first.getD (s.lowFret l k)
def State.sumLast (s : State) (l k : Nat) (a : SumAcc) : Nat :=
  let lo := s.sumFirst l k a
  match a.top with
  | none => (lo + 2 ^ 48 - 1) % 2 ^ 48
  | some t => if idxLt t lo then (lo + 2 ^ 48 - 1) % 2 ^ 48 else t

/-- rec_outlet of a lane. -/
def State.recOutlet (s : State) (l : Nat) : Nat := bits (s.cuFlood l) 24 24

/-- The FLOW of a lane of a site (Table 08-3). -/
def laneFlow (k i : Nat) : Nat := k % 128 * 8 + i % 8

/-- A summary record (Table 08-9). -/
def State.sumRec (s : State) (l k : Nat) (a : SumAcc) (last : Bool) : CuRec :=
  let x := s.site k
  let slot (i : Nat) : Nat := Tbl.get 0 a.slots i
  let sat := (List.range x.w).any fun i => 2 ^ 32 ≤ slot i
  let c32 (n : Nat) : Nat := min n 0xFFFFFFFF
  { ty := 0xF1, ctx := (s.cu l).destCtx, flow := laneFlow k (l - x.first), job := x.job.getD 0xFFFF, outlet := s.recOutlet l,
    words := [s.sumFirst l k a + k % 128 * 2 ^ 48 + (l - x.first) % 8 * 2 ^ 55 + x.wcode % 4 * 2 ^ 58 + b2n a.entry * 2 ^ 60
                + b2n last * 2 ^ 61 + b2n sat * 2 ^ 62,
              s.sumLast l k a, c32 a.miss + c32 a.late * 2 ^ 32, c32 a.repl + c32 a.cmp * 2 ^ 32]
      ++ (List.range (x.w / 2)).map fun i => c32 (slot (2 * i)) + c32 (slot (2 * i + 1)) * 2 ^ 32 }

/-- A record enters its outlet at once, or is held behind the lane's earlier ones (R276). -/
def State.recOrHold (l : Nat) (r : CuRec) (s : State) : State :=
  if (s.cu l).held.isEmpty && s.cuRecRoom r then (s.putCuRec r).cuCnt l 0x11 1
  else s.updCu l fun c => { c with held := c.held ++ [r] }

/-- The accumulators after a record of them. -/
def State.sumNext (l k : Nat) (a : SumAcc) (s : State) : State :=
  let n := (s.sumLast l k a + 1) % 2 ^ 48
  s.updCu l fun c => { c with acc := { first := some n }, heldAcc := none }

/-- The record that a lane's summary interval wrote in this fc, while it still stands in its outlet: its place there. -/
def State.endedNow (s : State) (l k : Nat) : Option Nat :=
  if s.noted (.sumEnd l) = 0 then none
  else (s.outlet (s.recOutlet l)).done.findIdx? fun r =>
    r.device && r.ty == 0xF1 && r.flow == laneFlow k (l - (s.site k).first) && r.time == s.time && r.epoch == s.holdEpoch

/-- A device-written record takes the last flag, and its CRC with it. -/
def ORec.markLast (r : ORec) : ORec :=
  let ws := match r.words with | w :: t => (w ||| 2 ^ 61) :: t | [] => []
  { r with words := ws, acc := crc32 (ws.flatMap (leBytes 8)) }

/-- The record at a place of an outlet takes the last flag. -/
def State.markLast (o i : Nat) (s : State) : State :=
  match (s.outlet o).done[i]? with
  | some r => (s.updOutlet o fun x => { x with done := x.done.set i r.markLast }).updPair fun p =>
      { p with digest := p.digest ^^^ r.crc ^^^ r.markLast.crc }
  | none => s

/-- A lane leaves SUMMARY: its last record is written or held (R275, R276). The record of an interval that ended in this fc,
with nothing decided since, is the last one (Table 08-7). -/
def State.leaveSummary (l k : Nat) (s : State) : State :=
  let c := s.cu l
  if !c.summary then s
  else if let some i := if c.acc.any || c.heldAcc.isSome then none else s.endedNow l k then
    (s.markLast (s.recOutlet l) i).updCu l fun c => { c with summary := false, acc := {} }
  else
    let a := match c.heldAcc with | some h => h.merge c.acc | none => c.acc
    (s.recOrHold l (s.sumRec l k a true)).updCu l fun c => { c with summary := false, acc := {}, heldAcc := none }

/-- The standby enters and leaves SUMMARY as its journal's SITE_EV records say, at their indices (R441). -/
def State.followModes (l k idx : Nat) (s : State) : State :=
  let m := s.pair.modes.filter fun e => e.2.1 == l && !idxLt idx e.2.2.1
  (m.foldl (fun s e => if e.2.2.2 = 0 then s.leaveSummary l k else s.enterSummary l k e.2.2.2) s).updPair fun p =>
    { p with modes := p.modes.filter fun e => !m.contains e }

/-- A check for entry at an index (R274). A lane without a fail destination does not enter (R267). -/
def State.floodCheck (l k idx : Nat) (s : State) : State :=
  let c := s.cu l
  if s.standby || s.pair.modes.any (·.2.1 == l) then s.followModes l k idx
  else if c.summary || !c.destSet then s
  else
    let th := bit (s.cuFlood l) 25 && s.floodT l ≤ s.floodCount l
    let bf : Bool := 3840 ≤ c.fifo.length
    if th || bf then (s.enterSummary l k (b2n th + 2 * b2n bf)).jrnl 0x0A [k, l, idx, b2n th + 2 * b2n bf] [] else s

/-- The fail destination of a site is set or cleared (R205, R211, R267); both put its lanes in TOKEN (R274). -/
def State.setFailDest (k : Nat) (d : Option (Nat × Nat × Nat)) (s : State) : State :=
  (s.site k).laneList.foldl (fun s l =>
    match d with
    | some (ctx, act, grp) => (s.leaveSummary l k).updCu l fun c =>
        { c with destSet := true, destCtx := ctx, destAct := act, destGrp := grp }
    | none => (s.leaveSummary l k).updCu l fun c => { c with destSet := false }) s

/-- SUMMARY_INTERVAL_END (R275): a summary record is written, or held and merged with the next interval's; an interval in
which nothing was decided joins the next. -/
def execSummaryIntervalEnd (lane : Nat) (s : State) : Out :=
  State.timed (if (s.cu lane).summary then some (s.cu lane).sumAt else none) (fun s =>
    match s.siteOfLane lane with
    | none => s
    | some k =>
      let c := s.cu lane
      let s1 := s.updCu lane fun c => { c with sumAt := c.sumAt + s.sumLen lane }
      let a := match c.heldAcc with | some h => h.merge c.acc | none => c.acc
      if !a.any then s1
      else if c.held.isEmpty && s.cuRecRoom (s.sumRec lane k a false) then
        (((s1.putCuRec (s.sumRec lane k a false)).cuCnt lane 0x11 1).sumNext lane k a).note (.sumEnd lane) 1
      else
        (s1.sumNext lane k a).updCu lane fun c => { c with heldAcc := some a }) s

/-- HELD_RECORD_WRITE (R276): the lane's oldest held record enters its outlet once there is room. -/
def execHeldRecordWrite (lane : Nat) (s : State) : Out :=
  State.plain (fun s =>
    let c := s.cu lane
    match c.held, c.heldAcc, s.siteOfLane lane with
    | r :: rest, _, _ =>
      if s.cuRecRoom r then ((s.putCuRec r).updCu lane fun c => { c with held := rest }).cuCnt lane 0x11 1 else s
    | [], some a, some k =>
      let r := s.sumRec lane k a false
      if s.cuRecRoom r then ((s.putCuRec r).updCu lane fun c => { c with heldAcc := none }).cuCnt lane 0x11 1 else s
    | [], _, _ => s) s

/-! ### Fail tokens (R267 to R270) -/

/-- A fail token of a lane with a value (Table 08-3). -/
def State.failTok (s : State) (l k idx value : Nat) : Tok :=
  let c := s.cu l
  Tok.sealed { ctx := BitVec.ofNat 20 c.destCtx, act := BitVec.ofNat 14 c.destAct, iter := BitVec.ofNat 28 idx, port := 0,
               value := BitVec.ofNat 64 value, flow := BitVec.ofNat 10 (laneFlow k (l - (s.site k).first)),
               grp := BitVec.ofNat 3 c.destGrp, poison := false, kind := 1 }

/-- Tokens produced, or counted in their place, by one decision: nothing while the destination is clear. -/
def State.produce (l k idx : Nat) (values : List Nat) (g : SumAcc → SumAcc) (s : State) : State :=
  let c := s.cu l
  if !c.destSet then s
  else
    let s1 := s.floodAdd l values.length
    if c.summary then s1.updCu l fun c =>
      { c with acc := g { c.acc with any := true, repl := c.acc.repl + values.length } }
    else s1.updCu l fun c => { c with fifo := c.fifo ++ values.map fun v => s.failTok l k idx v }

/-- An index joins a record's range. -/
def SumAcc.cover (a : SumAcc) (i : Nat) : SumAcc :=
  { a with first := match a.first with | some j => some j | none => some i,
           top := match a.top with | some j => some (idxMax j i) | none => some i }

/-- The reflex stop triggers at an armed site that is not halted (R272), or that a HALT has halted in this fc (R23). -/
def State.reflexTrig (k : Nat) (s : State) : State :=
  let x := s.site k
  if x.reflex && (!x.halted || (x.haltCause = hcActor && x.haltedAt = s.time)) then s.updSite k fun x => { x with trig := true } else s

/-- A LATE_CAPTURE of reason 1 behind, 2 repeat, 3 ahead (R262). -/
def State.lateCapture (l k idx reason : Nat) (s : State) : State :=
  (((s.floodCheck l k idx).cuCnt l 0x0D 1).produce l k idx [idx + reason * 2 ^ 48] fun a => { a with late := a.late + 1 })

/-- A corrected or an uncorrectable error of a fret is counted (R264, R536). -/
def State.fretErr (l err idx : Nat) (s : State) : State :=
  if err = 1 then
    ((s.updCu l fun c => { c with cnt := c.cnt.upd 0 0x12 fun v => satAdd 0xFFFF v 1 }).note (.cnt .cu l 0x12) 1).ecc (68 + l)
  else if err = 2 then
    ((s.updCu l fun c => { c with cnt := c.cnt.upd 0 0x22 fun v => satAdd 0xFFFF v 1 }).note (.cnt .cu l 0x22) 1).flagUnit 2
      (l * 128 + idx % 2048 / 16)
  else s

/-- A fret that is not compared (R264). -/
def State.notCompared (l k idx : Nat) (s : State) : State :=
  s.produce l k idx [idx + 4 * 2 ^ 48] fun a => a.cover idx

/-- A MISSING_CAPTURE decision (R261, R272); err is what the fret's check code reports. -/
def State.missing (l k idx err : Nat) (s : State) : State :=
  let s0 := (s.floodCheck l k idx).fretErr l err idx
  if err = 2 then s0.notCompared l k idx
  else
    let s1 := (s0.cuCnt l 0x0E 1).produce l k idx [idx] fun a => { a.cover idx with miss := a.miss + 1 }
    if bit (s.cuWin l) 12 then s1.reflexTrig k else s1

/-! ### Comparing (R260, R263, R270) -/

/-- The sidecar entry of a cycle: its place, at most 15, and whether the address is entry 15's and not the instance's
own. -/
def sideEntry (side : List (Nat × Nat)) (cyc : Nat) : Nat × Bool :=
  let n := (side.takeWhile fun e => e.1 ≤ cyc).length - 1
  (min n 15, decide (15 < n))

/-- The VALUE of a mismatch token (Table 08-4). -/
def mismatchValue (side : List (Nat × Nat)) (e : Nat × Bool) (byte mask : Nat) : Nat :=
  ((side[e.1]?).map (·.2)).getD 0 % 2 ^ 48 + byte * 2 ^ 48 + b2n e.2 * 2 ^ 55 + mask * 2 ^ 56

/-- The tokens' VALUEs of a mismatch plane, in ascending byte order, a split byte in ascending start-cycle order. -/
def mismatchValues (w : Nat) (side : List (Nat × Nat)) (mism : Nat) : List Nat :=
  (List.range 128).flatMap fun b =>
    let m := bits mism (8 * b + 7) (8 * b)
    if m = 0 then []
    else if w = 4 then
      let lo := m % 16
      let hi := m / 16 * 16
      let e0 := sideEntry side (2 * b)
      let e1 := sideEntry side (2 * b + 1)
      if e0.1 = e1.1 then [mismatchValue side (e0.1, if hi = 0 then e0.2 else e1.2) b m]
      else (if lo = 0 then [] else [mismatchValue side e0 b lo]) ++ (if hi = 0 then [] else [mismatchValue side e1 b hi])
    else [mismatchValue side (sideEntry side (8 * b / w)) b m]

/-- Mismatching slot-cycles of each slot. -/
def slotCounts (w mism : Nat) : Tbl Nat :=
  (setBitsOf 1024 mism).foldl (fun t p => Tbl.upd 0 t (p % w) (· + 1)) []

/-- Under what the per-pin counters and the pass count are noted (R278). -/
def pinKey : Nat := 0x100
def passKey : Nat := 0x200

/-- A 48-bit counter's sum (R278). -/
def sat48 (a b : Nat) : Nat := satAdd (2 ^ 48 - 1) a b

/-- The lane's mode at the start of a vector's compare (R273, R274). -/
def State.vectorMode (l k idx : Nat) (s : State) : State :=
  let c := s.cu l
  if c.summary && !s.standby then
    if s.floodCount l < cdiv (s.floodT l) 16 && c.fifo.isEmpty && c.sumEntry + s.sumLen l ≤ s.time && c.held.isEmpty
        && c.heldAcc.isNone then (s.leaveSummary l k).jrnl 0x0A [k, l, idx, 0] []
    else s
  else s.floodCheck l k idx

/-- A vector is compared with its capture (R263, R264, R270, R272). -/
def State.compareVec (l k : Nat) (f : Fret) (capt err : Nat) (s : State) : State :=
  let s0 := (s.vectorMode l k f.idx).fretErr l err f.idx
  if err = 2 then s0.notCompared l k f.idx
  else
    let w := (s.site k).w
    let mism := (capt ^^^ f.exp) &&& f.en
    let cs := slotCounts w mism
    let ok : Bool := f.en != 0 && mism = 0
    let s1 := cs.foldl (fun s p => s.note (.cnt .cu l (pinKey + p.1)) p.2) (when ok (State.note (.cnt .cu l passKey) 1)
      (s0.updCu l fun c =>
        { c with pins := cs.foldl (fun t p => t.upd 0 p.1 fun v => sat48 v p.2) c.pins,
                 pass := if ok then sat48 c.pass 1 else c.pass }))
    let s2 := s1.produce l k f.idx (mismatchValues w f.side mism) fun a =>
      { a.cover f.idx with cmp := a.cmp + 1, slots := cs.foldl (fun t p => t.upd 0 p.1 (· + p.2)) a.slots }
    if mism = 0 then s2 else s2.reflexTrig k

/-- An intact flit has arrived on a lane (R300, R319): its place in the superframe is counted. -/
def State.intact (l : Nat) (s : State) : State :=
  s.updLane l fun x => { x with intactAt := s.time, errRun := 0, trainNext := (x.trainNext + 1) % 1285 }

/-! ### Frets (R246, R257, R261, R265) -/

/-- Whether a halt flit of the site has been sent and its report is still due (R265). -/
def State.reportDue (s : State) (k : Nat) : Bool :=
  (s.site k).haltDue.isSome && (s.site k).laneList.any fun l => (s.lane l).halt.isNone

/-- The fret whose deadline comes first, of those not deferred. -/
def Cu.nextDue (c : Cu) : Option Fret :=
  (c.frets.filter fun f => !f.deferred).foldl (fun b f =>
    match b with | none => some f | some g => if f.at_ < g.at_ then some f else some g) none

/-- The deadline of a fret (R261). It is resolved in the fc after, so that a capture of the deadline's own fc comes first (Table
08-7; log entry 118, DEDUCED). -/
def State.deadline (s : State) (l : Nat) (f : Fret) : Nat := f.at_ + 32 * NS + s.rtMax l

/-- FRET_DEADLINE (R261, R265): the fret is resolved as MISSING_CAPTURE, or deferred while a halt report is due. -/
def execFretDeadline (lane err : Nat) (s : State) : Out :=
  State.timed ((s.cu lane).nextDue.map fun f => s.deadline lane f + 1) (fun s =>
    match (s.cu lane).nextDue, s.siteOfLane lane with
    | some f, some k =>
      if s.reportDue k then s.updCu lane fun c =>
        { c with frets := c.frets.map fun g => if g.idx == f.idx then { g with deferred := true, err := err } else g }
      else
        (s.updCu lane fun c => { c with frets := c.frets.filter fun g => g.idx != f.idx }).missing lane k f.idx err
    | _, _ => s) s

/-- A stored-playback record that the follower needs: from a reader's buffer while it is held there, else read again; none
when a line of it is poisoned (R256, R257, R351). -/
def State.followRec (addr pos : Nat) (v : LaneVec) (s : State) : Option LaneVec × State :=
  let held := s.readers.any fun p => p.2.recs.any (·.1 == pos) && p.2.base + 256 * (pos % max 1 p.2.count) == addr
  if held then (some v, s)
  else
    let s1 := s.ddrRd 3 addr 256
    if s1.poisonedAt addr 256 then (none, s1)
    else
      let bs := s1.ddrBytes addr 256
      let st := leNat (bs.take 128)
      let en := leNat (slice bs 128 128)
      (some { v with stim := st, en := en, exp := st &&& en }, s1)

/-- The staged vector whose fret a lane writes next. -/
def Site.nextFollow (x : Site) (i : Nat) : Option Staged := x.staged.find? fun v => bit v.toFret i && v.toSend == 0

/-- Staged vectors changed; one that is sent and followed on every lane is gone. -/
def Site.mapStaged (x : Site) (f : Staged → Staged) : Site :=
  { x with staged := (x.staged.map f).filter fun v => v.toSend != 0 || v.toFret != 0 }

/-- The standby compares a capture that it held for the fret just written (R447). -/
def State.compareHeld (l k idx : Nat) (s : State) : State :=
  match (Tbl.get [] s.pair.capHeld l).find? fun c => c.1 == idx, (s.cu l).frets.find? fun f => f.idx == idx with
  | some c, some f =>
    ((s.updPair fun p => { p with capHeld := p.capHeld.upd [] l fun h => h.filter fun d => d.1 != idx }).updCu l fun u =>
      { u with frets := u.frets.filter fun g => g.idx != idx }).compareVec l k f c.2.1 c.2.2
  | _, _ => s

/-- When the follower writes a lane's next fret: 32 ns before its vector's application (R246). -/
def State.fretDue (s : State) (lane : Nat) : Option Nat :=
  match s.siteOfLane lane with
  | none => none
  | some k => ((s.site k).nextFollow (lane - (s.site k).first)).map fun v => v.at_ + (s.site k).lead * NS - 32 * NS

/-- The follower writes and arms the fret of a lane's next vector; one whose record it lacks compares nothing and halts the
site (R246, R257). -/
def State.writeFret (lane : Nat) (s : State) : State :=
  match s.siteOfLane lane with
  | none => s
  | some k =>
    let x := s.site k
    let i := lane - x.first
    match x.nextFollow i with
    | none => s
    | some v =>
      let lv := v.vecs.getD i {}
      let (r, s0) := match v.stream[i]? with | none => (some lv, s) | some (a, pos) => s.followRec a pos lv
      let u := r.getD { lv with en := 0 }
      let s1 := (s0.updSite k fun x => x.mapStaged fun w =>
        if w.idx == v.idx then { w with toFret := w.toFret - 2 ^ i } else w).updCu lane fun c =>
        { c with frets := c.frets ++ [{ idx := v.idx, exp := u.exp, en := u.en, side := u.side, at_ := s.time }],
                 high := v.idx }
      match r with
      | some _ => s1.compareHeld lane k v.idx
      | none => ((s1.event cVe lane 0x80FF v.idx).siteCnt k 0x0C 1).haltSite k hcUnderrun 0 0 true

/-- FRET_WRITE (R246, R257). -/
def execFretWrite (lane : Nat) (s : State) : Out := State.timed (s.fretDue lane) (State.writeFret lane) s

/-- A fret that falls due in the fc of a capture is written before it (Table 08-7). -/
def State.fretFirst (lane : Nat) (s : State) : State :=
  match s.fretDue lane with
  | some d => if d ≤ s.time then s.writeFret lane else s
  | none => s

/-- When a lane of a group may send its next fail token: 8 fc after its last, a fc after the port's last (R271). -/
def State.failAt (s : State) (l : Nat) : Nat :=
  max (match (s.cu l).lastOut with | none => 0 | some t => t + 8) (match (s.lg (l / 8)).injAt with | none => 0 | some t => t + 1)

/-- FAIL_TOKEN_INJECT (R271): the next lane in turn whose last token left at least 8 fc ago sends its oldest token, when the
injection port has taken none in this fc and has a credit of the token network. -/
def execFailTokenInject (lg : Nat) (s : State) : Out :=
  let ls := ((List.range 8).map (8 * lg + ·)).filter fun l => !(s.cu l).fifo.isEmpty
  let due : Option Nat := ls.foldl (fun b l => match b with | none => some (s.failAt l) | some d => some (min d (s.failAt l))) none
  State.timed due (fun s =>
    let order := ((List.range 8).map fun i => 8 * lg + ((s.lg lg).rr + i) % 8)
    match order.find? fun l => !(s.cu l).fifo.isEmpty && s.failAt l ≤ s.time with
    | none => s
    | some l =>
      match (s.cu l).fifo with
      | [] => s
      | t :: r =>
        if !s.srcRoom 0 (chanOf t.grp.toNat) (routerOf (.lg lg)) then s
        else
          (((s.updCu l fun c =>
              { c with fifo := r, lastOut := some s.time,
                       failIdx := (c.failIdx.filter fun x => s.time ≤ x.1 + 16 * s.subLen l) ++ [(s.time, t.iter.toNat)] }).updLg lg
            fun x => { x with rr := (l + 1) % 8, injAt := some s.time }).cuCnt l 0x0C 1).sendTok (3000 + lg) (.lg lg) t) s

/-! ### Halt reports and purges (R24, R265, R266, R314) -/

/-- A report's first dropped index resolves a lane's frets: deferred ones below it are missing, those from it onward are
discarded. -/
def State.resolveLane (l k idx : Nat) (s : State) : State :=
  let fs := (s.cu l).frets
  let gone := fs.filter fun f => !idxLt f.idx idx
  let late := fs.filter fun f => idxLt f.idx idx && f.deferred
  let s1 := (s.updCu l fun c => { c with frets := c.frets.filter fun f => idxLt f.idx idx && !f.deferred }).cuCnt l 0x0F
    gone.length
  late.foldl (fun s f => s.missing l k f.idx f.err) s1

/-- The frets of a site after a report; vectors from the index onward are no longer followed. -/
def State.resolveSite (k idx : Nat) (s : State) : State :=
  let s1 := s.updSite k fun x => x.mapStaged fun v => if idxLt v.idx idx then v else { v with toFret := 0 }
  (s.site k).laneList.foldl (fun s l => s.resolveLane l k idx) s1

/-- A break report that repeats the one last taken: the front-end sends each twice more, 1 and 2 µs after the first (R312, R314;
log entry 119, DESIGN CHOICE: a report of the same index within 3 µs is a repeat). -/
def Site.repeats (x : Site) (t idx : Nat) : Bool :=
  match x.brk with | some (t0, i) => i == idx && t ≤ t0 + 3 * US | none => false

/-- A report's effect, with the captures of its fc at or above its index after it: each is a LATE_CAPTURE, repeat (Table
08-7). -/
def State.reportFirst (k idx : Nat) (s : State) : State :=
  let cs := (s.capsOf k).filter fun c => !idxLt c.2.1 idx && !idxLt (s.cu c.1).high c.2.1
  cs.foldl (fun s c => s.lateCapture c.1 k c.2.1 2) ((s.unCapt cs).resolveSite k idx)

/-- HALT_RPT_RECEIVED (R314): the first report of a HALT completes it and lets a waiting REARM take effect; a break report
halts the site with cause "lane error". -/
def execHaltRptReceived (lane seq : Nat) (payload : List Byte) (s : State) : Out :=
  State.plain (fun s =>
    let s1 := (s.intact lane).updLane lane fun y =>
      { y with rpt := match y.rpt with | some r => if r.1 = seq then none else some r | none => none }
    match s.siteOfLane lane with
    | none => s1
    | some k =>
      let x := s.site k
      let idx := fld payload 0 6
      if x.quar then s1
      else if seq = 0 then
        if x.halted || x.repeats s.time idx then s1
        else
          (((s1.lpCnt lane 0x0F 1).laneClass lane 5 1).haltSite k hcLaneError 0 0 false
            |>.reportFirst k idx |>.jrnl 0x0A [k, lane, idx, 5] []).updSite k fun y =>
              { y with brk := some (s.time, idx), rpt := some (s.time, idx) }
      else if x.haltDue == some seq then
        let s2 := (((s1.updSite k fun x => { x with haltDue := none, rpt := some (s.time, idx) }).reportFirst k idx).jrnl 0x0A
          [k, lane, idx, 4] [])
        if x.rearm.isEmpty then s2 else s2.doRearm k
      else s1) s

/-- A capture that arrives in the fc of a halt report, at or above its index, comes after it (Table 08-7). -/
def State.afterReport (s : State) (k v : Nat) : Bool :=
  match (s.site k).rpt with | some (t, idx) => t == s.time && !idxLt v idx | none => false

/-- A SITE_GAP record (Table 08-10), for the root context of the site's job. -/
def State.gapRec (s : State) (k first last cause purged : Nat) : CuRec :=
  let x := s.site k
  let root := match x.job with | some j => (s.job j).root | none => (s.cu x.first).destCtx
  { ty := 0xF2, ctx := root, flow := laneFlow k 0, job := x.job.getD 0xFFFF, outlet := s.recOutlet x.first,
    words := [first + k % 128 * 2 ^ 48 + cause * 2 ^ 55, last + min purged 0xFFFF * 2 ^ 48] }

/-- A SITE_GAP record is written or held; one that is held already widens to cover both (R276). -/
def State.putGap (k : Nat) (r : CuRec) (s : State) : State :=
  let l := (s.site k).first
  match (s.cu l).held.find? fun q => q.ty == 0xF2 && q.flow == r.flow && q.ctx == r.ctx with
  | none => s.recOrHold l r
  | some q =>
    let w0 (r : CuRec) : Nat := r.words.getD 0 0
    let w1 (r : CuRec) : Nat := r.words.getD 1 0
    let m : CuRec := { q with words :=
      [w0 q, w1 r % 2 ^ 48 + min 0xFFFF (w1 q / 2 ^ 48 + w1 r / 2 ^ 48) * 2 ^ 48] }
    s.updCu l fun c => { c with held := c.held.map fun h => if h == q then m else h }

/-- The range of a site's SITE_GAP record and the frets it purges (R266). -/
def State.gapRange (s : State) (k : Nat) : Nat × Nat × Nat :=
  let x := s.site k
  let idxs := x.laneList.flatMap fun l => (s.cu l).frets.map (·.idx)
  (match idxs with | [] => (x.high + 1) % 2 ^ 48 | i :: r => r.foldl (fun m j => if idxLt j m then j else m) i,
   x.high, idxs.length)

/-- A lane of a bound site has left UP (R266): frets purged, summaries closed, a SITE_GAP record over the range and its
event. -/
def State.purgeSite (k first last n : Nat) (s : State) : State :=
  let x := s.site k
  let s1 := x.laneList.foldl (fun s l =>
    ((s.cuCnt l 0x0F (s.cu l).frets.length).updCu l fun c => { c with frets := [] }).leaveSummary l k)
    (s.updSite k fun x => { x with staged := [], trig := false })
  let s2 := if n = 0 || !s.siteTaken k then s1 else s1.putGap k (s.gapRec k first last 1 n)
  s2.event cCu x.first SITE_GAP (k + first * 2 ^ 7 + last * 2 ^ 55)

/-! ### Registers (R277, R278, R292) -/

/-- The per-pin counters and the pass count of a lane after a clear: what this fc has counted is counted after it (R278). -/
def State.pinClear (l : Nat) (s : State) : State :=
  s.updCu l fun c =>
    { c with pins := (s.recountAfter .cu l pinKey (pinKey + 31) (c.pins.map fun p => (pinKey + p.1, p.2))).map fun p =>
                (p.1 - pinKey, p.2),
             pass := s.noted (.cnt .cu l passKey) }

/-- CU_CNT_CLR (R278, R292): ports +0x0C to +0x12, and with bit 0 set the per-pin counters and the pass count. -/
def State.cuClear (l v : Nat) (s : State) : State :=
  when (bit v 0) (State.pinClear l) (s.updCu l fun c =>
    { c with cnt := s.recountAfter .cu l 0x22 0x22 (s.recountAfter .cu l 0x0C 0x12 c.cnt) })

def execCuCntClr (lane : Nat) (v : Word) (s : State) : Out :=
  State.plain (State.regDom (lgDom (lane / 8)) (.cuCntClr lane v) (State.cuClear lane v.toNat)) s

/-- A site's FLOODED mark is cleared; an entry of the same fc sets it again (R277, Table 08-7). -/
def State.markClear (k : Nat) (s : State) : State :=
  if s.noted (.w1c .flood k) = 0 then s.updSite k fun x => { x with flooded := false } else s

/-- CU_FLOOD_CLR (R277): the FLOODED mark of the lane's site is cleared. -/
def State.unflood (l : Nat) (s : State) : State :=
  match s.siteOfLane l with | some k => s.markClear k | none => s

def execCuFloodClr (lane : Nat) (s : State) : Out :=
  State.plain (State.regDom (lgDom (lane / 8)) (.cuFloodClr lane) (State.unflood lane)) s

/-- FLOOD_CLR0–3 (R277, R422, R463): the marks of sites 32·idx to 32·idx + 31; journalled by the active, ignored by the
standby. -/
def State.floodClr (idx v : Nat) (s : State) : State :=
  if s.standby || !s.hostRoom then s
  else (setBitsOf 32 v).foldl (fun s i => s.markClear (32 * idx + i)) (s.jrnl 0x06 [0, 0x3020 + 4 * idx, v] [])

def execFloodClr (idx : Nat) (v : Word) (s : State) : Out :=
  State.plain (State.pf0 (.floodClr idx v) (State.floodClr idx v.toNat)) s

end Sys2Proof.Machine
end

