-- ==== Sys2Proof/Machine/Jobs.lean ====
section
/-! DEFINITION. Jobs and contexts (R197 to R210, R215 to R220): descriptors, submission, admission, context grants, the
context table and its cache, aborts and the completion ring. -/

namespace Sys2Proof.Machine
open Sys2Proof

/-! ### The descriptor (R197 to R199) -/

/-- An initial-token entry's fields (Table 06-2). -/
def initOf (e : List Byte) : Init :=
  { act := bits (fld e 0 2) 13 0, port := bits (fld e 0 2) 15 14, iter := bits (fld e 2 4) 27 0, value := fld e 8 8 }

/-- An entry's reserved bits are zero. -/
def initRes (e : List Byte) : Bool := bits (fld e 2 4) 31 28 == 0 && fld e 6 2 == 0

/-- An initial token names a port that its actor waits for (Table 06-2). -/
def initFits (b : Block) (i : Init) : Bool :=
  match b.words[i.act]? with
  | none => false
  | some w => (waitSet w).contains i.port

/-- The entries of a list of n. -/
def entriesOf (bs : List Byte) (n : Nat) : List (List Byte) := (List.range n).map fun i => slice bs (16 * i) 16

/-- The job that a descriptor describes, with the entries of its external list. -/
def jobOf (d : List Byte) (ext : List (List Byte)) : Job :=
  let n := min 2 (fld d 0x6C 2)
  let cm := fld d 0x1C 4
  { flags := fld d 2 2, cookie := fld d 4 4, block := bits (fld d 8 2) 9 0, grp := bits (fld d 0xA 1) 2 0,
    failGrp := bits (fld d 0xB 1) 2 0, failAct := bits (fld d 0xC 2) 13 0, failEn := bit (fld d 0xC 2) 15,
    cohortFirst := fld d 0x30 2, cohortCount := fld d 0xE 2, weights := nums d 0x10 1 7, runLimit := fld d 0x18 4,
    ctxMax := if cm = 0 then 1048575 else cm, sites := fld d 0x20 16, lostLen := fld d 0x34 4, lostAddr := fld d 0x38 8,
    istrBase := fld d 0x40 8, istrElems := fld d 0x48 8, dataBase := fld d 0x50 8, dataSize := fld d 0x58 8,
    shelfBase := fld d 0x60 4, shelfSize := fld d 0x64 4,
    inits := ((entriesOf (slice d 0x80 32) n) ++ ext).map initOf, desc := d }

/-- The list of further initial tokens: none where it cannot be read. -/
def State.extInits (s : State) (d : List Byte) : Option (List (List Byte)) :=
  let n := fld d 0x68 4
  let a := fld d 0x70 8
  if n = 0 then some []
  else if bit (fld d 2 2) 2 then
    if s.inJobArea a (16 * n) && !s.poisonedAt a (16 * n) then some (entriesOf (s.ddrBytes a (16 * n)) n) else none
  else if s.host.pf0.bme && s.hostReads a (16 * n) then some (entriesOf (s.hostBytes a (16 * n)) n) else none

/-- Reserved fields and bits of Table 06-1 are zero, and the ranges it gives hold. -/
def descFieldsOk (d : List Byte) : Bool :=
  fld d 0 2 == 1 && fld d 2 2 < 8 && fld d 8 2 < 1024 && fld d 0xA 1 < 8 && fld d 0xB 1 < 8 && !bit (fld d 0xC 2) 14
    && fld d 0xE 2 ≤ 256 && fld d 0x17 1 == 0 && fld d 0x32 2 == 0 && fld d 0x38 8 % 4 == 0 && fld d 0x40 8 % 64 == 0
    && fld d 0x50 8 % 64 == 0 && fld d 0x60 4 % 64 == 0 && fld d 0x68 4 ≤ 65536 && fld d 0x6E 2 == 0
    && fld d 0x70 8 % 16 == 0 && fld d 0x78 8 == 0

/-- Admission terms (R105): the smallest usable on-die count of the PEs serving logical PEs, and the limit A. -/
def State.cDie (s : State) : Nat := s.pesIn.foldl (fun m p => min m (s.pe p).usable) 131072
def State.admLimit (s : State) : Nat := 9 * (s.cDie + 9 * s.nOpen / 10) / 10

/-- The list of further initial tokens is read (R199). -/
def State.listRd (d : List Byte) (s : State) : State :=
  s.sourceRd (b2n (bit (fld d 2 2) 2)) (fld d 0x70 8) (16 * fld d 0x68 4)

/-- The W of every system block that runs in context 0 (R106). -/
def State.sysW (s : State) : Nat := s.cm.blocks.foldl (fun n b => n + if b.2.sys then b.2.w else 0) 0

/-- The live sum (R106). -/
def State.liveSum (s : State) : Nat :=
  s.cm.drainW.foldl (fun n x => n + x.1) (s.cm.jobs.foldl (fun n p => n + p.2.w) s.sysW)

/-- A window of DDR5 lies in the job area. -/
def State.windowOk (s : State) (base n : Nat) : Bool := n == 0 || s.inJobArea base n

/-- The checks of Table 06-3 in its order, before queueing: the status of the first that fails. -/
def State.descFault (s : State) (d : List Byte) : Option Nat :=
  let j := jobOf d []
  let beyond := j.sites / 2 ^ s.nLanes != 0
  if beyond then some ABSENT
  else if !s.cabOn then some NOT_ACTIVE
  else if !descFieldsOk d then some BAD_ARG
  else
    match s.blockOk j.block with
    | none => some BAD_ARG
    | some b =>
      match s.extInits d with
      | none => some BAD_ARG
      | some ext =>
        let entries := entriesOf (slice d 0x80 32) (fld d 0x6C 2) ++ ext
        let cohorts := (List.range j.cohortCount).map fun i => Tbl.get 0 s.cohorts (j.cohortFirst + i)
        let bad :=
          (setBitsOf 128 j.sites).any (fun k => !(s.site k).bound)
            || 1024 < j.cohortFirst + j.cohortCount || cohorts.any (fun m => m &&& j.sites != m)
            || (j.failEn && !initFits b { act := j.failAct, port := 0 })
            || 2 < fld d 0x6C 2 || entries.any (fun e => !initRes e || !initFits b (initOf e))
            || !s.windowOk j.istrBase (16 * j.istrElems) || !s.windowOk j.dataBase j.dataSize
            || (j.shelfSize != 0 && 0x400000 < j.shelfBase + j.shelfSize)
            || 1048575 < j.ctxMax
            || (bit j.flags 0 && (b.w == 2 ^ 64 - 1 || s.admLimit - s.sysW < b.w))
        if bad then some BAD_ARG else none

/-- In pair mode a cookie that a queued or live job carries is refused (R453). -/
def State.cookieUsed (s : State) (c : Nat) : Bool :=
  s.pair.en && (s.cm.queue.any (·.cookie == c) || s.cm.jobs.any fun p => p.2.cookie == c && !p.2.ended)

/-- Where a job enters the queue (R203): at its end, a doorbell's ahead of the jobs that JOB_SUBMIT queued in its fc. -/
def queueAt (db : Option Nat) (j : Job) (q : List Job) : List Job :=
  match db with
  | none => q ++ [j]
  | some t => q.takeWhile (fun x => x.sub != t + 1) ++ j :: q.dropWhile fun x => x.sub != t + 1

/-- The job that a checked descriptor queues, its lists read once (R199); `db` is the fc in which its doorbell arrived. -/
def State.queueJob (d : List Byte) (db : Option Nat) (s : State) : State :=
  let j := { jobOf d ((s.extInits d).getD []) with sub := if db.isNone then s.time + 1 else 0 }
  (s.updCm fun c => { c with queue := queueAt db j c.queue }).updPwr fun p => { p with idleAt := none }

/-! ### Submission (R200 to R203) -/

/-- JOB_SUBMIT (R200). -/
def execJobSubmit (mb : Nat) (s : State) : Out :=
  State.plain (State.serveMb mb 0x30 1 0 160 [(0, 160)] okArgs noAbsent false fun a s0 =>
    let d := a.take 160
    let s := s0.listRd d
    if s.cookieUsed (fld d 4 4) then s.finish mb DENIED [0]
    else
      match s.descFault d with
      | some c => s.finish mb c [0]
      | none =>
        if s.jqDepth ≤ s.cm.queue.length then s.finish mb QUEUE_FULL [0]
        else (s.queueJob d none).finish mb ACCEPTED [1]) s

/-- A completion that falls due, held for its epoch at the active (R443). -/
def State.due (c : Completion) (s : State) : State :=
  let h := if s.pair.unprotJobs.contains c.job then none else s.holdEpoch
  s.updCm fun m => { m with waiting := m.waiting ++ [{ c with heldEpoch := h }] }

/-- A write of JQ_DB_HI (R201, R202): the doorbell is fetched, refused, or held. A held one withholds every later posted
write (`State.pf0`). A package in pair mode that is not ACTIVE holds no job of the
host's, and ignores a doorbell (R433, R463). -/
def State.doorbell (hi : Nat) (s : State) : State :=
  if 2 ≤ s.pair.state || !s.hostRoom || s.cm.db.held.isSome then s
  else
    let s1 := s.jrnl 0x06 [0, 0x2004, hi] []
    let a := s.cm.db.lo + hi * 2 ^ 32
    if s.cm.queue.length < s.jqDepth then
      s1.updCm fun c => { c with db := { c.db with fetching := c.db.fetching ++ [(a, false, s.time)] } }
    else if s.qfullRefuse then
      ((s1.updCm fun c => { c with refusedCnt := sat32 c.refusedCnt 1, refused := true,
                                   db := { c.db with fetching := c.db.fetching ++ [(a, true, s.time)] } }).note (.w1c .jq 31) 1).alert 6
    else s1.updCm fun c => { c with db := { c.db with held := some a } }

/-- DOORBELL_SUBMIT (R201). -/
def execDoorbellSubmit (hi : Word) (s : State) : Out :=
  State.plain (State.pf0 (.doorbellSubmit hi) (State.regDom 6 (.doorbellSubmit hi) (State.doorbell hi.toNat))) s

/-- A held doorbell goes on once an entry of the queue is free (R202). -/
def State.doorbellGo (s : State) : State :=
  match s.cm.db.held with
  | some a =>
    if s.cm.queue.length < s.jqDepth then
      s.updCm fun c => { c with db := { c.db with held := none, fetching := c.db.fetching ++ [(a, false, s.time)] } }
    else s
  | none => s

/-- The descriptor at a doorbell's address (R201): host memory, or DDR5 in the job area. -/
def State.descAt (s : State) (a : Nat) (readError : Bool) : Option (List Byte) :=
  let p := a / 32 * 32
  if readError then none
  else if bit a 0 then (if s.inJobArea p 160 && !s.poisonedAt p 160 then some (s.ddrBytes p 160) else none)
  else if s.host.pf0.bme && s.hostReads p 160 then some (s.hostBytes p 160) else none

/-- DESCRIPTOR_FETCH_DONE (R201, R202): the oldest doorbell's descriptor is queued, refused or rejected. The cookie of one
that could not be read is an open value. -/
def execDescriptorFetchDone (readError : Bool) (s : State) : Out :=
  State.plain (fun s =>
    match s.cm.db.fetching with
    | [] => s
    | (a, refused, at_) :: r =>
      let s0 := s.sourceRd (b2n (bit a 0)) (a / 32 * 32) 160
      let s1 := s0.updCm fun c => { c with db := { c.db with fetching := r } }
      match s0.descAt a readError with
      | none =>
        let (v, s2) := s1.fresh
        s2.due { status := if refused then QUEUE_FULL else BAD_ARG, end_ := if refused then 4 else 5,
                 cookie := v % 2 ^ 32, quiet := true }
      | some d =>
        let q := bit (fld d 2 2) 1
        let ck := fld d 4 4
        if refused then s1.due { status := QUEUE_FULL, end_ := 4, cookie := ck, quiet := q }
        else if s.cookieUsed ck then s1.due { status := DENIED, end_ := 5, cookie := ck, quiet := q }
        else
          let s2 := s1.listRd d
          match s2.descFault d with
          | some c => s2.due { status := c, end_ := 5, cookie := ck, quiet := q }
          | none => if s.jqDepth ≤ s.cm.queue.length then s else s2.queueJob d (some at_)) s

/-! ### The context table (R208, R209) -/

/-- A context-table entry's bytes (Table 06-4). -/
def Ctx.bytes (x : Ctx) : List Byte :=
  leBytes 8 x.link ++ leBytes 2 (x.block % 1024 + x.state * 2 ^ 10 + b2n x.linkValid * 2 ^ 12) ++ leBytes 2 (x.job % 4096)
    ++ zeros 4 ++ leBytes 8 x.granted ++ zeros 8

def State.ctxBase (s : State) : Nat := s.ioReg 0xDA00 0 + s.ioReg 0xDA01 0 * 2 ^ 32

/-- Whether the on-die cache holds a context. -/
def State.ctxHit (s : State) (n : Nat) : Bool :=
  match Tbl.find s.cm.cache (n % 65536) with
  | some (m, _) => m == n
  | none => false

/-- An access to a context's entry: on a miss the line is written back if dirty and replaced (R209). -/
def State.ctxTouch (n : Nat) (dirty : Bool) (s : State) : State :=
  let line := n % 65536
  if s.ctxHit n then
    s.updCm fun c => { c with cache := c.cache.upd (n, false) line fun x => (n, x.2 || dirty) }
  else
    let s1 := match Tbl.find s.cm.cache line with
      | some (m, true) => s.ddrWr 1 (s.ctxBase + 32 * m) (s.ctx m).bytes
      | _ => s
    (s1.ddrRd 1 (s.ctxBase + 32 * n) 32).updCm fun c => { c with cache := c.cache.put line (n, dirty), missCnt := sat32 c.missCnt 1 }

/-- The free list's first number. -/
def State.freeCtx (s : State) : Option Nat := if s.cm.freeNext < 2 ^ 20 then some s.cm.freeNext else s.cm.freed.head?

/-- A number leaves the free list; the standby may be told to take another than the first. -/
def State.takeCtx (n : Nat) (s : State) : State :=
  s.updCm fun c =>
    if n < c.freeNext then { c with freed := c.freed.erase n }
    else { c with freeNext := n + 1, freed := c.freed ++ (List.range (n - c.freeNext)).map (· + c.freeNext) }

/-- A context is granted to a job with a block and a link (R158, R205). -/
def State.newCtx (n job b : Nat) (link : Option Nat) (s : State) : State :=
  ((s.takeCtx n).ctxTouch n true).updCm fun c =>
    { c with ctxs := c.ctxs.put n { link := link.getD 0, linkValid := link.isSome, block := b, state := 1, job := job,
                                    granted := s.time } }

/-- Live contexts of a job. -/
def State.liveOf (s : State) (j : Nat) : Nat := (s.jobCtxs j).length

/-- The stage lets a job's group take a context (R98, R99); at the standby the stage gates nothing (R441). -/
def State.stageOk (s : State) (sys : Bool) (grp : Nat) : Bool :=
  s.standby || s.cab.devStage = 0 || (s.cab.devStage = 1 && (sys || grp ≤ 2))

/-- Whether a grant request can be granted now (R98, R99, R207, R208). -/
def State.grantable (s : State) (g : Grant) : Bool :=
  if g.job = sysJob then s.stageOk true 0
  else
    let j := s.job g.job
    !j.ended && s.stageOk false j.grp && s.liveOf g.job < j.ctxMax

/-- The match key of the firing in a context-request slot, as the journal names it. -/
def State.askKey (s : State) (pe slot : Nat) : Nat :=
  match (s.pe pe).inSlot (.ctx slot) with | some v => v.f.tag | none => 0

/-- A reply to a PE's context-request slot. -/
def State.cmReply (pe slot value fault : Nat) (s : State) : State :=
  s.send 2 0 2000 .cm (.pe pe) (.reply slot value fault)

/-- A granted request's effects (R158): the entry, the entry token, the reply with the base tag. -/
def State.grant (g : Grant) (n : Nat) (s : State) : State :=
  let s1 := (s.updCm fun c => { c with grantQ := c.grantQ.erase g }).newCtx n g.job g.b g.link
  let t := Tok.sealed { g.tok with ctx := BitVec.ofNat 20 n }
  let s2 := (s1.sendTok 1000 .cm t).cmReply g.pe g.slot (n * 2 ^ 44) 0
  if g.job = sysJob then s2 else s2.jrnl 0x01 [g.job, n, (s.logOf g.pe).getD 0, s.askKey g.pe g.slot] []

/-- CONTEXT_GRANT (R208): the first request that can be granted; the standby grants what the next GRANT record names. -/
def execContextGrant (s : State) : Out :=
  State.plain (fun s =>
    let sysG := s.cm.grantQ.find? fun g => g.job == sysJob && s.grantable g
    if s.standby || !s.pair.grants.isEmpty then
      match sysG, s.pair.grants with
      | some g, _ => match s.freeCtx with | some n => s.grant g n | none => s
      | none, (j, n, k, key) :: r =>
        match s.cm.grantQ.find? fun g => g.job == j && s.logOf g.pe == some k && s.askKey g.pe g.slot == key with
        | some g => (s.grant g n).updPair fun p => { p with grants := r }
        | none => s
      | none, [] => s
    else
      match s.freeCtx, s.cm.grantQ.find? s.grantable with
      | some n, some g => if s.jrnlRoom then s.grant g n else s
      | _, _ => s) s

/-! ### What PEs ask of the context manager (R158 to R160, R210) -/

/-- A SEND whose entry is at hand (R159). -/
def State.doSend (pe slot : Nat) (t : Tok) (job : Nat) (s : State) : State :=
  let n := t.ctx.toNat
  if (if n = 0 then job != sysJob else s.ctxLive n && (s.ctx n).job != job) then s.cmReply pe slot 0 0x2C
  else
    let s1 := s.cmReply pe slot 0 0
    if n != 0 && (s.ctx n).state = 0 then s1 else s1.sendTok 1000 .cm t

/-- A RETURN whose entry is at hand (R160): to the link, then the context is freed where the modifier says so. -/
def State.doReturn (pe slot ctx : Nat) (t : Tok) (free : Bool) (s : State) : State :=
  let x := s.ctx ctx
  if !x.linkValid then s.cmReply pe slot 0 0x29
  else
    let l := Tok.ofParts x.link t.value.toNat t.attr
    let s1 := (s.cmReply pe slot 0 0).sendTok 1000 .cm l.sealed
    when free (State.askKill { job := x.job, whole := false, ctxs := [ctx] }) s1

/-- A token from the injection port whose context's entry is at hand: one whose context is free is discarded (R210). -/
def State.doInject (t : Tok) (s : State) : State :=
  if t.ctx != 0 && (s.ctx t.ctx.toNat).state = 0 then s else s.sendTok 1000 .cm t

/-- A token from the injection port is checked at the context manager (R54), and against the context table, with a miss as any
access (R209, R210). -/
def State.cmToken (t : Tok) (s : State) : State :=
  if !t.crcOk then s.crcFail cCm 0 t
  else if t.ctx = 0 || s.ctxHit t.ctx.toNat then s.doInject t
  else s.updCm fun c => { c with missQ := c.missQ ++ [(1000, 0, t.ctx.toNat, .inject t)] }

/-- A request arrives (R158 to R160). One of a context that is no longer live is only answered. -/
def State.cmAsk (pe slot ctx : Nat) (k : CtxAsk) (s : State) : State :=
  if !s.ctxLive ctx then s.cmReply pe slot 0 0
  else
    match k with
    | .newctx b link tok =>
      let j := if ctx = 0 then sysJob else (s.ctx ctx).job
      s.updCm fun c => { c with grantQ := c.grantQ ++
        [{ job := j, pe := pe, slot := slot, ctx := ctx, b := b, link := link, tok := tok }] }
    | .send t _ =>
      if t.ctx = 0 || s.ctxHit t.ctx.toNat then s.doSend pe slot t (if ctx = 0 then sysJob else (s.ctx ctx).job)
      else s.updCm fun c => { c with missQ := c.missQ ++ [(pe, slot, ctx, k)] }
    | .ret t free =>
      if s.ctxHit ctx then s.doReturn pe slot ctx t free
      else s.updCm fun c => { c with missQ := c.missQ ++ [(pe, slot, ctx, k)] }
    | .free => (s.cmReply pe slot 0 0).askKill { job := (s.ctx ctx).job, whole := false, ctxs := [ctx] }
    | .inject t => s.cmToken t

/-- CONTEXT_TABLE_MISS_FILL (R209): the oldest operation that missed has its line filled, and goes on. -/
def execContextTableMissFill (s : State) : Out :=
  State.plain (fun s =>
    match s.cm.missQ with
    | [] => s
    | (pe, slot, ctx, k) :: r =>
      let s1 := s.updCm fun c => { c with missQ := r }
      match k with
      | .send t _ => (s1.ctxTouch t.ctx.toNat false).doSend pe slot t (if ctx = 0 then sysJob else (s.ctx ctx).job)
      | .ret t free => (s1.ctxTouch ctx false).doReturn pe slot ctx t free
      | .inject t => (s1.ctxTouch ctx false).doInject t
      | _ => s1) s

/-! ### Admission (R204 to R206) -/

/-- The lowest job number that is free. -/
def State.freeJob (s : State) : Option Nat := (List.range 4096).find? fun j => (Tbl.find s.cm.jobs j).isNone

/-- JQ_CR_CFG and its enable. -/
def State.crCfg (s : State) : Nat := s.reg .bar0 0x2018 10
def State.crOn (s : State) : Bool := bit s.crCfg 8
def State.crSize (s : State) : Nat := 2 ^ bits s.crCfg 4 0
def State.crBase (s : State) : Nat := s.reg .bar0 0x2010 0 + s.reg .bar0 0x2014 0 * 2 ^ 32

/-- The context that the root takes: the free list's first, or what the standby's next GRANT record names. -/
def State.rootCtx (s : State) (n : Nat) : Option Nat :=
  match s.pair.grants with
  | (j, c, 0, 0) :: _ => if j = n then some c else none
  | _ :: _ => none
  | [] => if s.standby then none else s.freeCtx

/-- The head job's W: its root block's. -/
def State.jobW (s : State) (j : Job) : Nat := match Tbl.find s.cm.blocks j.block with | some b => b.w | none => 0

/-- The conditions of R204, with those of R112, R219 and R445; a job that JOB_SUBMIT queued in the fc of a doorbell comes
after that one (R203). -/
def State.canAdmit (s : State) (j : Job) : Bool :=
  s.cabOn && s.crOn && s.cm.db.fetching.all (fun x => x.2.1 || x.2.2 + 1 != j.sub) && s.cm.jobs.length < 4096 && (setBitsOf 128 j.sites).all (fun k => !s.siteTaken k)
    && (s.standby || !bit j.flags 0 || s.liveSum + s.jobW j ≤ s.admLimit) && s.stageOk false j.grp && s.jrnlRoom

/-- The steps of R205. -/
def State.admitJob (j : Job) (q : List Job) (n root : Nat) (s : State) : State :=
  let j' := { j with root := root, w := s.jobW j, order := s.cm.order + 1, start := s.time }
  let sites := setBitsOf 128 j.sites
  let s1 := s.updCm fun c => { c with queue := q, jobs := c.jobs.put n j', order := c.order + 1 }
  let s2 := sites.foldl (fun s k =>
    (s.joinSite n k).setFailDest k (if j.failEn then some (root, j.failAct, j.failGrp) else none)) s1
  let s3 := (s2.newCtx root n j.block none).jrnl 0x01 [n, root, 0, 0] []
  let s4 := j.inits.foldl (fun s i =>
    s.sendTok 1000 .cm (Tok.sealed { ctx := BitVec.ofNat 20 root, act := BitVec.ofNat 14 i.act, iter := BitVec.ofNat 28 i.iter,
                                     port := BitVec.ofNat 2 i.port, value := BitVec.ofNat 64 i.value,
                                     grp := BitVec.ofNat 3 j.grp })) s3
  s4.updPair fun p => { p with grants := p.grants.drop 1 }

/-- JOB_ADMISSION (R204, R205). -/
def execJobAdmission (s : State) : Out :=
  State.plain (fun s =>
    match s.cm.queue, s.freeJob with
    | j :: q, some n =>
      match (if s.canAdmit j then s.rootCtx n else none) with
      | some root => s.admitJob j q n root
      | none => s
    | _, _ => s) s

/-! ### Ends (R215 to R217) -/

/-- RUN_LIMIT_EXPIRY (R215): checked once per µs; the standby follows the journal. -/
def execRunLimitExpiry (job : Nat) (s : State) : Out :=
  State.timed (match Tbl.find s.cm.jobs job with
    | some j => if j.runLimit = 0 || j.ended || s.standby || !s.jrnlRoom then none
                else some (cdiv (j.start + j.runLimit * US) US * US)
    | none => none)
    (fun s => (s.askKill { job := job, end_ := 2 }).jrnl 0x08 [2, job, 0, 0] []) s

/-- A job's normal end is decided, and no other kill of it comes before (R216). -/
def State.endDecided (s : State) (j : Nat) : Bool :=
  match s.cm.killQ.find? fun r => r.whole && r.job == j with
  | some r => r.end_ == 0
  | none => false

/-- An abort of a live job (R216): the status it answers. -/
def State.abortJob (j : Nat) (s : State) : Nat × State :=
  match Tbl.find s.cm.jobs j with
  | none => (NOT_ACTIVE, s)
  | some x =>
    if x.ended then (if x.normal then NOT_ACTIVE else OK, s)
    else if s.endDecided j then (NOT_ACTIVE, s)
    else (OK, s.askKill { job := j, end_ := 1 })

/-- JOB_ABORT_BY_JOB. -/
def execJobAbortByJob (mb : Nat) (s : State) : Out :=
  State.plain (State.serveMb mb 0x31 2 0 8 [(0, 1), (2, 2), (4, 4)] okArgs noAbsent false fun a s =>
    let (c, s1) := s.abortJob (fld a 2 2)
    s1.fin mb c) s

/-- JOB_ABORT_BY_COOKIE: queued jobs in queue order, then live jobs in admission order. -/
def execJobAbortByCookie (mb : Nat) (s : State) : Out :=
  State.plain (State.serveMb mb 0x31 2 1 8 [(0, 1), (2, 2), (4, 4)] okArgs noAbsent false fun a s =>
    let ck := fld a 4 4
    let qs := s.cm.queue.filter (·.cookie == ck)
    let s1 := qs.foldl (fun s j => s.due { end_ := 1, cookie := j.cookie, quiet := bit j.flags 1 })
      (s.updCm fun c => { c with queue := c.queue.filter (·.cookie != ck) }).noteIdle
    let live := ((s.cm.jobs.filter fun p => p.2.cookie == ck).mergeSort fun x y => x.2.order ≤ y.2.order).map (·.1)
    let (ok, s2) := live.foldl (fun (x : Bool × State) j => let (c, s) := x.2.abortJob j; (x.1 || c == OK, s))
      (!qs.isEmpty, s1)
    s2.fin mb (if ok then OK else NOT_ACTIVE)) s

/-! ### The completion ring (R218, R219) -/

/-- The completion record's bytes (Table 06-6). -/
def Completion.bytes (c : Completion) (now : Nat) (phase : Bool) : List Byte :=
  leBytes 2 c.status ++ leBytes 1 c.end_ ++ leBytes 1 c.cause ++ leBytes 2 c.job
    ++ leBytes 1 (b2n c.unver + b2n (c.lostLen < c.lost.length) * 2 + b2n phase * 128) ++ zeros 1 ++ leBytes 4 c.cookie
    ++ leBytes 4 c.lost.length ++ leBytes 8 now ++ leBytes 4 (c.lost.headD 0) ++ zeros 4

/-- The outlets have reported that a job's records are all written or rewound (R287). -/
def State.outletsReport (s : State) (j : Nat) : Bool :=
  [0, 1].all fun o => (s.outlet o).open_.all (·.job != j) && (s.outlet o).done.all (·.job != j)

/-- The lost list goes to memory before the record. -/
def State.writeLost (c : Completion) (s : State) : State :=
  let bs := (c.lost.take c.lostLen).flatMap (leBytes 4)
  if c.lostAddr = 0 || bs.isEmpty then s
  else if c.ddrList then (if s.inJobArea c.lostAddr bs.length then s.ddrWr 6 c.lostAddr bs else s)
  else if s.standby || !s.host.pf0.bme then s else s.hostPut c.lostAddr bs

/-- A job's number and sites are free; its W counts until its last context is free (R106, R206). -/
def State.endJob (j : Nat) (s : State) : State :=
  let x := s.job j
  let held := s.cm.drainW.flatMap (·.2)
  let ctxs := (s.cm.ctxs.filter fun p => p.2.job == j && p.2.state != 1 && p.1 != 0 && !held.contains p.1).map (·.1)
  let s1 := (setBitsOf 128 x.sites).foldl (fun s k =>
    if (s.site k).job = some j then (s.setFailDest k none).updSite k fun y => { y with job := none } else s) s
  let s2 := (s1.updCm fun c =>
    { c with jobs := c.jobs.del j, drainW := if ctxs.isEmpty then c.drainW else c.drainW ++ [(x.w, ctxs)] }).updPair fun p =>
      { p with unprotJobs := p.unprotJobs.filter (· != j) }
  if s2.anyJob then s2 else s2.updPwr fun p => { p with idleAt := some s.time }

/-- COMPLETION_POST (R218): the first completion whose outlets have reported and whose epoch is acknowledged is written,
when the ring has room. The standby writes nothing to host memory (R446). -/
def execCompletionPost (s : State) : Out :=
  State.plain (fun s =>
    match s.cm.waiting.find? fun c => s.epochFree c.heldEpoch && (c.job == 0xFFFF || (s.outletsReport c.job
        && !(c.cause == 0x41 && s.cus.any fun x => x.2.held.any fun r => r.job == c.job && r.ty == 0xF2))) with
    | none => s
    | some c =>
      let size := s.crSize
      if !s.crOn || (s.cm.tail + 1) % size = s.cm.head || (!s.standby && !s.host.pf0.bme) then s
      else
        let s1 := s.writeLost c
        let s2 := if s.standby then s1 else s1.hostPut (s.crBase + 32 * s.cm.tail) (c.bytes s.time s.cm.phase)
        let t := (s.cm.tail + 1) % size
        let s3 := s2.updCm fun m => { m with waiting := m.waiting.erase c, tail := t, phase := if t = 0 then !m.phase else m.phase }
        let s4 := if c.job = 0xFFFF then s3 else s3.endJob c.job
        if c.quiet || s.standby then s4 else s4.msix0 16) s

/-- A write of JQ_CR_HEAD (R219): ignored beyond the tail; journalled by the active, ignored by the standby (R463). -/
def State.crHeadWrite (v : Nat) (s : State) : State :=
  let size := s.crSize
  let h := v % 2 ^ 16
  if s.standby || !s.hostRoom then s
  else
    let s1 := s.jrnl 0x06 [0, 0x201C, v] []
    if h < size && (h + size - s.cm.head) % size ≤ (s.cm.tail + size - s.cm.head) % size then
      s1.updCm fun c => { c with head := h }
    else s1

/-- JQ_CR_HEAD_WRITE (R219). -/
def execJqCrHeadWrite (v : Word) (s : State) : Out :=
  State.plain (State.pf0 (.jqCrHeadWrite v) (State.regDom 6 (.jqCrHeadWrite v) (State.crHeadWrite v.toNat))) s

/-- A write of JQ_CR_CFG (R13, R219): size_log2 holds while enabled; setting enable starts the ring again. -/
def State.crCfgWrite (v : Nat) (s : State) : State :=
  let old := s.crCfg
  let sz := if bit old 8 || bits v 4 0 < 6 || 16 < bits v 4 0 then bits old 4 0 else bits v 4 0
  let s1 := s.setReg .bar0 0x2018 (sz + b2n (bit v 8) * 2 ^ 8)
  if bit v 8 && !bit old 8 then s1.updCm fun c => { c with head := 0, tail := 0, phase := true } else s1

/-- COMPLETION_RING_ENABLE (R219). -/
def execCompletionRingEnable (v : Word) (s : State) : Out :=
  State.plain (State.pf0 (.completionRingEnable v) (State.regDom 6 (.completionRingEnable v) (State.crCfgWrite v.toNat))) s

end Sys2Proof.Machine
end

