-- ==== Sys2Proof/Machine/Kill.lean ====
section
/-! DEFINITION. Kills and drain fences (R132, R211 to R214): the start of a kill, its notices, the sweeps of the PEs, the
acknowledgements, the fence waves and the return of context numbers. -/

namespace Sys2Proof.Machine
open Sys2Proof

/-! ### The start of a kill (R211 steps 1 to 4) -/

/-- A context's table entry changes state, through the context-table cache (R209). -/
def State.ctxState (n st : Nat) (dead : Bool) (s : State) : State :=
  (s.ctxTouch n true).updCm fun c => { c with ctxs := c.ctxs.upd {} n fun x => { x with state := st, dead := dead } }

/-- The endpoints that acknowledge a kill notice: the PEs that serve present logical PEs, and the lane groups. -/
def State.killEnds (s : State) : List KillEnd := s.pesIn.map KillEnd.pe ++ (List.range s.nLg).map KillEnd.lg

/-- The grant queue without the requests that a test picks. -/
def State.withdraw (test : Grant → Bool) (s : State) : State :=
  s.updCm fun c => { c with grantQ := c.grantQ.filter fun g => !test g }

/-- The fail destinations of a job's sites are cleared. -/
def State.clearFails (j : Nat) (s : State) : State :=
  (setBitsOf 128 (s.job j).sites).foldl (fun s k => if (s.site k).job = some j then s.setFailDest k none else s) s

/-- Contexts become dying: table, outlets' open records, notices. -/
def State.startDying (id : Nat) (ctxs : List Nat) (s : State) : State :=
  ctxs.foldl (fun s n =>
    (((s.ctxState n 2 false).updOutlet 0 fun o => o.endCtx n).updOutlet 1 fun o => o.endCtx n).notice (.kill id n)) s

/-- A kill is recorded with the acknowledgements that it awaits. -/
def State.addKill (k : Kill) (s : State) : State :=
  let aw := s.killEnds.flatMap fun e => k.ctxs.map fun n => (e, n)
  s.updCm fun c => { c with kills := c.kills ++ [{ k with id := c.killId, await := aw }], killId := c.killId + 1 }

/-- The completion that a job kill leads to (Table 06-6). -/
def Job.completion (j : Job) (n : Nat) (r : KillReq) (ctxs : List Nat) : Completion :=
  { status := if r.end_ = 2 then TIMEOUT else if r.end_ = 3 then CONTEXT_LOST else OK, end_ := r.end_, cause := r.cause,
    job := n, unver := r.unver, cookie := j.cookie,
    lost := if r.end_ = 3 then r.fault ++ ctxs.filter (fun c => !r.fault.contains c) else [],
    lostAddr := j.lostAddr, lostLen := j.lostLen, ddrList := bit j.flags 2, quiet := bit j.flags 1 }

/-- The kill of a whole job (R211). The first cause stands; a loss after an abort is counted in the abort's completion
(R216). A capacity abort's notice starts the Exhausted sweeps again (R101). -/
def State.killJob (r : KillReq) (s : State) : State :=
  match Tbl.find s.cm.jobs r.job with
  | none => s
  | some j =>
    if j.ended then
      s.updCm fun c => { c with kills := c.kills.map fun k =>
        if k.whole && k.job = r.job && k.comp.end_ = 1 && r.end_ = 3 then
          { k with comp := { k.comp with lost := k.comp.lost ++ r.fault.filter fun x => !k.comp.lost.contains x } }
        else k }
    else
      let ctxs := s.jobCtxs r.job
      let s1 := s.updCm fun c => { c with jobs := c.jobs.put r.job { j with ended := true, normal := r.end_ == 0 } }
      let s2 := (s1.withdraw fun g => g.job == r.job).clearFails r.job
      let s3 := if r.end_ = 0 then s2 else
        (setBitsOf 128 j.sites).foldl (fun s k =>
          if s.siteOpen k r.job && !(s.site k).halted then s.haltSite k hcJobEnd 0 0 true else s) s2
      let s4 := when (r.cause = 0x40) (State.updCab fun c => { c with exhDone := [], exBucket := 0 }) s3
      (s4.startDying s.cm.killId ctxs).addKill
        { job := r.job, whole := true, normal := r.end_ == 0, ctxs := ctxs, comp := j.completion r.job r ctxs }

/-- A job whose last live context is gone ends normally (R215, R216). -/
def State.endIfDone (n : Nat) (s : State) : State :=
  match Tbl.find s.cm.jobs n with
  | none => s
  | some j =>
    if j.ended || !(s.jobCtxs n).isEmpty || s.cm.grantQ.any (·.job == n) then s else s.askKill { job := n, end_ := 0 }

/-- The kill of single contexts. One that is dying already is left alone. -/
def State.killCtxs (r : KillReq) (s : State) : State :=
  let ctxs := r.ctxs.filter fun n => n != 0 && s.ctxLive n
  if ctxs.isEmpty then s
  else
    let s1 := s.withdraw fun g => ctxs.contains g.ctx
    let s2 := if ctxs.contains (s.job r.job).root && (Tbl.find s.cm.jobs r.job).isSome then s1.clearFails r.job else s1
    (((s2.startDying s.cm.killId ctxs).addKill { job := r.job, ctxs := ctxs }).endIfDone r.job)

/-! ### The end of a kill (R211 step 5) -/

/-- The kill's contexts are dead and drain; a job kill's completion falls due. -/
def State.endKill (k : Kill) (s : State) : State :=
  let s1 := k.ctxs.foldl (fun s n => s.ctxState n 3 true) (s.updCm fun c => { c with kills := c.kills.filter (·.id != k.id) })
  if k.whole then (s1.pegForce fun p => p.owner == 6 && p.ownerId == k.job).due k.comp else s1

/-- Kills that await nothing end, single contexts before whole jobs. -/
def State.endKills (s : State) : State :=
  let go (whole : Bool) (s : State) : State := s.cm.kills.foldl (fun s k =>
    if k.whole == whole && k.await.isEmpty && (!whole || (s.cm.kills.filter (·.job == k.job)).length = 1) then s.endKill k
    else s) s
  go true (go false s)

/-- CONTEXT_KILL (R211, R216): the oldest kill that is asked for starts. -/
def execContextKill (s : State) : Out :=
  State.plain (fun s =>
    match s.cm.killQ with
    | [] => s
    | r :: q =>
      let s1 := s.updCm fun c => { c with killQ := q }
      (if r.whole then s1.killJob r else s1.killCtxs r).endKills) s

/-- An endpoint acknowledges (R211). -/
def State.ack (e : KillEnd) (id ctx : Nat) (s : State) : State := s.updCm fun c => { c with acks := c.acks ++ [(e, id, ctx)] }

/-- KILL_ACK (R211): the oldest acknowledgement on its way. -/
def execKillAck (s : State) : Out :=
  State.plain (fun s =>
    match s.cm.acks with
    | [] => s
    | (e, id, ctx) :: r =>
      (s.updCm fun c => { c with acks := r, kills := c.kills.map fun k =>
        if k.id = id then { k with await := k.await.erase (e, ctx) } else k }).endKills) s

/-! ### Notices (R211 step 3, R340) -/

/-- The power domain of an endpoint; the I-structure units have none that matters here. -/
def endDom : KillEnd → Option Nat
  | .pe n => some (quadDom n)
  | .lg n => some (lgDom n)
  | .istr => none

/-- A notice for a sleeping domain waits at its boundary router (R340): a kill notice asks for a wake, and so does a 17th. -/
def State.holdNotice (d : Nat) (x : Notice) (s : State) : State :=
  if s.net.heldNotices.contains (d, x) then s
  else
    let full : Bool := 16 ≤ (s.net.heldNotices.filter (·.1 == d)).length
    let kill : Bool := match x with | .kill .. => true | _ => false
    let s1 := s.updNet fun n => { n with heldNotices := n.heldNotices ++ [(d, x)] }
    if kill || full then s1.updDom d fun y => { y with wake := true } else s1

/-- A kill notice reaches an endpoint's router: it is dropped for a failed PE or a spare not yet in service, delivered, held
for a sleeping domain, or, the domain being off, acknowledged by the power controller (R212, R340, R345). -/
def State.deliverNotice (id ctx : Nat) (e : KillEnd) (s : State) : State :=
  let put (s : State) : State := s.updNet fun n => { n with killIn := n.killIn ++ [(e, id, ctx)] }
  match endDom e with
  | none => put s
  | some d =>
    let failed : Bool := match e with | .pe n => (s.pe n).failed || s.pat.awaiting.any (fun x => x.2.2 == n) | _ => false
    if failed then s
    else if s.domOn d then put (s.abandon d)
    else if (s.dom d).state = 0 then s.ack e id ctx
    else s.holdNotice d (.kill id ctx)

/-- The domains whose endpoints take a mark: PE quads and lane groups in service, and the steward cluster. -/
def State.markDoms (s : State) : List Nat := 1 :: ((s.killEnds.filterMap endDom).eraseDups)

/-- A mark or an invalidation reaches a domain (R340, R345); an invalidation is then at every steward core. A mark of another
domain's sleep keeps none awake (log entry 114, DESIGN CHOICE). -/
def State.deliverMark (x : Notice) (d : Nat) (s : State) : State :=
  if s.domOn d then
    match x with
    | .inval l => (s.abandon d).updNet fun n => { n with invIn := n.invIn ++ (List.range 4).map fun st => (st, l) }
    | _ => s
  else if (s.dom d).state = 0 then s
  else s.holdNotice d x

/-- NOTICE_BROADCAST (R340): the oldest notice. -/
def execNoticeBroadcast (s : State) : Out :=
  State.plain (fun s =>
    match s.net.notices with
    | [] => s
    | x :: r =>
      let s1 := s.updNet fun n => { n with notices := r }
      match x with
      | .kill id ctx => (s.killEnds ++ [KillEnd.istr]).foldl (fun s e => s.deliverNotice id ctx e) s1
      | .inval _ => s1.deliverMark x 1
      | _ => s.markDoms.foldl (fun s d => s.deliverMark x d) s1) s

/-- The notices held for a domain that is up again. -/
def State.releaseNotices (d : Nat) (s : State) : State :=
  let mine := s.net.heldNotices.filter (·.1 == d)
  mine.foldl (fun s x =>
    match x.2 with
    | .kill id ctx => (s.killEnds.filter fun e => endDom e == some d).foldl (fun s e => s.deliverNotice id ctx e) s
    | y => s.deliverMark y d)
    (s.updNet fun n => { n with heldNotices := n.heldNotices.filter (·.1 != d) })

/-- A lane token whose context is dying asks for no notice any more; one that fails its CRC stays as it is. -/
def quietTok (t : Tok) : Tok := if t.crcOk then Tok.sealed { t with port := 3 } else t

/-- A lane group marks what it holds of a context (R211 step 3). -/
def LaneGroup.markKilled (x : LaneGroup) (ctx : Nat) : LaneGroup :=
  { x with ops := x.ops.map (fun o => if o.tok.ctx.toNat = ctx then { o with killed := true } else o),
           inbox := x.inbox.map fun p =>
             match p.body with
             | .lane t j k m => if t.ctx.toNat = ctx then { p with body := .lane (quietTok t) j k m } else p
             | _ => p }

/-- KILL_NOTICE (R211): the oldest notice at an endpoint. -/
def execKillNotice (ep : KillEnd) (s : State) : Out :=
  State.plain (fun s =>
    match s.net.killIn.find? fun x => x.1 == ep with
    | none => s
    | some (e, id, ctx) =>
      let s1 := s.updNet fun n => { n with killIn := n.killIn.erase (e, id, ctx) }
      match e with
      | .pe n => s1.updPe n fun p => { p with dying := if p.dying.contains ctx then p.dying else p.dying ++ [ctx],
                                              sweeps := p.sweeps ++ [{ id := id, ctx := ctx }] }
      | .lg n => (s1.updLg n fun x => x.markKilled ctx).ack (.lg n) id ctx
      | .istr => s1.istrKill ctx) s

/-! ### The sweep of a PE (R132, R211, Table 03-7) -/

/-- Whether a packet's content asks for, or is, what a slot of a PE waits for. -/
def Body.about (pe : Nat) (dst : Ep) (k : Slot) : Body → Bool
  | .mem r => k == .rsp r.slot && r.pe == pe
  | .tally r => k == .rsp r.slot && r.pe == pe
  | .ctx p n _ _ => k == .ctx n && p == pe
  | .out p n _ _ _ => k == .writer n && p == pe
  | .rsp n _ _ _ => k == .rsp n && dst == .pe pe
  | .reply n _ _ => k == .ctx n && dst == .pe pe
  | .answer _ n _ _ => k == .writer n && dst == .pe pe
  | _ => false

/-- Whether the I-structure controllers hold an ILOAD deferred for a slot of a PE. -/
def State.deferred (s : State) (pe : Nat) (k : Slot) : Bool :=
  s.istr.any fun l => l.2.any fun r => k == .rsp r.slot && r.pe == pe

/-- Whether the answer that a slot of a PE waits for is still to come, a deferred ILOAD's apart. -/
def State.slotOut (s : State) (pe : Nat) (k : Slot) : Bool :=
  let mem (l : List MemReq) : Bool := l.any fun r => k == .rsp r.slot && r.pe == pe
  (s.net.transit ++ s.net.holdBuf).any (fun p => p.body.about pe p.dst k)
    || (s.pe pe).rsp.any (fun b => b.about pe (.pe pe) k)
    || s.ddrs.any (fun d => (d.2.q ++ d.2.atomics ++ d.2.istr ++ d.2.invWait.map (·.2)).any fun r => k == .rsp r.slot && r.pe == pe)
    || mem s.shelfAtomics
    || s.shelfQ.any (fun x => x.st.isNone && k == .rsp x.req.slot && x.req.pe == pe)
    || s.tally.any (fun t => t.2.q.any fun r => k == .rsp r.slot && r.pe == pe)
    || s.outlets.any (fun o => o.2.ports.any fun q => q.2.any fun p => p.body.about pe p.dst k)
    || s.cm.missQ.any (fun m => k == .ctx m.2.1 && m.1 == pe)

/-- The firings in service of a context complete (R132), each with its trace record (R137): one whose answer is still to come
keeps its slot until then. -/
def State.sweepSvc (pe ctx : Nat) (s : State) : State :=
  let l := (s.pe pe).svc.filterMap fun v =>
    if v.f.ctx != ctx then some v
    else match v.slot with
      | .trap _ => none
      | k => if s.slotOut pe k || s.deferred pe k then some { v with dead := true } else none
  let ends := (s.pe pe).svc.filter fun v => v.f.ctx == ctx && !v.dead
  ends.foldl (fun s v => s.traceDone pe v) (s.updPe pe fun p => { p with svc := l })

/-- The sweep of a PE (Table 03-7): the drawers are read (R76) and the context's entries go; a firing that has not reached
issue, on die or in the ready overflow, will be dropped there (R103). -/
def State.sweepPe (pe ctx : Nat) (s : State) : State :=
  let die (f : Firing) : Firing := if f.ctx = ctx then { f with dead := true } else f
  ((s.readAll pe).updPe pe fun p =>
    { p with ents := p.ents.filter (fun e => e.2.tok.ctx.toNat != ctx), ready := p.ready.map die, fk := p.fk.map die,
             ovf := p.ovf.map fun x => (x.1, die x.2) }).restagePe pe

/-- The sweep whose acknowledgement can go: done, and no response awaited. -/
def State.sweepDone (s : State) (pe : Nat) : Option Sweep :=
  (s.pe pe).sweeps.find? fun w => w.swept && (s.pe pe).svc.all fun v =>
    v.f.ctx != w.ctx || (match v.slot with | .rsp _ => !s.slotOut pe v.slot | _ => true)

/-- The acknowledgement of a finished sweep. -/
def State.sweepAck (pe : Nat) (s : State) : State :=
  match s.sweepDone pe with
  | none => s
  | some w => ((s.updPe pe fun p => { p with sweeps := p.sweeps.erase w }).sweepSvc pe w.ctx).ack (.pe pe) w.id w.ctx

/-- KILL_SWEEP_END (R132, R211, R212): the PE's first unfinished sweep ends; the PE acknowledges a finished one once the
responses it awaits have come. -/
def execKillSweepEnd (pe : Nat) (s : State) : Out :=
  State.inDom (quadDom pe) (fun s =>
    if !s.domOn (quadDom pe) then s else
    match (s.pe pe).sweeps.find? fun w => !w.swept with
    | none => s.sweepAck pe
    | some w =>
      let s1 := s.updPe pe fun p => { p with sweeps := p.sweeps.map fun x => if x == w then { x with swept := true } else x }
      ((s1.sweepPe pe w.ctx).sweepSvc pe w.ctx).sweepAck pe) s

/-! ### Drain fences (R214) -/

/-- Dead contexts that no fence batch has covered. -/
def State.unfenced (s : State) : List Nat :=
  (s.cm.ctxs.filter fun p => p.2.dead && !s.cm.fenced.contains p.1).map (·.1)

/-- FENCE_BATCH_START (R214). -/
def execFenceBatchStart (s : State) : Out :=
  State.plain (fun s =>
    let l := s.unfenced
    if s.cm.fence.isSome || l.isEmpty then s
    else
      let n := (s.pesIn.length + 3) * 2
      let f : Fence := { ctxs := l, wave1 := s.killEnds.map (fun e => (e, n)),
                         wave2 := s.pesIn.map (fun p => (KillEnd.pe p, s.nLanes * 2)) }
      s.updCm fun c => { c with fence := some f }) s

/-- Fences that an endpoint still awaits. -/
def awaits (l : List (KillEnd × Nat)) (e : KillEnd) : Nat := match l.find? (·.1 == e) with | some x => x.2 | none => 0

/-- One fence is counted. -/
def countFence (l : List (KillEnd × Nat)) (e : KillEnd) : List (KillEnd × Nat) :=
  l.map fun x => if x.1 == e then (x.1, x.2 - 1) else x

/-- A token of the batch's contexts is still on its way to an endpoint, through the context manager too, or about to be sent; a
fence of the second wave also follows the tokens of the compare units. -/
def State.fenceBlocked (s : State) (f : Fence) (e : KillEnd) (second : Bool) : Bool :=
  let ours (t : Tok) : Bool := f.ctxs.contains t.ctx.toNat
  let asks (k : CtxAsk) : Bool := match k with | .send t _ => ours t | .inject t => ours t | _ => false
  let bound (p : Pkt) : Bool :=
    match p.body, e with
    | .tok t, .pe n => (p.dst == .pe n || p.dst == .cm) && ours t
    | .ctx _ _ _ k, .pe _ => asks k
    | .lane t _ _ _, .lg n => p.dst == .lg n && ours t
    | _, _ => false
  (s.net.transit ++ s.net.holdBuf).any bound
    || (match e with
        | .lg n => s.net.cohortQ.any fun p => match p.body with
          | .lane t _ _ (some i) => bits (Tbl.get 0 s.cohorts i) (8 * n + 7) (8 * n) != 0 && ours t
          | _ => false
        | _ => s.cm.missQ.any fun m => asks m.2.2.2)
    || s.pes.any (fun p => p.2.fire.any (fun x => f.ctxs.contains x.2.ctx) || p.2.outL.any fun q => q.2.any ours)
    || (match e with
        | .pe n =>
          let p := s.pe n
          (p.inU ++ p.inG ++ p.trapIn ++ (p.qU ++ p.qG).map (·.2) ++ p.half.map (fun h => h.2.2.2)
            ++ p.park.flatMap (fun k => k.open_.map (·.2) ++ (k.ret.getD []).map (·.tok))).any ours
        | _ => false)
    || (second && s.cus.any fun c => c.2.fifo.any ours)

/-- A PE that has received every fence clears the dying marks; when all have, the batch ends. -/
def State.fenceSettle (f : Fence) (s : State) : State :=
  let done (e : KillEnd) : Bool := awaits f.wave1 e == 0 && awaits f.wave2 e == 0
  let s1 := s.pesIn.foldl (fun s p => if done (.pe p) then
    s.updPe p fun x => { x with dying := x.dying.filter fun c => !f.ctxs.contains c } else s) s
  if s.pesIn.all fun p => done (.pe p) then
    s1.updCm fun c => { c with fence := none, fenced := c.fenced ++ f.ctxs,
                               istrDying := c.istrDying.filter fun n => !f.ctxs.contains n }
  else s1.updCm fun c => { c with fence := some f }

/-- A fence token as its creator sends it, its CRC computed (R53). R214 gives it no other content: a free value (log entry 112,
DESIGN CHOICE). -/
def State.fenceTok (s : State) : Tok := Tok.sealed (Tok.ofParts (Config.freeNat s.freeCnt) 0 0)

/-- A fence counted at its endpoint: of the first wave, or of the second once lane groups have finished the first. -/
def State.fenceCount (ep : KillEnd) (f : Fence) (s : State) : State :=
  if 0 < awaits f.wave1 ep then
    if s.fenceBlocked f ep false then s
    else
      let f1 := { f with wave1 := countFence f.wave1 ep }
      let s1 := match ep with
        | .lg n => when (awaits f1.wave1 ep == 0)
            (fun s => f.ctxs.foldl (fun s c => s.updLg n fun x => x.markKilled c) s) s
        | _ => s
      s1.fenceSettle f1
  else
    let ready := ((List.range s.nLg).filter fun g => awaits f.wave1 (.lg g) == 0).length
    let left := awaits f.wave2 ep
    if left = 0 || ready * 16 ≤ s.nLanes * 2 - left || s.fenceBlocked f ep true then s
    else s.fenceSettle { f with wave2 := countFence f.wave2 ep }

/-- FENCE_TOKEN (R214): a fence of the batch under way arrives; its receiver checks its CRC (R54) and counts it. -/
def execFenceToken (ep : KillEnd) (s : State) : Out :=
  State.plain (fun s =>
    match (if s.fenceTok.crcOk then s.cm.fence else none) with
    | none => s
    | some f => s.fenceCount ep f) s

/-- An encrypted block that a tamper alarm found in use is unloaded when its last context ends (R518). -/
def State.purgeBlocks (s : State) : State :=
  let gone := s.sec.purge.filter fun n => !(s.cm.ctxs.any fun p => s.ctxLive p.1 && p.2.block == n)
  (s.updCm fun c => { c with blocks := c.blocks.filter fun b => !gone.contains b.1 }).updSec fun x =>
    { x with purge := x.purge.filter fun n => !gone.contains n }

/-- CONTEXT_FREED (R96, R214): a drained context's number returns to the free list. -/
def execContextFreed (ctx : Nat) (s : State) : Out :=
  State.plain (fun s =>
    if s.cm.fenced.contains ctx && Tbl.get 0 s.cab.ctxCnt ctx = 0 && s.noOpenRec ctx then
      ((s.ctxState ctx 0 false).updCm fun c =>
        { c with ctxs := c.ctxs.del ctx, freed := c.freed ++ [ctx], fenced := c.fenced.filter (· != ctx),
                 drainW := (c.drainW.map fun x => (x.1, x.2.filter (· != ctx))).filter (fun x => !x.2.isEmpty) }).purgeBlocks
    else s) s

end Sys2Proof.Machine
end

