-- ==== Sys2Proof/Machine/Lanes.lean ====
section
/-! DEFINITION. Lane ports and the lane protocol (R297 to R333): flits sent and received, credits, control messages, training,
loss and quarantine, rejoin and retirement, standby. -/

namespace Sys2Proof.Machine
open Sys2Proof

/-! ### Settings and counters (R330 to R333) -/

def State.lpCfg (s : State) (l : Nat) : Nat := s.ioReg (lpBase l) 0

/-- Whether a lane is in link (states of Table 09-9). -/
def Lane.linked (x : Lane) : Bool := x.state == 1 || x.state == 4 || x.state == 5
def Lane.inService (x : Lane) : Bool := x.state == 4 || x.state == 5

/-- LP_CFG.test as it took effect at the last training (R332). -/
def Lane.testing (x : Lane) : Bool := bits x.cfgNow 5 4 != 0

/-- The role code of Table 09-5 byte 9. -/
def State.role (s : State) : Nat := if s.pair.state = 4 then 3 else s.pair.state

/-- A lane's alert (R320, R332). -/
def State.laneAlarm (l : Nat) (s : State) : State :=
  ((s.updHost fun h => { h with laneAlert := h.laneAlert ||| 2 ^ l }).note (.w1c .lane l) 1).alert 1

/-! ### Control messages (R305, R309) -/

/-- A control payload: type, sequence number, body length, body. -/
def ctrlData (ty seq : Nat) (body : List Byte) : List Byte :=
  padTo 128 ([BitVec.ofNat 8 ty, BitVec.ofNat 8 seq, BitVec.ofNat 8 body.length, 0] ++ body)

/-- A message is queued on a lane with the lane's next sequence number. -/
def State.queueCtrl (l ty by_ : Nat) (body : List Byte) (s : State) : State :=
  s.updLane l fun x =>
    { x with txSeq := (x.txSeq + 1) % 256,
             ctrlQ := x.ctrlQ ++ [{ seq := x.txSeq, data := ctrlData ty x.txSeq body, by_ := by_ }] }

/-- A message completes to its sender: firmware's send port, or the mailbox of a LANE_SEND. -/
def State.ctrlDone (l status : Nat) (m : CtrlMsg) (s : State) : State :=
  if m.by_ = 0 then s
  else if m.by_ = 1 then s.updLg (l / 8) fun g => { g with busy := false, lastSeq := m.seq, lastStat := status }
  else s.finish (m.by_ - 2) status (if status = OK then [BitVec.ofNat 8 m.seq] else [])

/-- The messages of a lane complete with a status as they are purged. -/
def State.purgeCtrl (l status : Nat) (s : State) : State :=
  let x := s.lane l
  (x.unacked ++ x.ctrlQ).foldl (fun s m => s.ctrlDone l status m) (s.updLane l fun x => { x with unacked := [], ctrlQ := [] })

/-- Acknowledgement up to a sequence number: the messages before it complete. -/
def State.ackCtrl (l ack : Nat) (s : State) : State :=
  let x := s.lane l
  match x.unacked with
  | [] => s
  | m :: _ =>
    let n := (ack + 256 - m.seq) % 256
    if x.unacked.length < n then s
    else (x.unacked.take n).foldl (fun s m => s.ctrlDone l OK m) (s.updLane l fun x => { x with unacked := x.unacked.drop n })

/-- The SITE_SET body of a site (Table 09-7). -/
def Site.setBody (x : Site) (k : Nat) : List Byte :=
  leBytes 1 k ++ leBytes 1 x.first ++ leBytes 1 x.lanes ++ leBytes 1 x.wcode ++ leBytes 2 x.cycU ++ leBytes 4 x.lead

/-! ### Training (R315, R316) -/

/-- MEAS credit left to a lane as training starts: 8, less what the group's FIFO still holds of it (R306). -/
def State.measGrant (s : State) (l : Nat) : Nat := 8 - ((s.lg (l / 8)).meas.filter fun e => e.1 == l).length

/-- A lane starts to train: phase EQ with the settings of LP_CFG; sequence numbers, credits and error counts start again
(R306, R309, R331, R332). -/
def State.startTraining (l : Nat) (s : State) : State :=
  s.updLane l fun x =>
    { x with state := 3, phase := 0, phaseAt := s.time, forced := false, cfgNow := s.lpCfg l, stimLimit := 0, stimSent := 0,
             measLimit := s.measGrant l, measSeen := 0, txSeq := 0, rxSeq := 0, unacked := [], ctrlQ := [], halt := none,
             mark := none, creditDue := false, helloAt := none, trainOk := 0, errRun := 0, errTimes := [], rxBad := 0,
             helloSent := false, helloAck := false, helloIn := none, farDone := false, flagged := false,
             feErr := 0, stimWait := none, rpt := none, sleepSent := false }

/-- A lane leaves link with no signal or as TRAIN only: its link state is reset (R320). -/
def State.linkDown (l state : Nat) (forced : Bool) (s : State) : State :=
  (s.startTraining l).updLane l fun x => { x with state := state, forced := forced }

/-! ### Leaving UP, loss and quarantine (R253, R266, R318 to R320) -/

/-- STIM flits staged for a lane and not sent. -/
def State.stimStaged (s : State) (l : Nat) : Nat :=
  match s.siteOfLane l with
  | none => 0
  | some k => ((s.site k).staged.filter fun v => bit v.toSend (l - (s.site k).first)).length

/-- The site of a lane that leaves UP stops, and its frets are purged (R253, R266). -/
def State.siteDown (k : Nat) (s : State) : State :=
  let s1 := s.siteStop k
  let (a, b, n) := s1.gapRange k
  s1.purgeSite k a b n

/-- The other lanes of a quarantined site that are UP send one HALT and enter IDLE_HELD (R320); their purged stimulus is
latched too. One in STANDBY wakes to IDLE_HELD (Table 09-9). -/
def State.holdOthers (k lost : Nat) (s s0 : State) : State :=
  let q := if (s.site k).haltSeq + 1 < 2 ^ 24 then (s.site k).haltSeq + 1 else 1
  ((s.site k).laneList.filter fun l => l != lost).foldl (fun s l =>
    if (s.lane l).state = 1 then s.updLane l fun x => { x with prevState := 4, mark := none }
    else if (s.lane l).state != 5 then s
    else (s.stallEnd l).updLane l fun x =>
      { x with state := 4, halt := some q, mark := none, purgeStim := min 0xFFFF (s0.stimStaged l), purgeCtrl := 0 })
    (s.updSite k fun x => { x with haltSeq := q })

/-- A bound site is quarantined as a lane of it is lost (R320 step 3). The active journals it with its gap range, which the
standby is given (R448). Captures of the same fc come after the loss, and are discarded (Table 08-7). -/
def State.quarantine (k lost : Nat) (range : Option (Nat × Nat)) (s0 : State) : State :=
  let s := s0.unCapt (s0.capsOf k)
  let s1 := s.siteStop k
  let (a, b, n) := match range with | some r => (r.1, r.2, (s1.gapRange k).2.2) | none => s1.gapRange k
  let s2 := (s1.purgeSite k a b n).updSite k fun x => { x with quar := true }
  ((s2.holdOthers k lost s).alert 3).jrnl 0x09 [1, k, (s.site k).first, (s.site k).lanes, a, b] []

/-- The lane's next state by cause (R320 step 1): its link state is reset there. -/
def State.moveLost (l dest : Nat) (s : State) : State :=
  if dest = 3 then s.startTraining l else s.linkDown l dest false

/-- A SITE_REJOIN of this fc comes after the loss of a lane of its site (Table 09-14): the site stays quarantined, and the
rejoin has completed with BUSY. -/
def State.unRejoin (k : Nat) (s : State) : State :=
  match (s.site k).rejoined with
  | some (t, m) =>
    if t != s.time || (s.site k).quar then s
    else
      let s1 := ((s.updSite k fun x => { x with quar := true, next := (x.high + 1) % 2 ^ 48 }).amend cLane k 0x8015 fun _ => none)
      (s.site k).laneList.foldl (fun s l => s.updLane l fun y =>
        { y with state := if y.state = 5 then 4 else y.state, mark := none }) (s1.updMb m fun b => { b with status := BUSY })
  | none => s

/-- A loss of another cause meets an LP_CMD retrain of the same fc (Table 09-14): its cause is latched, and training has
started once. -/
def State.relatch (l cause dest : Nat) (s : State) : State :=
  let s1 := (s.updLane l fun x => { x with cause := cause, retrainAt := none }).amend cLane l 0x8016 fun a =>
    some (a / 256 * 256 + cause)
  if dest = 3 then s1 else s1.linkDown l dest false

/-- Loss of a lane (R319, R320), in a state that the cause can meet. A bound lane lost at the standby detaches it (R448). -/
def State.loseLane (l cause dest : Nat) (s0 : State) : State :=
  let s := match s0.siteOfLane l with | some k => if (s0.lane l).linked then s0.unRejoin k else s0 | none => s0
  let x := s.lane l
  if !x.linked then (if x.retrainAt = some s.time && cause != 8 then s.relatch l cause dest else s)
  else
    let site := s.siteOfLane l
    let quarNow := match site with | some k => !(s.site k).quar | none => false
    let stim := s.stimStaged l
    let ctrl := x.unacked.length + x.ctrlQ.length
    let spent := x.unacked.filter fun m => cause == 9 && 4 ≤ m.sends
    let s1 := spent.foldl (fun s m => s.ctrlDone l TIMEOUT m) ((s.askWake 4).updLane l fun x =>
      { x with unacked := x.unacked.filter fun m => !spent.contains m })
    let s2 := (s1.purgeCtrl l NOT_ACTIVE).stallEnd l
    let s3 := s2.updLane l fun x => { x with cause := cause, purgeStim := min 0xFFFF stim, purgeCtrl := min 0xFF ctrl }
    let s4 := ((s3.lpCnt l 0x0D 1).laneClass l 0 1).event cLane l 0x8016
      (cause + min 0xFFFF stim * 2 ^ 8 + min 0xFF ctrl * 2 ^ 24 + b2n quarNow * 2 ^ 32)
    let s5 := match site with
      | some k => if quarNow then s4.quarantine k l none else s4
      | none => s4
    let s6 := (s5.moveLost l dest).laneAlarm l
    if quarNow then s6.standbyFault 4 else s6

/-- A lane that leaves UP by standby or power-off is not lost (R318); its site stops all the same (R253). -/
def State.leaveUp (l : Nat) (s : State) : State :=
  match s.siteOfLane l with
  | some k => if (s.lane l).state = 5 then s.siteDown k else s
  | none => s

/-- What power and LP_CFG.enable give a lane (Table 09-9): OFF, or training on power-on. -/
def State.lanePower (l : Nat) (s : State) : State :=
  let on := s.domOn (lgDom (l / 8)) && bit (s.lpCfg l) 0 && !(s.lane l).heldOff
  if on then (if (s.lane l).state = 0 then s.startTraining l else s)
  else if (s.lane l).state = 0 then s
  else (((s.leaveUp l).purgeCtrl l NOT_ACTIVE).stallEnd l).linkDown l 0 false

/-- A lane enters STANDBY from UP or IDLE_HELD (R318), after LANE_SLEEP. -/
def State.laneSleep (l : Nat) (s : State) : State :=
  let x := s.lane l
  if !x.inService then s
  else ((s.leaveUp l).stallEnd l).updLane l fun y => { y with prevState := x.state, state := 1, halt := none }

/-- A lane in STANDBY returns to the state it held before (Table 09-9). -/
def State.laneWake (l : Nat) (s : State) : State :=
  let x := s.lane l
  if x.state != 1 then s
  else s.updLane l fun y => { y with state := y.prevState }

/-! ### Transmission (R303 to R310) -/

/-- The link-status payload (Table 09-5). -/
def State.linkStatus (s : State) (l : Nat) : List Byte :=
  let x := s.lane l
  padTo 128 (zeros 4 ++ leBytes 4 x.measLimit ++ leBytes 1 x.rxSeq ++ leBytes 1 s.role ++ zeros 2 ++ leBytes 4 s.pair.term
    ++ leBytes 4 x.rxBad)

/-- A flit leaves the lane. -/
def State.sendFlit (l : Nat) (f : Flit) (s : State) : State := s.updLane l fun x => { x with tx := f }

/-- A flit's header word and its 132 bytes (R303), and its CRC-32 (R301). -/
def Flit.header (f : Flit) : Nat := f.ty % 16 + f.field % 2 ^ 24 * 2 ^ 4 + f.flags % 16 * 2 ^ 28
def Flit.bytes (f : Flit) : List Byte := leBytes 4 f.header ++ padTo 128 f.payload
def Flit.crc (f : Flit) : Nat := crc32 f.bytes

/-- Bits of a flit, and message bits of a codeword (R299, R300). -/
def flitBits : Nat := 1056
def cwBits : Nat := 5140

/-- The parity field of a codeword in bypass mode (R301): the CRCs of the flits that end in it, in flit order. -/
def crcField (crcs : List Nat) : Nat := crcs.foldr (fun c p => c + 2 ^ 32 * p) 0

/-- The flit sent at a position of the superframe enters the codewords (R299 to R301): byte 0 and bit 0 first. A codeword that
it fills is sent with its parity field. -/
def Lane.encode (n : Nat) (x : Lane) : Lane :=
  let off := flitBits * n % cwBits
  let msg := x.txMsg + leNat x.tx.bytes * 2 ^ off
  let ends : Bool := off + flitBits ≤ cwBits
  let crcs := if ends then x.txCrcs ++ [x.tx.crc] else x.txCrcs
  if off + flitBits < cwBits then { x with txMsg := msg, txCrcs := crcs }
  else
    { x with txMsg := msg / 2 ^ cwBits, txCrcs := if ends then [] else [x.tx.crc],
             txCw := (msg % 2 ^ cwBits, if bit x.cfgNow 1 then crcField crcs else Config.rs544 (msg % 2 ^ cwBits)) }

/-- An IDLE or CREDIT flit carries the link status. -/
def State.sendStatus (l ty : Nat) (s : State) : State :=
  (s.sendFlit l { ty := ty, payload := s.linkStatus l }).updLane l fun x =>
    { x with creditDue := false, statusAt := s.time, lastStatus := s.linkStatus l }

/-- The device's HELLO body (Table 09-11). -/
def State.helloBody (s : State) (l : Nat) : List Byte :=
  leBytes 8 s.otp.serial ++ leBytes 1 l ++ zeros 3 ++ [8] ++ leBytes 1 (bits (s.lane l).cfgNow 1 1) ++ leBytes 1 s.role
    ++ [0] ++ leBytes 4 s.pair.term

/-- Whether STIM flit number stimSent may be sent (R306). -/
def Lane.stimCredit (x : Lane) : Bool :=
  let d := (x.stimLimit + 2 ^ 32 - x.stimSent % 2 ^ 32) % 2 ^ 32
  1 ≤ d && d ≤ 2 ^ 31

/-- The staged vector that a lane sends next. -/
def Site.nextSend (x : Site) (i : Nat) : Option Staged := x.staged.find? fun v => bit v.toSend i

/-- The index of the next STIM of a lane of a site. -/
def State.nextStim (s : State) (l k : Nat) : Nat :=
  match (s.site k).nextSend (l - (s.site k).first) with
  | some v => v.idx
  | none => (s.site k).next

/-- A STIM flit leaves: the vector's last lane ends the bursts that end in it (R174); a vector that waited for credit departs
now. -/
def State.sendStim (l k : Nat) (v : Staged) (s0 : State) : State :=
  let s := if v.late && v.toSend = maskOf (List.range (s0.site k).lanes) then s0.updSite k fun x => x.depart v.idx s0.time else s0
  let x := s.site k
  let i := l - x.first
  let left := v.toSend - 2 ^ i
  let s1 := ((s.stallEnd l).sendFlit l { ty := 1, field := v.idx % 2 ^ 24,
                                          payload := leBytes 128 ((v.vecs.getD i {}).stim) }).updLane l fun y =>
    { y with stimSent := (y.stimSent + 1) % 2 ^ 32 }
  let s2 := s1.updSite k fun x =>
    { x.mapStaged (fun w => if w.idx == v.idx then { w with toSend := left } else w) with high := idxMax x.high v.idx }
  if left = 0 then s2.endBursts k v.ends else s2

/-- What a lane in service sends in a slot below rank 3 (Table 09-8). -/
def State.sendLow (l : Nat) (s : State) : State :=
  let x := s.lane l
  if x.creditDue || x.lastStatus != s.linkStatus l then s.sendStatus l 6
  else
    match x.unacked.find? (·.again) with
    | some m =>
      ((s.sendFlit l { ty := 4, payload := m.data }).lpCnt l 0x11 1).updLane l fun x =>
        { x with unacked := x.unacked.map fun n =>
          if n.seq == m.seq then { n with again := false, sends := n.sends + 1, at_ := s.time } else n }
    | none =>
      match x.ctrlQ with
      | m :: r =>
        if x.unacked.length < x.feWindow then
          (s.sendFlit l { ty := 4, payload := m.data }).updLane l fun x =>
            { x with ctrlQ := r, unacked := x.unacked ++ [{ m with sends := 1, at_ := s.time }] }
        else s.sendStatus l 0
      | [] => s.sendStatus l 0

/-- Whether every lane of a site that has still to send a vector has the credit for it: a given index goes in the same send slot
on every lane (R222). -/
def State.siteCredit (s : State) (k : Nat) (v : Staged) : Bool :=
  (s.site k).laneList.all fun l => !bit v.toSend (l - (s.site k).first) || (s.lane l).stimCredit

/-- A vector is held at its send slot for credit: a lane without any waits for it (R331). -/
def State.stimHold (l k : Nat) (v : Staged) (s : State) : State :=
  (s.updLane l fun x => if x.stimCredit || x.stimWait.isSome then x
    else { x with stimWait := some s.time, stallFrom := s.time }).updSite k fun x =>
    { x with staged := x.staged.map fun w => if w.idx == v.idx then { w with late := true } else w }

/-- What an UP lane of a site sends at rank 3: MARK, then STIM at its send slot; otherwise the lower ranks. -/
def State.sendSite (l k : Nat) (s : State) : State :=
  let x := s.lane l
  match x.mark with
  | some r => (s.sendFlit l { ty := 8, payload := padTo 128 (leBytes 6 (s.nextStim l k) ++ leBytes 1 r) }).updLane l fun x =>
      { x with mark := none }
  | none =>
    match (s.site k).nextSend (l - (s.site k).first) with
    | none => s.sendLow l
    | some v =>
      if s.time < v.at_ then s.sendLow l
      else if s.siteCredit k v then s.sendStim l k v
      else (s.stimHold l k v).sendLow l

/-- One flit slot of a lane in service. -/
def State.sendService (l : Nat) (s : State) : State :=
  let x := s.lane l
  match x.halt with
  | some q =>
    let s1 := (s.sendFlit l { ty := 3, field := q, payload := zeros 128 }).updLane l fun x =>
      { x with halt := none, rpt := some (q, s.time) }
    match s.siteOfLane l with
    | some k => s1.haltSent k
    | none => s1
  | none =>
    match s.siteOfLane l with
    | some k => if x.state = 5 then s.sendSite l k else s.sendLow l
    | none => s.sendLow l

/-- A TRAIN flit: its place in the superframe, and flag [28] once the sender's training is complete (Table 09-4). -/
def trainFlit (n : Nat) (done : Bool) : Flit := { ty := 7, field := n, flags := b2n done, payload := zeros 128 }

/-- The lane's own training is complete: the HELLO of the far end has been accepted, its own acknowledged, and what PARAM queues
has gone (R316). -/
def Lane.ownDone (x : Lane) : Bool := x.helloIn.isSome && x.helloAck && x.ctrlQ.isEmpty

/-- Phase PARAM ends in UP, or in IDLE_HELD for a lane of a quarantined site, once both ends have set flag [28] (R310, R315,
R316). -/
def State.trained (l : Nat) (b : List Byte) (s : State) : State :=
  let site := s.siteOfLane l
  let held := match site with | some k => (s.site k).quar | none => false
  s.updLane l fun x =>
    { x with state := if held then 4 else 5, feHold := some (fld b 8 4), feId := fld b 0 8, feW := fld b 13 1,
             feModes := fld b 14 1, feWindow := fld b 12 1, dual := bit (fld b 14 1) 2, port := bits (fld b 14 1) 3 3,
             failPhase := none, intactAt := s.time, statusAt := s.time, lastStatus := [],
             mark := if site.isSome && !held then some 1 else none }

/-- PARAM ends when nothing is missing from it. -/
def State.paramEnd (l : Nat) (s : State) : State :=
  let x := s.lane l
  match x.helloIn with
  | some b => if x.state = 3 && x.phase = 2 && x.ownDone && x.flagged && x.farDone then s.trained l b else s
  | none => s

/-- One flit slot of phase PARAM (R316): the HELLO, and again 4 µs later until it is acknowledged; SITE_SET; then TRAIN. -/
def State.sendParam (l : Nat) (s : State) : State :=
  let x := s.lane l
  if x.helloAt.isNone && !x.helloAck then
    (s.sendFlit l { ty := 4, payload := ctrlData 0x01 0 (s.helloBody l) }).updLane l fun x =>
      { x with helloAt := some s.time, helloSent := true }
  else
    match x.ctrlQ with
    | m :: r =>
      (s.sendFlit l { ty := 4, payload := m.data }).updLane l fun x =>
        { x with ctrlQ := r, unacked := x.unacked ++ [{ m with sends := 1, at_ := s.time }] }
    | [] =>
      ((s.sendFlit l (trainFlit x.slot x.ownDone)).updLane l fun y => { y with flagged := y.flagged || x.ownDone }).paramEnd l

/-- What a lane sends in a flit slot (R308, R315, R316): a lane in training, or DOWN after a signal loss, sends TRAIN; STANDBY
sends IDLE. -/
def State.sendSlot (l : Nat) (s : State) : State :=
  let x := s.lane l
  if x.state = 2 || (x.state = 3 && x.phase != 2) then s.sendFlit l (trainFlit x.slot false)
  else if x.state = 3 then s.sendParam l
  else if x.state = 1 then s.sendStatus l 0
  else s.sendService l

/-- FLIT_SLOT_START (R308): the first entry of the device's list that applies, which enters the codewords. A lane under test
sends its pattern (R332); OFF and a forced DOWN send nothing. -/
def execFlitSlotStart (lane : Nat) (s : State) : Out :=
  State.plain (fun s =>
    let x := s.lane lane
    if x.state = 0 || (x.state = 2 && x.forced) then s
    else if x.state = 3 && x.testing then s.updLane lane fun x => { x with txTest := bits x.cfgNow 5 4 }
    else
      (s.sendSlot lane).updLane lane fun y => { y.encode x.slot with slot := (x.slot + 1) % 1285, txTest := 0 }) s

/-- CREDIT_REFRESH_DUE (R307). -/
def execCreditRefreshDue (lane : Nat) (s : State) : Out :=
  State.timed (if (s.lane lane).inService then some ((s.lane lane).statusAt + 2 * US) else none)
    (fun s => s.updLane lane fun x => { x with creditDue := true }) s

/-! ### Reception (R302 to R310, R319) -/

/-- Errored flits arrive (R302): counted, and 32 within 10 µs lose the lane with cause 0x03. -/
def State.erroredFlits (l n : Nat) (s : State) : State :=
  let s1 := ((s.lpCnt l 0x0C n).laneClass l 4 n).updLane l fun x =>
    { x with rxBad := sat32 x.rxBad n, trainOk := 0, trainNext := (x.trainNext + n) % 1285,
             errTimes := (x.errTimes ++ List.replicate (min n 32) s.time).filter fun t => s.time < t + 10 * US }
  if (s1.lane l).linked && 32 ≤ (s1.lane l).errTimes.length then s1.loseLane l 3 3 else s1

/-- Bypass CRC failures beyond LP_CFG.bypass_limit within one hour (R332): one event record and the lane alert. -/
def State.bypassCheck (l : Nat) (s : State) : State :=
  let lim := bits (s.lpCfg l) 15 8
  let ts := ((s.lane l).crcTimes ++ [s.time]).filter fun t => s.time < t + 3600 * SEC
  if lim != 0 && lim < ts.length then
    ((s.updLane l fun x => { x with crcTimes := [] }).event cLane l 0x80FF ts.length).laneAlarm l
  else s.updLane l fun x => { x with crcTimes := ts }

/-- A codeword, or in bypass mode a flit, fails its code (R299, R302, R319, R332): eight in a row lose the lane with cause
0x02. -/
def State.badCode (lane flits : Nat) (s : State) : State :=
  let x := s.lane lane
  let s1 := if bit x.cfgNow 1 then ((s.lpCnt lane 0x0B 1).laneClass lane 3 1).bypassCheck lane
            else (s.lpCnt lane 0x0A 1).laneClass lane 2 1
  let s2 := s1.updLane lane fun x => { x with errRun := x.errRun + 1 }
  if x.linked && 8 ≤ x.errRun + 1 then (s2.erroredFlits lane flits).loseLane lane 2 3 else s2.erroredFlits lane flits

/-- A codeword with up to 15 symbols in error is corrected, which the life ledger counts in units of 2^20 symbols (R299, R331,
R536). -/
def State.corrected (l n : Nat) (s : State) : State :=
  let sum := Tbl.get 0 s.led.sym l + n
  ((((s.lpCnt l 0x08 1).lpCnt l 0x09 n).laneClass l 6 (sum / 2 ^ 20)).updLed fun d => { d with sym := d.sym.put l (sum % 2 ^ 20) }).updLane
    l fun x => { x with errRun := 0 }

/-- UNCORRECTABLE_CODEWORD (R299, R302, R319): a received codeword has symbols in error. In FEC mode up to 15 are corrected;
beyond, and in bypass mode where a CRC fails, the flits in it are errored. -/
def execUncorrectableCodeword (lane flits symbols : Nat) (s : State) : Out :=
  State.plain (fun s =>
    let x := s.lane lane
    if x.state = 0 || x.state = 2 then s
    else if !bit x.cfgNow 1 && symbols ≤ 15 then (if symbols = 0 then s else s.corrected lane symbols)
    else s.badCode lane flits) s

/-- Whether a flit type is reserved for the direction from the front-end (Table 09-4). -/
def tyReserved (ty : Nat) : Bool := ty = 1 || 8 ≤ ty

/-- CAPT_RECEIVED (R262): a capture is matched to its fret and compared, or is a LATE_CAPTURE. Captures of a lane that is not
UP, of no site, or of a quarantined site are discarded (R266, R315). A flit whose type is reserved for its direction is
errored (R302). `err` is what the fret's check code reports: 0 nothing, 1 corrected, 2 uncorrectable; 3 says that the flit
itself is errored, in bypass mode by its CRC. The standby holds a capture whose fret is still to be written (R447). -/
def execCaptReceived (lane ty field flags payload err : Nat) (s0 : State) : Out :=
  State.plain (fun s0 =>
    if (s0.lane lane).state = 0 || (s0.lane lane).state = 2 then s0
    else if err = 3 then (if bit (s0.lane lane).cfgNow 1 then s0.badCode lane 1 else s0.erroredFlits lane 1)
    else if tyReserved ty then s0.erroredFlits lane 1
    else if ty != 2 then s0
    else
    let s := s0.fretFirst lane
    let s1 := (s.intact lane).updLane lane fun x => { x with following := flags % 2 == x.port, feRole := flags % 8 }
    match s.siteOfLane lane with
    | none => s1
    | some k =>
      if !s.siteUp k || (s.site k).quar then s1
      else
        let c := s.cu lane
        let v := extIdx c.high (field % 2 ^ 24)
        let s1 := s1.noteCap lane v
        match c.frets.find? fun f => f.idx == v with
        | some f =>
          (s1.updCu lane fun c => { c with frets := c.frets.filter fun g => g.idx != v }).compareVec lane k f
            (payload % 2 ^ 1024) (if err = 0 then f.err else err)
        | none =>
          let lo := s.lowFret lane k
          if s.afterReport k v && !idxLt c.high v then s1.lateCapture lane k v 2
          else if idxLt v lo then s1.lateCapture lane k v 1
          else if idxLt c.high v then
            if s.standby && (v + 2 ^ 48 - lo) % 2 ^ 48 ≤ 2047 then s1.updPair fun p =>
              { p with capHeld := p.capHeld.upd [] lane fun h => h ++ [(v, payload % 2 ^ 1024, err)] }
            else (s1.lateCapture lane k v 3).standbyFault 3
          else s1.lateCapture lane k v 2) s0

/-- LINK_STATUS_RECEIVED (R304, R306, R309): credits, acknowledgement, the front-end's error count, and the ports that it
reports. In PARAM, a control sequence other than 0 acknowledges the HELLO (R316; log entry 120, DEDUCED). -/
def execLinkStatusReceived (lane : Nat) (_credit : Bool) (payload : List Byte) (s : State) : Out :=
  State.plain (fun s =>
    let x := s.lane lane
    if x.state = 3 && x.phase = 2 then
      let s1 := s.intact lane
      if fld payload 8 1 = 0 || !x.helloSent then s1
      else ((s1.updLane lane fun x => { x with helloAck := true }).ackCtrl lane (fld payload 8 1)).paramEnd lane
    else if !x.linked then s
    else
      ((s.intact lane).updLane lane fun x =>
        { x with stimLimit := fld payload 0 4, feErr := fld payload 16 4, feRole := fld payload 9 1, feTerm := fld payload 12 4 }).ackCtrl lane (fld payload 8 1)) s

/-- A DIVERGE message (R328, R448, R464). -/
def State.diverge (l : Nat) (s : State) : State :=
  (((s.lpCnt l 0x13 1).laneClass l 7 1).setUnprot).standbyFault 6

/-- A message in sequence is acted on; none when its FIFO is full, and it is then not accepted. -/
def State.ctrlAct (l : Nat) (p : List Byte) (s : State) : Option State :=
  let ty := fld p 0 1
  if ty = 0x20 || ty = 0x31 then
    if 16 ≤ (s.lg (l / 8)).rx.length then none
    else some ((s.updLg (l / 8) fun g => { g with rx := g.rx ++ [(l, padTo 128 p)] }).raise 23)
  else if ty = 0x21 then some (s.diverge l)
  else some (s.updLg (l / 8) fun g => { g with rejected := sat32 g.rejected 1 })

/-- CTRL_RECEIVED (R305, R309): only the message whose sequence number equals ctrl_ack is accepted; a reserved type is
acknowledged, discarded and counted. -/
def execCtrlReceived (lane : Nat) (payload : List Byte) (s : State) : Out :=
  State.plain (fun s =>
    let s1 := s.intact lane
    if !(s.lane lane).inService || fld payload 1 1 != (s.lane lane).rxSeq then s1
    else
      match (s1.updLane lane fun x => { x with rxSeq := (x.rxSeq + 1) % 256 }).ctrlAct lane payload with
      | none => s1
      | some s2 => s2) s

/-- CTRL_RETRANSMIT (R309): the oldest message has been unacknowledged for 4 µs; it and every later one is sent again, and
after four sends the lane is lost with cause 0x09. -/
def execCtrlRetransmit (lane : Nat) (s : State) : Out :=
  let x := s.lane lane
  State.timed (if !x.inService then none else match x.unacked with | m :: _ => if m.again then none else some (m.at_ + 4 * US) | [] => none)
    (fun s =>
      match (s.lane lane).unacked with
      | [] => s
      | m :: _ =>
        if 4 ≤ m.sends then s.loseLane lane 9 3
        else s.updLane lane fun x => { x with unacked := x.unacked.map fun n => { n with again := true } }) s

/-- MEAS_RECEIVED (R306): into the group's measure FIFO under credit. -/
def execMeasReceived (lane tag : Nat) (payload : List Byte) (s : State) : Out :=
  State.plain (fun s =>
    let s1 := s.intact lane
    let x := s.lane lane
    if !x.inService || 64 ≤ (s.lg (lane / 8)).meas.length || (x.measLimit + 2 ^ 32 - x.measSeen) % 2 ^ 32 = 0 then s1
    else
      (s1.updLane lane fun x => { x with measSeen := (x.measSeen + 1) % 2 ^ 32 }).updLg (lane / 8) fun g =>
        { g with meas := g.meas ++ [(lane, tag % 2 ^ 24, padTo 128 payload)] }) s

/-! ### Training events (R316, R317) -/

/-- A training phase fails: counted, latched, and the lane returns to phase EQ (R316). -/
def State.phaseFail (l phase : Nat) (s : State) : State :=
  (((s.lpCnt l 0x0E 1).laneClass l 1 1).startTraining l).updLane l fun x => { x with failPhase := some phase }

/-- EQ_COMPLETE (R316, R332). -/
def execEqComplete (lane : Nat) (s : State) : Out :=
  State.plain (fun s =>
    let x := s.lane lane
    if x.state != 3 || x.phase != 0 || x.testing then s
    else s.updLane lane fun x => { x with phase := 1, phaseAt := s.time, trainOk := 0 }) s

/-- TRAIN_RECEIVED (R316, R319): eight consecutive intact TRAIN flits whose field agrees with the lane's own count of flit
positions end phase LOCK; the first sets that count. In PARAM, the far end's flag [28] says that its training is complete, and
so that it has the HELLO (log entry 120, DEDUCED). A TRAIN after training, other than that report, loses the lane with cause
0x05. -/
def execTrainReceived (lane field : Nat) (done : Bool) (s : State) : Out :=
  State.plain (fun s =>
    let x := s.lane lane
    let s1 := s.intact lane
    if x.inService then (if done then s1 else s1.loseLane lane 5 3)
    else if x.state = 3 && x.phase = 2 && done then
      (s1.updLane lane fun x => { x with farDone := true, helloAck := x.helloAck || x.helloSent }).paramEnd lane
    else if x.state != 3 || x.phase != 1 then s1
    else
      let n := if 0 < x.trainOk && field = x.trainNext then x.trainOk + 1 else 1
      if 8 ≤ n then s1.updLane lane fun x =>
        { x with phase := 2, phaseAt := s.time, helloAt := none, trainOk := 0, trainNext := (field + 1) % 1285 }
      else s1.updLane lane fun x => { x with trainOk := n, trainNext := (field + 1) % 1285 }) s

/-- The lowest fail code of R317 that a HELLO meets, 0 for none. -/
def State.helloFail (s : State) (l : Nat) (b : List Byte) : Nat :=
  let h := fld b 8 4
  let win := fld b 12 1
  let w := fld b 13 1
  let m := fld b 14 1
  let hOk := 7 ≤ h && h ≤ 0xFFFFFF
  let site := s.siteOfLane l
  let bad2 := match site with
    | none => false
    | some k => let x := s.site k
                !bit w x.wcode || (hOk && h * 8 * x.cycU < x.lead * x.w)
  if !bit m (bits (s.lane l).cfgNow 1 1) then 1
  else if bad2 then 2
  else if bits w 7 4 != 0 || bits m 7 4 != 0 || !allZero (slice b 15 5) || !hOk || win = 0 || 16 < win then 3
  else 0

/-- The front-end's HELLO is accepted (R316): SITE_SET goes to it when the lane's site is bound. -/
def State.helloOk (l : Nat) (b : List Byte) (s : State) : State :=
  if (s.lane l).helloIn.isSome then s
  else
    let s1 := s.updLane l fun x => { x with helloIn := some b }
    (match s.siteOfLane l with
      | some k => s1.queueCtrl l 0x10 0 ((s.site k).setBody k)
      | none => s1).paramEnd l

/-- HELLO_RECEIVED (R316, R317). -/
def execHelloReceived (lane : Nat) (body : List Byte) (s : State) : Out :=
  State.plain (fun s =>
    let x := s.lane lane
    let s1 := s.intact lane
    if x.state != 3 || x.phase != 2 then s1
    else
      let c := s.helloFail lane body
      if c != 0 then (s1.phaseFail lane 2).updLane lane fun x => { x with fail := c } else s1.helloOk lane body) s

/-- HELLO_RESEND (R316): the HELLO goes again every 4 µs in PARAM until it is acknowledged. -/
def execHelloResend (lane : Nat) (s : State) : Out :=
  let x := s.lane lane
  State.timed (if x.state = 3 && x.phase = 2 && !x.helloAck then x.helloAt.map (· + 4 * US) else none)
    (fun s => s.updLane lane fun x => { x with helloAt := none }) s

/-- TRAINING_PHASE_TIMEOUT (Table 09-10); a test pattern holds the lane in phase EQ (R332). -/
def execTrainingPhaseTimeout (lane : Nat) (s : State) : Out :=
  let x := s.lane lane
  State.timed (if x.state = 3 && !x.testing then some (x.phaseAt + [300, 40, 50].getD x.phase 50 * US) else none)
    (fun s => s.phaseFail lane x.phase) s

/-! ### Loss events (R319) -/

/-- NO_INTACT_FLIT_TIMEOUT: cause 0x04. -/
def execNoIntactFlitTimeout (lane : Nat) (s : State) : Out :=
  State.timed (if (s.lane lane).linked then some ((s.lane lane).intactAt + US) else none) (State.loseLane lane 4 3) s

/-- STIM_CREDIT_TIMEOUT: cause 0x06. -/
def execStimCreditTimeout (lane : Nat) (s : State) : Out :=
  State.timed (if (s.lane lane).state = 5 then (s.lane lane).stimWait.map (· + 10 * US) else none) (State.loseLane lane 6 3) s

/-- HALT_REPORT_TIMEOUT (R314): cause 0x07. -/
def execHaltReportTimeout (lane : Nat) (s : State) : Out :=
  State.timed (if (s.lane lane).inService then (s.lane lane).rpt.map fun r => r.2 + 8 * US else none)
    (State.loseLane lane 7 3) s

/-- SIGNAL_LOST: cause 0x01; a lane in training goes DOWN (Table 09-9). -/
def execSignalLost (lane : Nat) (s : State) : Out :=
  State.plain (fun s =>
    let s1 := s.updLane lane fun x => { x with signal := false }
    if (s.lane lane).state = 3 then s1.linkDown lane 2 false else s1.loseLane lane 1 2) s

/-- SIGNAL_DETECTED (Table 09-9): a lane that is DOWN after a signal loss trains; one forced down ignores it. Its
reference clock runs then (log entry 46, DESIGN CHOICE). -/
def execSignalDetected (lane : Nat) (s : State) : Out :=
  State.plain (fun s =>
    let s1 := (s.updLane lane fun x => { x with signal := true }).updPwr fun p => { p with lref := p.lref ||| 2 ^ (lane / 32) }
    if (s.lane lane).state = 2 && !(s.lane lane).forced then s1.startTraining lane else s1) s

/-- LP_CMD retrain (R315, R319): a lane in service is lost with cause 0x08 and trains; a forced-down lane, or one in
training, trains from phase EQ. -/
def State.retrain (l : Nat) (s : State) : State :=
  let x := s.lane l
  if x.inService then (s.loseLane l 8 3).updLane l fun y => { y with retrainAt := some s.time }
  else if x.state = 3 || (x.state = 2 && x.forced) then s.startTraining l
  else s

/-- LP_CMD force down (R315, R319). -/
def State.forceDown (l : Nat) (s : State) : State :=
  let x := s.lane l
  if x.inService then (s.loseLane l 8 2).updLane l fun y => { y with forced := true }
  else if x.state = 3 || x.state = 2 then s.linkDown l 2 true
  else s

def execLaneRetrain (lane : Nat) (s : State) : Out := State.plain (State.regDom (lgDom (lane / 8)) (.laneRetrain lane) (State.retrain lane)) s
def execLaneForceDown (lane : Nat) (s : State) : Out := State.plain (State.regDom (lgDom (lane / 8)) (.laneForceDown lane) (State.forceDown lane)) s

/-! ### Rejoin and retirement (R321, R322) -/

/-- The outcome of SITE_REJOIN (Table 09-13), without ABSENT. -/
def State.rejoinStatus (s : State) (k restart : Nat) : Nat :=
  let x := s.site k
  let d := (restart + 2 ^ 48 - x.high) % 2 ^ 48
  if !x.bound || !x.quar then NOT_ACTIVE
  else if x.laneList.any fun l => (s.lane l).state != 4 then BUSY
  else if d = 0 || 2 ^ 46 < d || x.laneList.any (fun l => ((s.lane l).feHold.getD 0) * 8 * x.cycU < x.lead * x.w) then BAD_ARG
  else OK

/-- SITE_REJOIN takes effect. -/
def State.rejoinSite (k restart : Nat) (s : State) : State :=
  let s1 := s.updSite k fun x => { x with quar := false, next := restart % 2 ^ 48, staged := [] }
  let s2 := (s.site k).laneList.foldl (fun s l =>
    (s.updLane l fun x => { x with state := 5, mark := some 2 }).updCu l fun c =>
      { c with frets := [], high := (restart + 2 ^ 48 - 1) % 2 ^ 48 }) s1
  s2.event cLane k 0x8015 (restart % 2 ^ 48)

/-- A lane leaves a binding that names it no more: SITE_CLEAR, and an IDLE_HELD lane enters UP (R322). -/
def State.unbindLane (k l : Nat) (s : State) : State :=
  let s1 := if (s.lane l).linked then s.queueCtrl l 0x11 0 (leBytes 1 k) else s
  let up (n : Nat) : Nat := if n = 4 then 5 else n
  (s1.stallEnd l).updLane l fun y => { y with state := up y.state, prevState := up y.prevState, mark := none }

/-- Every operation that still waits for a site finishes there as it stands. -/
def State.endOps (k : Nat) (s : State) : State :=
  (s.lg (k / 8)).ops.foldl (fun s o => if bit o.wait (k % 8) then s.opDone k o.id else s) s

/-- SITE_RETIRE of a bound site takes effect (R322): halted when UP, out of its job, frets purged, unbound, SITE_CLEAR. -/
def State.retireSite (k : Nat) (s : State) : State :=
  let x := s.site k
  let s1 := (if s.siteUp k then s.haltSite k hcRetire 0 0 true else s).setFailDest k none
  let s2 := x.laneList.foldl (fun s l =>
    ((s.cuCnt l 0x0F (s.cu l).frets.length).updCu l fun c => { c with frets := [] }).leaveSummary l k) (s1.releaseSite k)
  let s3 := x.laneList.foldl (fun s l =>
    s.unbindLane k l) s2
  (s3.endOps k).updSite k fun x => { x with bound := false, quar := false, staged := [], haltDue := none, rearm := [], job := none,
                                            brq := [], ctl := [] }

/-! ### Firmware's control ports (R330) -/

/-- LG_CTL_GO (R330): the staged message is queued on the lane of LG_CTL_LANE. -/
def State.ctlGo (g : Nat) (s : State) : State :=
  let l := 8 * g + bits (s.ioReg (lgBase (8 * g) + 2) 0) 2 0
  let x := s.lg g
  if x.busy then s
  else
    let bs := x.stage.flatMap (leBytes 4)
    let s1 := s.updLg g fun x => { x with stageIdx := 0 }
    if !(s.lane l).inService then s1.updLg g fun x => { x with lastStat := NOT_ACTIVE }
    else (s1.updLg g fun x => { x with busy := true }).queueCtrl l (fld bs 0 1) 1 ((bs.drop 4).take (min 120 (fld bs 2 1)))

/-- CTL_MESSAGE_QUEUE (R330). -/
def execCtlMessageQueue (lg : Nat) (s : State) : Out := State.plain (State.regDom (lgDom lg) (.ctlMessageQueue lg) (State.ctlGo lg)) s

/-- The head entry leaves the received-message FIFO or the measure FIFO; a MEAS flit's place is granted again (R306). -/
def State.ctlPop (g : Nat) (meas : Bool) (s : State) : State :=
  let x := s.lg g
  if meas then
    match x.meas with
    | [] => s
    | e :: r => (s.updLg g fun x => { x with meas := r, measIdx := 0 }).updLane e.1 fun y =>
        { y with measLimit := (y.measLimit + 1) % 2 ^ 32 }
  else s.updLg g fun x => { x with rx := x.rx.drop 1, rxIdx := 0 }

/-- CTL_FIFO_POP_READ (R330). -/
def execCtlFifoPopRead (lg : Nat) (meas : Bool) (s : State) : Out :=
  State.plain (State.regDom (lgDom lg) (.ctlFifoPopRead lg meas) (State.ctlPop lg meas)) s

/-- LP_CNT_CLR (R331): ports +0x08 to +0x11 and +0x13; what this fc has counted is counted after the reset, and so is what is
still to come of a wait for credit. -/
def State.lpClear (l : Nat) (s : State) : State :=
  s.updLane l fun x => { x with lp := s.recountAfter .lp l 0x13 0x13 (s.recountAfter .lp l 0x08 0x11 x.lp),
                                stallFrom := s.time }

/-- LP_STALL_CNT with the wait that is under way (R331). -/
def State.stallCnt (s : State) (l : Nat) : Nat :=
  sat32 (Tbl.get 0 (s.lane l).lp 0x10) (if (s.lane l).stimWait.isSome then s.time - (s.lane l).stallFrom else 0)

def execLpCntClr (lane : Nat) (s : State) : Out :=
  State.plain (State.regDom (lgDom (lane / 8)) (.lpCntClr lane) (State.lpClear lane)) s

/-! ### LANE_SEND and LANE_RECV (R411) -/

/-- LANE_SEND: an FE_CMD message; it completes when the front-end acknowledges it, or as it is purged. -/
def execLaneSend (mb : Nat) (s : State) : Out :=
  State.plain (fun s =>
    let n := fld (s.mb mb).args 2 1
    s.serveMb mb 0x23 1 0 (4 + min n 120) [(0, 3), (4, n)] (fun a => fld a 1 1 == 0x30 && fld a 2 1 ≤ 120)
      (fun a => s.nLanes ≤ fld a 0 1) false (fun a s =>
        let l := fld a 0 1
        if !(s.lane l).inService then s.fin mb NOT_ACTIVE
        else s.queueCtrl l 0x30 (2 + mb) (slice a 4 (fld a 2 1)))) s

/-- LANE_RECV: the head received message of a lane group, or of the lowest one that holds any. -/
def execLaneRecv (mb : Nat) (s : State) : Out :=
  State.plain (fun s =>
    s.serveMb mb 0x24 1 0 1 [(0, 1)] okArgs (fun a => fld a 0 1 != 0xFF && s.nLg ≤ fld a 0 1) false (fun a s =>
      let g? := if fld a 0 1 = 0xFF then (List.range s.nLg).find? fun g => !(s.lg g).rx.isEmpty else some (fld a 0 1)
      match g? with
      | none => s.fin mb NOT_ACTIVE
      | some g =>
        match (s.lg g).rx with
        | [] => s.fin mb NOT_ACTIVE
        | (l, p) :: _ =>
          (s.ctlPop g false).finish mb OK
            (leBytes 1 l ++ leBytes 1 (fld p 0 1) ++ leBytes 1 (fld p 2 1) ++ [0] ++ slice p 4 (fld p 2 1)))) s

end Sys2Proof.Machine
end

