-- ==== Sys2Proof/Machine/Fail.lean ====
section
/-! DEFINITION. Failures that the device contains (R213, R523 to R530): a PE's failure and its spare, a link's failure. -/

namespace Sys2Proof.Machine
open Sys2Proof

/-! ### A PE fails (R527 to R529) -/

/-- The spare that firmware takes: fitted, not failed, not in service, nearest to the failed PE, ties to the lower number. -/
def State.spareFor (s : State) (pe : Nat) : Option Nat :=
  let ok := (List.range 68).filter fun p => 64 ≤ p && s.peFitted p && !(s.pe p).failed && (s.logOf p).isNone && p != pe
  ok.foldl (fun b p => match b with
    | none => some p
    | some q => if hops (.pe pe) (.pe p) < hops (.pe pe) (.pe q) then some p else some q) none

/-- The live contexts of a job whose block places an actor on a logical PE or names it in a PE set. -/
def State.ctxsOn (s : State) (j k : Nat) : List Nat :=
  (s.jobCtxs j).filter fun n => match s.ctxBlock n with | some b => b.named.contains k | none => false

/-- The 48-bit index of a fail token that a lane sent, from its ITER. -/
def Cu.fullIdx (c : Cu) (i : Nat) : Nat := (c.high + 2 ^ 48 - (c.high + 2 ^ 28 - i % 2 ^ 28) % 2 ^ 28) % 2 ^ 48

/-- The SITE_GAP record of a site whose fail destination is lost with its PE (R527 step 2). -/
def State.failGap (k : Nat) (s : State) : State :=
  let x := s.site k
  let idxs := x.laneList.flatMap fun l =>
    let c := s.cu l
    (c.failIdx.filter fun t => s.time ≤ t.1 + 16 * s.subLen l).map fun t => c.fullIdx t.2
  match idxs with
  | [] => s
  | i :: r =>
    let lo := r.foldl (fun m j => if idxLt j m then j else m) i
    let hi := x.laneList.foldl (fun m l => idxMax m (s.cu l).high) i
    if (s.cu x.first).destSet then s.putGap k (s.gapRec k lo hi 2 0) else s

/-- The jobs that a logical PE's failure takes with it are killed, their sites' gaps recorded (R527 steps 1 and 2). -/
def State.peKills (k : Nat) (s : State) : State :=
  s.cm.jobs.foldl (fun s p =>
    let l := s.ctxsOn p.1 k
    if p.2.ended || l.isEmpty then s
    else
      ((setBitsOf 128 p.2.sites).foldl (fun s i => if (s.site i).job = some p.1 then s.failGap i else s) s).askKill
        { job := p.1, end_ := 3, cause := 0x41, fault := l }) s

/-- What a failed PE keeps: its counters, its retired sets, its repairs; every token and firing is lost. -/
def Pe.dead (p : Pe) : Pe :=
  { failed := true, arr := p.arr, spillId := p.spillId, retired := p.retired, cnt := p.cnt, remaps := p.remaps, trapIn := [] }

/-- A kill no longer awaits an endpoint (R213). -/
def State.unawait (e : KillEnd) (s : State) : State :=
  s.updCm fun c => { c with kills := c.kills.map fun k => { k with await := k.await.filter (·.1 != e) } }

/-- The kills that await one endpoint await another in its place. -/
def State.reawait (a b : KillEnd) (s : State) : State :=
  let f (x : KillEnd × Nat) : KillEnd × Nat := if x.1 == a then (b, x.2) else x
  s.updCm fun c => { c with kills := c.kills.map fun k => { k with await := k.await.map f } }

/-- A physical PE leaves service: its logical PE's jobs are killed, its stage goes (R97), and a spare takes its place where one
is left. Where it was itself a spare that had not come into service, the kills still await the PE that it was to replace
(R213). -/
def State.peOut (pe k : Nat) (report : State → Nat → State) (s : State) : State :=
  let first := match s.pat.awaiting.find? (·.2.2 == pe) with | some x => x.2.1 | none => pe
  let s1 := (s.peKills k).reawait (.pe pe) (.pe first)
  let s2 := (((s1.pe pe).spill.foldl (fun s x => s.ctxCntDown x.ent.tok.ctx.toNat) s1).updPe pe Pe.dead).stageGone k
  let wait := s.pat.awaiting.filter (·.2.2 != pe)
  match s2.spareFor pe with
  | some sp =>
    (report (s2.updPat fun p => { p with lmap := p.lmap.put k sp, awaiting := wait ++ [(k, first, sp)] }) sp).updDom (quadDom sp)
      fun d => { d with wake := true }
  | none =>
    ((report (s2.updPat fun p => { p with lost := p.lost ++ [k], awaiting := wait }) 0xFF).unawait (.pe first)).endKills

/-- A PE fails (R527, R528): causes 1 residue, 2 ECC, 3 parity; 0 where the fault lies outside it. The standby's own
failure detaches it (R448). -/
def State.peFail (pe cause : Nat) (s : State) : State :=
  if (s.pe pe).failed || !s.peFitted pe then s
  else
    match s.logOf pe with
    | none => s.updPe pe Pe.dead
    | some k =>
      (s.standbyFault 5).peOut pe k fun s sp =>
        let s1 := s.event cPe pe 0x800D (cause + k * 2 ^ 8 + sp * 2 ^ 16)
        (when (sp = 0xFF) (State.event cPe k 0x8010 0) s1).jrnl 0x09 [0, k, sp] []

/-- The standby applies the active's REMAP of a logical PE with its own spare (R448); with none left it detaches. -/
def State.followRemap (k : Nat) (s : State) : State :=
  let pe := s.physOf k
  if (s.spareFor pe).isNone then s.detach 5 else s.peOut pe k fun s _ => s

/-- PE_FAILURE (R527). -/
def execPeFailure (pe cause : Nat) (s : State) : Out := State.plain (State.peFail pe cause) s

/-- A Cabinet region is cleared. -/
def State.clearRegion (k : Nat) (s : State) : State :=
  (((s.region k).ents.filter fun e => !e.2.isOvf).foldl (fun s e => s.ctxCntDown e.2.tok.ctx.toNat) s).putRegion k {}

/-! ### A link fails (R530) -/

/-- The physical PEs, and the lane group, at a router. -/
def pesAt (r : Nat) : List Nat := (List.range 68).filter fun p => routerOf (.pe p) == r
def lgAt (r : Nat) : Option Nat := (List.range 16).find? fun g => routerOf (.lg g) == r

/-- A lane is held OFF until the next cold start (R524, R530). -/
def State.holdOff (l : Nat) (s : State) : State :=
  let s1 := s.loseLane l 8 0
  (if (s.lane l).linked then s1 else s1.linkDown l 0 false).updLane l fun x => { x with heldOff := true }

/-- What the failure of a link does to the blocks at one of its ends. -/
def State.linkEnd (r : Nat) (s : State) : State :=
  let s1 := (pesAt r).foldl (fun s p => if (s.logOf p).isSome then s.peFail p 0 else s) s
  let s2 := match lgAt r with
    | some g => if g < s.nLg then ((List.range 8).map (8 * g + ·)).foldl (fun s l => s.holdOff l) s1 else s1
    | none => s1
  if [0, 5, 30, 35].contains r then
    (s2.alert 12).updPair fun p => { p with claimDown := p.claimDown || p.en }
  else s2

/-- The neighbour of a router in a direction: 0 N, 1 E, 2 S, 3 W (Table 01-2: rows run from north to south). -/
def neighbour (r dir : Nat) : Nat := if dir = 0 then r - 6 else if dir = 1 then r + 1 else if dir = 2 then r + 6 else r - 1

/-- A link is declared failed. -/
def State.linkFail (key r dir : Nat) (s : State) : State :=
  let s1 := (s.updNet fun n => { n with links := n.links.upd {} key fun l => { l with failed := true } }).updPat fun p =>
    { p with linkFail := p.linkFail + 1 }
  ((s1.event cScx r 0x800B dir).linkEnd r).linkEnd (neighbour r dir)

end Sys2Proof.Machine
end

