-- ==== Sys2Proof/Machine/Net.lean ====
section
/-! DEFINITION. The fabric (R334 to R345): the dimension-ordered route, one hop of a packet under credit, delivery at an
endpoint, and the packets held for a sleeping domain. -/

namespace Sys2Proof.Machine
open Sys2Proof

/-! ### Delivery -/

/-- The power domain of an endpoint (Table 14-1). -/
def epDom : Ep → Nat
  | .pe n => quadDom n
  | .lg n => lgDom n
  | .cm => 6
  | .cab => 49
  | .dc n => dcDom n
  | .shelf => 1
  | .tu n => tuDom n
  | .outlet n _ => outDom n
  | .stew => 1
  | .pcie => 3
  | .sec => 2
  | .bridge => 4
  | .sync => 5

/-- Whether a memory operation is a far atomic. -/
def MemOp.atomic : MemOp → Bool
  | .swap => true
  | .cas => true
  | .fadd => true
  | .for_ => true
  | .fmaxu => true
  | _ => false

/-- Whether a memory operation is an I-structure operation. -/
def MemOp.istruct : MemOp → Bool
  | .iload => true
  | .istore => true
  | .ireset => true
  | _ => false

/-- A packet reaches its endpoint. -/
def State.arrive (p : Pkt) (s : State) : State :=
  match p.dst, p.body with
  | .pe n, .tok t =>
    if (s.pe n).failed then s
    else s.updPe n fun x => if p.chan = 0 then { x with inU := x.inU ++ [t] } else { x with inG := x.inG ++ [t] }
  | .pe n, b => if (s.pe n).failed then s else s.updPe n fun x => { x with rsp := x.rsp ++ [b] }
  | .lg g, _ => (s.updLg g fun x => { x with inbox := x.inbox ++ [p] }).lgLand g 64
  | .cm, .ctx pe slot ctx k => s.cmAsk pe slot ctx k
  | .cm, .tok t => s.cmToken t
  | .dc c, .mem r =>
    let r' := { r with since := s.time }
    s.updDc c fun d => if r.op.atomic then { d with atomics := d.atomics ++ [r'] }
      else if r.op.istruct then { d with istr := d.istr ++ [r'] } else { d with q := d.q ++ [r'] }
  | .shelf, .mem r =>
    let r' := { r with since := s.time }
    if r.op.atomic then { s with shelfAtomics := s.shelfAtomics ++ [r'] }
    else { s with shelfQ := s.shelfQ ++ [{ port := 3, req := r' }] }
  | .tu n, .tally r => s.updTu n fun x => { x with q := x.q ++ [r] }
  | .outlet o port, .out .. => s.updOutlet o fun x => { x with ports := x.ports.upd [] port fun l => l ++ [p] }
  | .stew, .trap m => s.trapArrive m
  | _, _ => s

/-- The event class and instance of a block that checks the tokens of requests (R54, Table 16-3). -/
def epClass : Ep → Nat × Nat
  | .tu n => (cTu, n)
  | .outlet n _ => (cOut, n)
  | _ => (cCm, 0)

/-- A packet reaches its endpoint, which checks the token that a request carries (R54). -/
def State.arriveChk (p : Pkt) (s : State) : State :=
  match p.chk with
  | none => s.arrive p
  | some t => if t.crcOk then s.arrive p else s.crcFail (epClass p.dst).1 (epClass p.dst).2 t

/-- Whether an endpoint's buffer can take a packet (R337): a PE's input sub-queues, a lane group's input. Every other
endpoint accepts what is addressed to it (R341). -/
def State.epRoom (s : State) (p : Pkt) : Bool :=
  match p.dst, p.body with
  | .pe n, .tok _ =>
    let x := s.pe n
    let u : Bool := x.inU.length + x.qU.length < 64
    let g : Bool := x.inG.length + x.qG.length < 448
    if p.chan = 0 then u else g
  | .lg g, _ =>
    let ok : Bool := ((s.lg g).chan p.chan).length < (if p.chan = 0 then 8 else 32)
    ok
  | _, _ => true

/-- A packet that cannot reach its endpoint is discarded; a request completes with NOT_ACTIVE, a read's data zero (R344,
R530). -/
def State.discard (r : Nat) (p : Pkt) (s : State) : State :=
  let back (pe : Nat) (b : Body) (s : State) : State :=
    s.updNet fun n => { n with transit := n.transit ++ [{ net := 2, router := r, src := 2000, dst := .pe pe, body := b }] }
  match p.body with
  | .mem q => back q.pe (.rsp q.slot 0 false 0) s
  | .tally q => back q.pe (.rsp q.slot 0 false 0) s
  | .ctx pe slot _ _ => back pe (.reply slot 0 0) s
  | .out pe slot _ _ _ =>
    let o : Nat := match p.dst with | .outlet n _ => n | _ => 0
    back pe (.answer o slot (commitResult NOT_ACTIVE false 0) 0) s
  | _ => s

/-- A lane token for a lane group that is off is answered by the group's edge router (R344): every target is skipped. -/
def State.edgeAnswer (g : Nat) (p : Pkt) (s : State) : State :=
  match p.body with
  | .lane t job _ e =>
    let m := maskOf ((s.targets g t e).map (· % 8))
    s.sendNotice g { tok := t, op := laneOpOf t, req := m, quiet := t.port == 3, job := job }
  | _ => s

/-- A packet waits at the boundary router of a sleeping domain, which is woken (R343): at most four of a channel. -/
def State.holdPkt (p : Pkt) (s : State) : State :=
  if 4 ≤ (s.net.holdBuf.filter fun q => q.net == p.net && q.chan == p.chan && q.router == p.router).length then s
  else
    (s.updNet fun n => { n with transit := n.transit.erase p, holdBuf := n.holdBuf ++ [p], hold := bump n.hold p.router 1 }).updDom
      (epDom p.dst) fun d => { d with wake := true, idleSince := s.time }

/-- The PE is a spare that firmware is still loading (R527). -/
def State.loadingSpare (s : State) (n : Nat) : Bool := s.pat.awaiting.any fun x => x.2.2 == n

/-- A packet at its destination's router: delivered, held, answered, or without room. -/
def State.deliver (p : Pkt) (s : State) : State :=
  let d := s.dom (epDom p.dst)
  let gone (s : State) : State := s.updNet fun n => { n with transit := n.transit.erase p }
  let off : Bool := d.state == 0 || d.reset_
  let spare : Bool := match p.dst with | .pe n => s.loadingSpare n | _ => false
  let dead : Bool := match p.dst with | .pe n => (s.pe n).failed | _ => false
  if dead then gone s
  else if spare then s.holdPkt p
  else if s.domOn (epDom p.dst) then
    if s.epRoom p then
      ((gone s).updDom (epDom p.dst) fun x =>
        { x with idleSince := s.time, going := if x.state = 2 then none else x.going, woken := x.woken || x.going.isSome }).arriveChk p
    else match p.dst, p.body with | .pe n, .tok _ => s.bpStart n | _, _ => s
  else if off then
    match p.dst with
    | .lg g => (gone s).edgeAnswer g p
    | .pe _ => s.holdPkt p
    | _ => (gone s).discard p.router p
  else s.holdPkt p

/-- The packets held for a domain that is up are delivered in their order of arrival. -/
def State.releasePkts (test : Ep → Bool) (s : State) : State :=
  let mine := s.net.holdBuf.filter fun p => test p.dst
  mine.foldl (fun s p => s.arriveChk p) (s.updNet fun n => { n with holdBuf := n.holdBuf.filter fun p => !test p.dst })

/-! ### One hop (R335 to R338) -/

/-- The direction of a packet's next hop: along its row, then along its column; none at its destination's router. -/
def nextDir (r d : Nat) : Option Nat :=
  if r % 6 < d % 6 then some 1 else if d % 6 < r % 6 then some 3
  else if r / 6 < d / 6 then some 2 else if d / 6 < r / 6 then some 0 else none

/-- The input port that a hop in a direction arrives at. -/
def inOf (dir : Nat) : Nat := (dir + 2) % 4

/-- Whether the next router's input buffer has a place. -/
def State.hopRoom (s : State) (net chan r dir : Nat) : Bool :=
  let n := (s.net.transit.filter fun p =>
    p.net == net && p.chan == chan && p.router == neighbour r dir && p.inport == inOf dir).length
  let ok : Bool := n < bufSize net chan
  ok

/-- The packets of an input port that may leave next: the oldest, and past a cohort's copies what stands behind them, since a
copy that waits delays nothing (R339). -/
def heads (l : List Pkt) : List Pkt := l.takeWhile Pkt.isCopy ++ (l.dropWhile Pkt.isCopy).take 1

/-- Whether a packet at a router has room where it goes next. -/
def State.pktRoom (s : State) (p : Pkt) : Bool :=
  match nextDir p.router (routerOf p.dst) with
  | some d => s.hopRoom p.net p.chan p.router d
  | none => s.epRoom p

/-- The packet that an input port of a network and channel offers: the oldest that may leave and has room, or the oldest. -/
def State.headAt (s : State) (net chan r i : Nat) : Option Pkt :=
  let l := heads (s.net.transit.filter fun p => p.net == net && p.chan == chan && p.router == r && p.inport == i)
  match l.find? fun p => s.pktRoom p with
  | some p => some p
  | none => l.head?

/-- The input ports whose oldest packet leaves by an output and can. -/
def State.contenders (s : State) (net chan r : Nat) (out : Option Nat) : List Nat :=
  (List.range 5).filter fun i =>
    match s.headAt net chan r i with
    | none => false
    | some p => nextDir r (routerOf p.dst) == out &&
        (match out with | some d => s.hopRoom net chan r d | none => s.epRoom p)

/-- The round-robin key of a router's output. -/
def rrKey (net chan r : Nat) (out : Option Nat) : Nat := ((net * 2 + chan) * 36 + r) * 5 + out.getD 4

/-- The input port whose turn it is. -/
def State.turn (s : State) (net chan r : Nat) (out : Option Nat) : Option Nat :=
  let l := s.contenders net chan r out
  let st := Tbl.get 0 s.net.rr (rrKey net chan r out)
  ((List.range 5).map fun i => (st + i) % 5).find? fun i => l.contains i

/-- PACKET_FORWARD (R336 to R338): the oldest packet of an input port goes one hop, or to its endpoint, when it is its turn,
no urgent token waits for the same output and there is room. A failed check costs a replay; 64 failed replays in a row, the
first transfer being none, fail the link. -/
def execPacketForward (net chan router inport : Nat) (linkOk : Bool) (s : State) : Out :=
  State.plain (fun s =>
    match s.headAt net chan router inport with
    | none => s
    | some p =>
      let out := nextDir router (routerOf p.dst)
      if net = 0 && chan = 1 && !(s.contenders 0 0 router out).isEmpty then s
      else
        let turn (s : State) : State :=
          s.updNet fun n => { n with rr := n.rr.put (rrKey net chan router out) ((inport + 1) % 5) }
        match out with
        | none =>
          if s.turn net chan router out == some inport || !s.epRoom p then (turn s).deliver p else s
        | some d =>
          let key := (net * 36 + router) * 4 + d
          let link := Tbl.get {} s.net.links key
          if link.failed then (s.updNet fun n => { n with transit := n.transit.erase p }).discard router p
          else if s.turn net chan router out != some inport then s
          else if linkOk then
            (turn s).updNet fun n =>
              { n with transit := n.transit.erase p ++ [{ p with router := neighbour router d, inport := inOf d }],
                       links := n.links.put key { bad := 0 } }
          else
            let s1 := s.updNet fun n =>
              { n with links := n.links.put key { bad := link.bad + 1 }, replay := bump n.replay (neighbour router d) 1 }
            if 65 ≤ link.bad + 1 then s1.linkFail key router d else s1) s

/-! ### The spare in service (R213, R527 step 3) -/

/-- SPARE_IN_SERVICE: the loaded spare serves its logical PE, holds nothing, knows the dying contexts, and acknowledges the
kills that await it or the PE it replaces. -/
def execSpareInService (spare : Nat) (s : State) : Out :=
  State.plain (fun s =>
    match s.pat.awaiting.find? fun x => x.2.2 == spare with
    | none => s
    | some (k, old, _) =>
      if !s.domOn (quadDom spare) || (s.pe spare).failed then s
      else
        let dying := (s.cm.ctxs.filter fun p => p.2.state == 2 || p.2.state == 3).map (·.1)
        let s1 := (s.updPat fun p => { p with awaiting := p.awaiting.filter (·.2.2 != spare) }).tot 3
        let s2 := ((s1.clearRegion k).updPe spare fun p => { p with dying := dying }).restage k
        (((s2.unawait (.pe old)).unawait (.pe spare)).endKills).releasePkts fun e => e == .pe spare) s

end Sys2Proof.Machine
end

