-- ==== Sys2Proof/Machine/Recorder.lean ====
section
/-! DEFINITION. The event recorder, the life ledger with its snapshots and wear index, and patrol with its repairs (R524 to
R526, R531 to R540). -/

namespace Sys2Proof.Machine
open Sys2Proof

/-! ### The event recorder (R531 to R535, R540) -/

/-- A record's 32 bytes (Table 16-3). -/
def EvRec.bytes (r : EvRec) : List Byte :=
  leBytes 4 (r.seq % 2 ^ 24 + r.ver % 256 * 2 ^ 24) ++ leBytes 2 r.code ++ leBytes 2 (r.inst % 4096 + r.cls % 16 * 4096)
    ++ leBytes 8 r.time ++ leBytes 4 r.last ++ leBytes 2 r.rep
    ++ leBytes 1 (b2n r.coarse + 2 * b2n r.coarse2 + 4 * b2n r.alert) ++ zeros 1 ++ leBytes 8 r.arg

/-- A slot's record; a slot not yet written reads as zeros. -/
def Recorder.slot (r : Recorder) (k : Nat) : List Byte :=
  match Tbl.find r.ring k with | some e => e.bytes | none => zeros 32

/-- The slot of the latest record. -/
def Recorder.lastSlot (r : Recorder) : Nat := (r.next + 4095) % 4096

/-- A pending change is applied: ver goes odd and then even (R534). -/
def Recorder.applyChg (r : Recorder) (now : Nat) : Recorder :=
  match r.chg with
  | none => r
  | some e => { r with ring := r.ring.put r.lastSlot { e with ver := (e.ver + 2) % 256 }, chg := none,
                       chgAt := now + 50 * US }

/-- A new record (R531, R534): its ver is even, otherwise open (log entry 4, DESIGN CHOICE). -/
def State.newRecord (e : EvReq) (s : State) : State :=
  let (v, s0) := s.fresh
  s0.updRcd fun r0 =>
    let r := r0.applyChg s.time
    { r with ring := r.ring.put (r.next % 4096)
               { seq := r.next, ver := 2 * v % 256, code := e.code, cls := e.cls, inst := e.inst, time := e.time,
                 coarse := e.coarse, coarse2 := e.coarse, alert := e.alert, arg := e.arg, extra := e.extra },
             next := (r.next + 1) % 2 ^ 24, held := min 4096 (r.held + 1), chgAt := 0 }

/-- The latest record, its pending change included, if an event repeats it (R534). -/
def Recorder.repeats (r : Recorder) (e : EvReq) : Option EvRec :=
  match (if r.held = 0 then none else match r.chg with | some c => some c | none => Tbl.find r.ring r.lastSlot) with
  | none => none
  | some l => if l.cls = e.cls && l.inst = e.inst && l.code = e.code && l.arg = e.arg && l.rep < 0xFFFF then some l else none

/-- An event is recorded as a repeat or as a new record; an alert sets bit 13 at each occurrence. -/
def State.record (e : EvReq) (s : State) : State :=
  let s1 := match s.rcd.repeats e with
    | some l => s.updRcd fun r =>
        { r with chg := some { l with rep := l.rep + 1, last := min 0xFFFFFFFF ((e.time - l.time) / 256), coarse2 := e.coarse } }
    | none => s.newRecord e
  when e.alert (State.alert 13) s1

/-- EVENT_RECORD_INTAKE (R533): one event per fc, or per AO tick while the fabric sleeps; a record of the events lost comes first
once room has returned. -/
def execEventRecordIntake (s : State) : Out :=
  State.timed (if s.rcd.intake.isEmpty then none else some s.rcd.takeAt) (fun s =>
    match s.rcd.intake with
    | [] => s
    | e :: rest =>
      let s1 := s.updRcd fun r =>
        { r with intake := rest, lostPend := 0,
                 takeAt := if s.fabricRuns then s.time + 1 else (s.time / 500 + 1) * 500 }
      let s2 := when (s.rcd.lostPend != 0)
        (State.record { code := 0x8011, arg := s.rcd.lostPend, alert := true, time := s.time, coarse := s.coarse }) s1
      s2.record e) s

/-- RECORD_CHANGE_APPLY (R534). -/
def execRecordChangeApply (s : State) : Out :=
  State.timed (if s.rcd.chg.isSome then some s.rcd.chgAt else none) (fun s => s.updRcd fun r => r.applyChg s.time) s

/-- EVENTS_READ (R535). -/
def execEventsRead (mb : Nat) (s : State) : Out :=
  State.plain (State.serveMb mb 0x81 1 0 3 [(0, 2), (2, 1)] (fun a => 1 ≤ fld a 2 1 && fld a 2 1 ≤ 6) noAbsent false
    fun a s =>
      let i := fld a 0 2
      let r := s.rcd
      let d := (r.next % 65536 + 65536 - i) % 65536
      if 2 ^ 15 ≤ d then s.fin mb BAD_ARG
      else
        let start := min d r.held
        let n := min start (fld a 2 1)
        let first := (r.next + 2 ^ 24 - start) % 2 ^ 24
        let nxt := if n = 0 then i else (first + n) % 65536
        s.finish mb OK (leBytes 1 n ++ zeros 1 ++ leBytes 2 nxt ++ zeros 4
          ++ (List.range n).flatMap fun k => r.slot ((first + k) % 4096))) s

/-- EVR_GO (R540): the staged record is submitted. -/
def State.evrGo (s : State) : State :=
  let w (k : Nat) : Nat := s.ioReg (0x7004 + k) 0
  s.eventA (bit (w 1) 0) (bits (w 0) 31 28) (bits (w 0) 27 16) (bits (w 0) 15 0) (w 2 + w 3 * 2 ^ 32)

def execEvrGo (s : State) : Out := State.plain State.evrGo s

/-- EVR_RD_IDX_WRITE (R540). -/
def State.evrIdx (v : Nat) (s : State) : State := s.updRcd fun r => { r with rdIdx := bits v 11 0, rdWord := 0 }

def execEvrRdIdxWrite (v : Word) (s : State) : Out := State.plain (State.evrIdx v.toNat) s

/-- The word that a read of EVR_RD_DATA returns, and the counter's advance (R540). -/
def State.evrData (s : State) : Nat × State :=
  (fld (s.rcd.slot s.rcd.rdIdx) (4 * s.rcd.rdWord) 4, s.updRcd fun r => { r with rdWord := (r.rdWord + 1) % 8 })

def execEvrRdDataRead (s : State) : Out := State.plain (fun s => s.evrData.2) s

/-! ### The life ledger (R536 to R538) -/

/-- Samples of 10 µs in a second. -/
def samplesPerSec : Nat := 100000

/-- AF of R538 at Tj bin i, and VF at VDD_CORE bin j, times 2^40 (log entry 21, DEDUCED). -/
def accelT : List Nat :=
  [1116662, 3414961, 9731207, 26006651, 65557658, 156668391, 356540905, 775792279, 1619731579, 3255328023, 6316153389,
   11861664915, 21611959327, 38284489281, 66065049964, 111251424043, 183114182844, 295025015648, 465908317318,
   722076328185, 1099511627776, 1646663006047, 2427821487179, 3527142429896]
def accelV : List Nat :=
  [148802717567, 181748049658, 221987569143, 271136229228, 331166538216, 404487723188, 494042420743, 603424775344,
   737024684948, 900203983027, 1099511627776, 1342946534795, 1640278601660, 2003440808219, 2447008128969, 2988782477963]

/-- Whole seconds of a counted number of samples. -/
def secs (t : Tbl Nat) (k : Nat) : Nat := Tbl.get 0 t k / samplesPerSec

/-- Σ s × AF of a quadrant, in seconds times 2^40. -/
def thermal (tj : Tbl Nat) (q : Nat) : Nat :=
  (List.range 24).foldl (fun n i => n + secs tj (24 * q + i) * accelT.getD i 0) 0

/-- The wear index of R538 as unsigned 16.16, with the quadrant of the largest wear. -/
def wearIndex (tj vdd : Tbl Nat) : Nat × Nat :=
  let q := [1, 2, 3].foldl (fun b q => if thermal tj b < thermal tj q then q else b) 0
  let v := (List.range 16).foldl (fun n j => n + secs vdd j) 0
  let vf := (List.range 16).foldl (fun n j => n + secs vdd j * accelV.getD j 0) 0
  (if v = 0 then 0 else thermal tj q * vf * 65536 / (2 ^ 80 * v * 561075840), q)

/-- The sizes of the sections (Table 16-5). -/
def ledSizes : List Nat := [32, 384, 64, 20, 4096, 1024, 96]

/-- A section's live bytes. -/
def State.ledSec (s : State) (k : Nat) : List Byte :=
  let l := s.led
  let words (n : Nat) (f : Nat → Nat) : List Byte := (List.range n).flatMap fun i => leBytes 4 (min 0xFFFFFFFF (f i))
  if k = 0 then
    leBytes 4 l.seq ++ leBytes 4 l.cycles ++ leBytes 8 (l.powered / samplesPerSec) ++ leBytes 4 l.wear ++ leBytes 1 l.wearQ
      ++ zeros 3 ++ leBytes 8 l.snapTime
  else if k = 1 then words 96 (secs l.tj)
  else if k = 2 then words 16 (secs l.vdd)
  else if k = 3 then words 5 (secs l.use_)
  else if k = 4 then words 1024 fun i => if i % 8 = 6 then Tbl.get 0 l.lane i / 2 ^ 20 else Tbl.get 0 l.lane i
  else if k = 5 then words 256 (Tbl.get 0 l.ecc)
  else if k = 6 then (List.range 12).flatMap fun i => leBytes 8 (Tbl.get 0 l.tot i)
  else []

/-- A snapshot: header and sections (R536; the header's layout is log entry 22, DEDUCED). -/
def State.snapshot (s : State) : List Byte :=
  let body := (List.range 7).flatMap s.ledSec
  leBytes 4 0x5247444C ++ leBytes 4 s.led.seq ++ leBytes 4 body.length ++ leBytes 4 (crc32 body) ++ zeros 48 ++ body

/-- Where the snapshot of a seq lies. -/
def ledAddr (seq : Nat) : Nat := 0x200000 + 8192 * (seq % 4096)

/-- A snapshot with a good CRC: its seq and its sections. -/
def snapshotOf (b : List Byte) : Option (Nat × List Byte) :=
  let body := slice b 64 5716
  if fld b 0 4 = 0x5247444C && fld b 8 4 = 5716 && crc32 body = fld b 12 4 then some (fld b 4 4, body) else none

/-- Firmware writes a snapshot: the wear index anew, the write on CS1, then the slot two places on erased (R536). -/
def State.takeSnapshot (s : State) : State :=
  let (w, q) := wearIndex s.led.tj s.led.vdd
  let s1 := s.updLed fun l => { l with seq := l.seq + 1, wear := w, wearQ := q, snapTime := s.time }
  let n := s1.led.seq
  (s1.flPut 1 { off := ledAddr n, data := padTo 8192 (s1.snapshot), ledger := true, ends := .keep }).flPut 1
    { off := ledAddr (n + 2), erase := 2, ends := .keep }

/-- LEDGER_SNAPSHOT (R536): every 10 minutes while firmware runs. -/
def execLedgerSnapshot (s : State) : Out :=
  State.timed (if s.fwRuns then s.led.snapAt else none) (fun s =>
    s.takeSnapshot.updLed fun l => { l with snapAt := some (s.time + 600 * SEC) }) s

/-- PWR_WARN (R502, R539): the snapshot's write goes ahead of everything on CS1; one already in progress serves both. -/
def execPwrWarn (s : State) : Out :=
  State.plain (fun s =>
    if !s.fwRuns then s
    else
      let s1 := if s.boot.q1.any (·.ledger) then s else s.takeSnapshot
      s1.setFlQ 1 (s1.boot.q1.filter (·.ledger) ++ s1.boot.q1.filter fun x => !x.ledger)) s

/-- The numbers of a section added to a table, scaled. -/
def addSec (t : Tbl Nat) (body : List Byte) (o w n k : Nat) : Tbl Nat :=
  (List.range n).foldl (fun t i => t.upd 0 i fun v => v + k * fld body (o + w * i) w) t

/-- The snapshot in flash with the highest seq and a good CRC. -/
def State.lastSnapshot (s : State) : Option (Nat × List Byte) :=
  (List.range 4096).foldl (fun b i =>
    match snapshotOf (s.flBytes 1 (ledAddr i) 8192), b with
    | some x, some y => if y.1 < x.1 then some x else some y
    | some x, none => some x
    | none, b => b) none

/-- At firmware's first start after AO reset the snapshot with the highest seq and a good CRC is added in (R536). -/
def State.loadLedger (s : State) : State :=
  s.updLed fun l =>
    if l.loaded then l
    else match s.lastSnapshot with
    | none => { l with loaded := true }
    | some (q, b) =>
      { l with loaded := true, seq := q, cycles := sat32 l.cycles (fld b 4 4), powered := l.powered + fld b 8 8 * samplesPerSec,
               wear := fld b 16 4, wearQ := fld b 20 1, snapTime := fld b 24 8,
               tj := addSec l.tj b 32 4 96 samplesPerSec, vdd := addSec l.vdd b 416 4 16 samplesPerSec,
               use_ := addSec l.use_ b 480 4 5 samplesPerSec,
               lane := (List.range 1024).foldl (fun t i =>
                 t.upd 0 i fun v => v + (if i % 8 = 6 then 2 ^ 20 else 1) * fld b (500 + 4 * i) 4) l.lane,
               ecc := addSec l.ecc b 4596 4 256 1, tot := addSec l.tot b 5620 8 12 1 }

/-- LEDGER_READ (R536). -/
def execLedgerRead (mb : Nat) (s : State) : Out :=
  State.plain (State.serveMb mb 0x80 1 0 10 [(0, 1), (4, 4), (8, 2)] (fun a => 1 ≤ fld a 8 2 && fld a 8 2 ≤ 192) noAbsent
    false fun a s =>
      let k := fld a 0 1
      let o := fld a 4 4
      let n := fld a 8 2
      if 6 < k || ledSizes.getD k 0 < o + n then s.fin mb BAD_ARG
      else s.finish mb OK (slice (s.ledSec k) o n)) s

/-! ### Errors of stored bits (R523) -/

/-- An accumulator of the ledger restarts from its last value in flash. -/
def State.ledgerRestart (sec n : Nat) (s : State) : State :=
  let b := match s.lastSnapshot with | some (_, b) => b | none => []
  s.updLed fun l =>
    if sec = 1 then { l with tj := l.tj.put n (fld b (32 + 4 * n) 4 * samplesPerSec) }
    else if sec = 2 then { l with vdd := l.vdd.put n (fld b (416 + 4 * n) 4 * samplesPerSec) }
    else if sec = 3 then { l with use_ := l.use_.put n (fld b (480 + 4 * n) 4 * samplesPerSec) }
    else if sec = 4 then { l with lane := l.lane.put n ((if n % 8 = 6 then 2 ^ 20 else 1) * fld b (500 + 4 * n) 4) }
    else if sec = 5 then { l with ecc := l.ecc.put n (fld b (4596 + 4 * n) 4) }
    else if sec = 6 then { l with tot := l.tot.put n (fld b (5620 + 8 * n) 8) }
    else { l with powered := fld b 8 8 * samplesPerSec }

/-- A vector-engine table or queue that holds an error which cannot be corrected halts its site until SITE_MAP rewrites it. -/
def State.tableError (k : Nat) (s : State) : State :=
  if !(s.site k).bound then s
  else ((s.haltSite k hcTable 0 0 true).updSite k fun x => { x with bad := true }).event cVe (s.site k).first 0x800C k

/-- A record that reads with code 0x800C, class 0 and its seq (R533); its other fields are open. -/
def State.recordBad (n : Nat) (s : State) : State :=
  match Tbl.find s.rcd.ring n with
  | none => s
  | some e =>
    let (i, s1) := s.fresh
    let (t, s2) := s1.fresh
    let (l, s3) := s2.fresh
    let (a, s4) := s3.fresh
    let x : EvRec :=
      { e with code := 0x800C, cls := 0, inst := i % 4096, time := t % 2 ^ 64, last := l % 2 ^ 32,
               rep := bits l 47 32, coarse := bit l 48, coarse2 := bit l 49, alert := bit l 50, arg := a % 2 ^ 64 }
    s4.updRcd fun r => { r with ring := r.ring.put n x }

/-- An error strikes a structure of Table 16-1. One that its check code corrects is counted; one that it cannot correct has the
table's outcome at once, and in a steward's memory when the word is read (log entry 36, DESIGN CHOICE). -/
def State.strike (u : Upset) (s : State) : State :=
  match u with
  | .cell pe n err =>
    if err = 1 then s.ecc pe
    else if err = 2 then (s.updPe pe fun p => { p with summary := p.summary.put n 255 }).event cMs pe 0x800C n
    else s
  | .fail l n =>
    match (s.cu l).fifo[n]? with
    | some t => (s.updCu l fun c => { c with fifo := c.fifo.eraseIdx n }).crcFail cCu l t
    | none => s
  | .table k err =>
    if err = 1 && (s.site k).bound then s.ecc (68 + (s.site k).first) else when (err = 2) (State.tableError k) s
  | .burst k => s.tableError k
  | .tally u sp err =>
    if err = 1 then s.ecc (209 + u)
    else if err = 2 then
      ({ s with tally := s.tally.upd {} u fun x => { x with spaces := x.spaces.upd {} sp fun t => { t with ovf := true } } }).event
        cTu u 0x800C sp
    else s
  | .context n err =>
    match Tbl.find s.cm.cache n with
    | none => s
    | some (c, dirty) =>
      if err = 1 then s.ecc 215
      else if err = 2 then
        (if dirty then s.loseCtx c 0x10 false else s.updCm fun m => { m with cache := m.cache.del n }).event cCm 0 0x800C n
      else s
  | .iword st a err =>
    if err = 1 then s.ecc (197 + st)
    else when (err = 2) (State.updCore st fun c => { c with ibad := if c.ibad.contains (a / 4) then c.ibad else c.ibad ++ [a / 4] }) s
  | .dword st a err =>
    if err = 1 then s.ecc (197 + st)
    else when (err = 2) (State.updCore st fun c => { c with dbad := if c.dbad.contains (a / 4) then c.dbad else c.dbad ++ [a / 4] }) s
  | .record n err => if err = 1 then s.ecc 216 else when (err = 2) (State.recordBad n) s
  | .ledger k n err => when (err = 2) (State.ledgerRestart k n) s

/-! ### Repairs (R75, R524 to R526) -/

/-- A drawer set is drained to the Cabinet (R75, R525): its waiting tokens enter the spill buffer; none while that has no
room. -/
def State.drainSet (pe set : Nat) (s : State) : Option State :=
  let s0 := s.readSet pe set
  (((s0.pe pe).ways set).foldl (fun (o : Option State) w =>
      match o with | none => none | some s => s.spillEnt pe 0 w.2) (some s0)).map fun s1 =>
    s1.updPe pe fun p => { p with ents := p.ents.filter fun e => e.1 / 8 != set }

/-- A drawer set is retired: its waiting tokens move to the Cabinet first (R75); R108's event when A falls below the live
sum. The state is unchanged while the spill buffer has no room. -/
def State.retireSet (k set : Nat) (s : State) : State :=
  let pe := s.physOf k
  if (s.pe pe).retired.contains set || (s.pe pe).failed then s
  else
    match s.drainSet pe set with
    | none => s
    | some s1 =>
      let s2 := s1.updPe pe fun p => { p with retired := p.retired ++ [set] }
      let s3 := ((s2.updPat fun a => { a with retired := sat32 a.retired 1 }).event cPe pe 0x800E
        (set / 2048 + set % 2048 * 8)).tot 4
      let s4 := (s3.jrnl 0x08 [3, 0, k, set] []).restage k
      when (s.liveSum ≤ s.admLimit && s4.admLimit < s4.liveSum) (State.event cCm 0 0x80FF 0) s4

/-- A remap or the end of the spares, with its record (R526, Table 16-4). -/
def State.remapEvent (cls inst row : Nat) (spare : Option Nat) (s : State) : State :=
  let s1 := s.eventA spare.isNone cls inst 0x800F (row + spare.getD 0xFF * 2 ^ 32)
  if spare.isNone then s1 else (s1.updPat fun a => { a with remapped := sat32 a.remapped 1 }).tot 5

/-- The repair of a unit that a march has found failing (Table 16-2). -/
def State.repair (target u : Nat) (s : State) : State :=
  if target = 0 then s.retireSet (u / 16384) (u % 16384)
  else if target = 1 then
    let pe := s.physOf (u / 1024)
    let n := (s.pe pe).remaps
    if n < 8 then (s.updPe pe fun p => { p with remaps := n + 1 }).remapEvent cPe pe (u % 1024) (some n)
    else (s.remapEvent cPe pe (u % 1024) none).peFail pe 2
  else if target = 2 then
    let l := u / 128
    let n := (s.cu l).remaps
    if n < 2 then (s.updCu l fun c => { c with remaps := n + 1 }).remapEvent cCu l (u % 128) (some n)
    else (s.remapEvent cCu l (u % 128) none).holdOff l
  else
    let b := u / 512
    let n := Tbl.get 0 s.pat.shelfRemaps b
    if n < 4 then (s.updPat fun p => { p with shelfRemaps := p.shelfRemaps.put b (n + 1) }).remapEvent cSt 0 u (some n)
    else s.remapEvent cSt 0 u none

/-! ### Patrol (R525) -/

/-- Units of a target. -/
def State.patUnits (s : State) (t : Nat) : Nat :=
  if t = 0 then s.nPe * 16384 else if t = 1 then s.nPe * 1024 else if t = 2 then s.nLanes * 128 else 8192

/-- Whether a unit can be marched now: a PE in service and awake, a free code page (pages taken from the lowest up,
log entry 23, DESIGN CHOICE), an unbound lane. -/
def State.patOpen (s : State) (t u : Nat) : Bool :=
  if t = 0 then s.lpeOk (u / 16384) && s.domOn (quadDom (s.physOf (u / 16384)))
  else if t = 1 then s.lpeOk (u / 1024) && s.domOn (quadDom (s.physOf (u / 1024)))
      && 1024 - s.freePages (u / 1024) ≤ u % 1024
  else if t = 2 then (s.siteOfLane (u / 128)).isNone && s.domOn (lgDom (u / 1024))
  else true

/-- The next unit of the pass. -/
def State.patNext (s : State) : State :=
  s.updPat fun p =>
    if p.unit + 1 < s.patUnits p.target then { p with unit := p.unit + 1, done := p.done + 1 }
    else if p.target = 3 then { p with target := 0, unit := 0, done := 0 }
    else { p with target := p.target + 1, unit := 0, done := p.done + 1 }

/-- Whether every present lane is bound. -/
def State.allBound (s : State) : Bool := (List.range s.nLanes).all fun l => (s.siteOfLane l).isSome

/-- Whether a failing set can be drained now: the spill buffer has room for its tokens. -/
def State.drainRoom (s : State) (t u : Nat) : Bool :=
  t != 0 || ((s.pe (s.physOf (u / 16384))).ways (u % 16384)).length + (s.pe (s.physOf (u / 16384))).spill.length ≤ 32

/-- The march of an open unit: a drawer set is drained to the Cabinet, marched and returned (R525); a unit that fails is
repaired. A free code page, an unbound lane's fret row and a Shelf row, restored, show nothing when they pass. -/
def State.march (failed : Bool) (t u : Nat) (s : State) : State :=
  if !s.patOpen t u then s
  else if failed then s.repair t u
  else if t = 0 && !(s.pe (s.physOf (u / 16384))).retired.contains (u % 16384) then
    (s.drainSet (s.physOf (u / 16384)) (u % 16384)).getD s
  else s

/-- PATROL_UNIT (R525, R526): a unit named in an uncorrectable error is patrolled next; fret rows wait, starved, while every
lane is bound, and a drawer set while the spill buffer has no room for it. `failed` says what the march finds. -/
def State.patrol (failed : Bool) (s : State) : State :=
  let (t0, u0) := s.pat.flagged.headD (s.pat.target, s.pat.unit)
  if !s.fwRuns || bits (s.ioReg 0x7150 24) 15 0 = 0 || (s.patOpen t0 u0 && !s.drainRoom t0 u0) then s
  else
    let s1 := s.updPat fun p => { p with starved := s.allBound && p.target == 2 }
    match s.pat.flagged with
    | (t, u) :: r => (s1.updPat fun p => { p with flagged := r }).march failed t u
    | [] => (s1.march failed s.pat.target s.pat.unit).patNext

/-- PATROL_UNIT: an error that has struck an array shows, and patrol goes on. -/
def execPatrolUnit (failed : Bool) (upset : Option Upset) (s : State) : Out :=
  State.plain (fun s => (match upset with | some u => s.strike u | none => s).patrol failed) s

end Sys2Proof.Machine
end

