-- ==== Sys2Proof/Machine/Power.lean ====
section
/-! DEFINITION. Power domains, fabric sleep, the AO timebase, supplies and references, and the reset that leaves PD00 alone
(R468 to R483, R494). -/

namespace Sys2Proof.Machine
open Sys2Proof

/-! ### Domains (R468, R469, Table 14-1) -/

/-- Whether a part holds a domain. -/
def State.domPresent (s : State) (d : Nat) : Bool :=
  let n (first count : Nat) : Bool := first ≤ d && d < first + count
  if d = 4 then s.otp.part == 0
  else if d < 7 || d = 11 || d = 12 || d = 49 then true
  else n 7 (s.byPart 4 2 1) || n 13 (s.byPart 4 2 0) || n 17 s.nLg || n 33 s.nPq

/-- Whether a domain can take a state: 0 OFF, 1 RETENTION, 2 ON. -/
def domCan (d st : Nat) : Bool :=
  if d = 0 || d = 3 then st == 2
  else if d = 1 || d = 2 || d = 5 || d = 6 then st == 1 || st == 2
  else if d = 4 then st == 0 || st == 2
  else st ≤ 2

/-- The rails that a domain needs, by bit of PWR_RAILS (Table 14-5). -/
def domRails (d : Nat) : List Nat :=
  if d = 0 then [0, 1]
  else if d = 3 || d = 4 || (17 ≤ d && d ≤ 32) then [0, 1, 2, 3, 4, 5]
  else if 7 ≤ d && d ≤ 10 then [0, 1, 2, 3, 6]
  else [0, 1, 2, 3]

/-- Whether every rail that a domain needs is good, FREF among them (R480, R481). -/
def State.railsOk (s : State) (d : Nat) : Bool := (domRails d).all (bit s.pwr.rails) && (d == 0 || s.pwr.fref)

/-- The PEs of a quad domain, the lane group, the sites and the channels of a domain. -/
def domPes (d : Nat) : List Nat := (List.range 68).filter fun p => quadDom p == d
def domLanes (d : Nat) : List Nat := if 17 ≤ d && d ≤ 32 then (List.range 8).map (8 * (d - 17) + ·) else []
def State.domSites (s : State) (d : Nat) : List Nat :=
  (List.range 128).filter fun k => (s.site k).bound && (s.site k).laneList.any fun l => lgDom (l / 8) == d
def domChans (d : Nat) : List Nat := if 7 ≤ d && d ≤ 10 then [2 * (d - 7), 2 * (d - 7) + 1] else []

/-- Whether a PE holds waiting tokens or firings, or work under way. -/
def Pe.holds (p : Pe) : Bool :=
  !(p.ents.isEmpty && p.spill.isEmpty && p.park.isEmpty && p.half.isEmpty && p.qU.isEmpty && p.qG.isEmpty && p.inU.isEmpty
    && p.inG.isEmpty && p.outL.all (·.2.isEmpty) && p.ready.isEmpty && p.fk.isEmpty && p.ovf.isEmpty && p.fire.isEmpty
    && p.svc.isEmpty && p.rsp.isEmpty && p.trapIn.isEmpty)

/-- Whether a physical PE holds code words. -/
def State.peCode (s : State) (p : Nat) : Bool :=
  match s.logOf p with
  | some k => s.cm.blocks.any fun b => b.2.wordsOn k != 0
  | none => false

/-- The blocks of Table 14-3 on a state of a domain. -/
def State.domBusy (s : State) (d st : Nat) : Bool :=
  if st = 0 then
    if 33 ≤ d && d ≤ 48 then (domPes d).any fun p => (s.pe p).holds || s.peCode p
    else if 17 ≤ d && d ≤ 32 then
      (s.domSites d).any fun k => s.cm.jobs.any (fun j => bit j.2.sites k) || s.cm.queue.any fun j => bit j.sites k
    else if d = 11 || d = 12 then s.outEn (d - 11)
    else if d = 49 then s.cabOn
    else if 7 ≤ d && d ≤ 10 then (domChans d).any s.dcOn
    else if 13 ≤ d && d ≤ 16 then s.anyJob
    else false
  else if st = 1 then
    if 17 ≤ d && d ≤ 32 then
      ((s.domSites d).any fun k => !(s.site k).queue.isEmpty || (s.site k).cur.isSome)
        || (domLanes d).any fun l => !(s.cu l).frets.isEmpty
    else if d = 11 || d = 12 then !(s.outlet (d - 11)).open_.isEmpty || !(s.outlet (d - 11)).done.isEmpty
    else false
  else false

/-- The outcome of a setting (Table 14-3): the status of the first refusal. -/
def State.domCheck (s : State) (d st : Nat) : Option Nat :=
  if !s.domPresent d then some ABSENT
  else if d = 0 || d = 3 || d = 4 || d = 5 || d = 6 then some DENIED
  else if 2 < st || !domCan d st then some BAD_ARG
  else if s.domBusy d st then some BUSY
  else none

/-! ### What a domain loses and keeps -/

/-- The stored shared registers in [lo, hi) take their reset values again. -/
def State.dropRegs (lo hi : Nat) (s : State) : State := { s with regs := s.regs.filter fun r => !(lo ≤ r.1 && r.1 < hi) }

/-- What outlives the content of a PE and of a compare unit: retired sets, remaps, failure (R526). -/
def Pe.bare (p : Pe) : Pe := { retired := p.retired, remaps := p.remaps, failed := p.failed }
def Cu.bare (c : Cu) : Cu := { remaps := c.remaps }

/-- A domain's content is lost (R469). The lanes' LP_CFG is kept: firmware writes it again (log entry 24, DEDUCED). -/
def State.domLose (d : Nat) (s : State) : State :=
  if 33 ≤ d && d ≤ 48 then (domPes d).foldl (fun s p => s.updPe p Pe.bare) s
  else if 17 ≤ d && d ≤ 32 then
    let s1 := (domLanes d).foldl (fun s l => (s.lanePower l).updCu l Cu.bare) s
    ((s.domSites d).foldl (fun s k => s.updSite k fun _ => {}) s1).updLg (d - 17) fun _ => {}
  else if d = 11 || d = 12 then (s.updOutlet (d - 11) fun _ => {}).dropRegs (outReg (d - 11) 0) (outReg (d - 11) 0x20)
  else if 13 ≤ d && d ≤ 16 then s.updTu (d - 13) fun _ => {}
  else if d = 49 then { s with cab := {} }.dropRegs 0xD800 0xD900
  else if d = 3 then s.updHost fun h => { h with pf0 := {}, pf1 := {} }
  else if d = 4 then s.updPair fun p => { p with trained := false, lanes := 0 }
  else
    (domChans d).foldl (fun s c =>
      { s.updDc c fun _ => {} with ddr := s.ddr.filter fun b => s.chanOfAddr b.1 != c,
                                   ddrPoison := s.ddrPoison.filter fun l => s.chanOfAddr (128 * l) != c,
                                   ddrUpset := s.ddrUpset.filter fun u => s.chanOfAddr (128 * u.1) != c }) s

/-! ### Transitions (R470 to R472) -/

/-- A setting completes (R471): the response is the previous set state. -/
def State.domReply (src : CmdSrc) (status prev : Nat) (s : State) : State :=
  match src with
  | .mb m => s.finish m status (if status = OK then leBytes 1 prev else [])
  | .port _ _ => s.updPwr fun p => { p with cmdBusy := false, cmdPrev := prev, cmdStat := status }

/-- The device tells the lanes of a group that is to sleep or to lose power (R318): LANE_SLEEP or LANE_OFF on lanes
in service. -/
def State.tellLanes (d st : Nat) (s : State) : State :=
  (domLanes d).foldl (fun s l =>
    if (s.lane l).inService then s.queueCtrl l (if st = 0 then 0x13 else 0x12) 0 [] else s) s

/-- A domain begins to enter a state (R470): a PE quad flushes its trace first while the ring is on (R479). -/
def State.domEnter (d st : Nat) (s : State) : State :=
  let s1 := s.updDom d fun x => { x with going := some st }
  if st = 2 then s1
  else if 33 ≤ d && d ≤ 48 then
    when (s.trRingOn && (s.dom d).state == 2) (State.updPwr fun p =>
      { p with flush := p.flush ++ [d - 33], flushAt := p.flushAt.put (d - 33) s.time }) s1
  else s1.tellLanes d st

/-- A domain moves toward its set state when it is free to. -/
def State.domSeek (d : Nat) (s : State) : State :=
  let x := s.dom d
  let want := if (x.down != 0 || x.rest) && x.set_ = 2 then 1 else x.set_
  if x.going.isSome || x.reset_ || x.state = want then s else s.domEnter d want

/-- Settings that wait for a state which the domain now has complete. -/
def State.domServe (d : Nat) (s : State) : State :=
  let x := s.dom d
  if x.going.isNone && x.state = x.set_ then
    x.waits.foldl (fun s w => s.domReply w.1 OK w.2) (s.updDom d fun x => { x with waits := [] })
  else s

/-- A setting takes effect (R471). -/
def State.setDomain (src : CmdSrc) (d st : Nat) (s : State) : State :=
  match s.domCheck d st with
  | some c => s.domReply src c (s.dom d).set_
  | none =>
    let prev := (s.dom d).set_
    ((s.updDom d fun x => { x with set_ := st, rest := false, waits := x.waits ++ [(src, prev)] }).domSeek d).domServe d

/-- A quad's trace flush that has lasted 1 µs ends (R479): the records not written, the SLEEP record among them, are dropped
and counted. -/
def State.flushDrop (q : Nat) (s : State) : State :=
  if !s.pwr.flush.contains q then s
  else
    let n := (Tbl.get [] s.trace.coll q).length + 1
    (s.updTrace fun t =>
      { t with coll := t.coll.put q [], lost := bump t.lost q n, lossCnt := sat32 t.lossCnt n, loss := true }).updPwr fun p =>
        { p with flush := p.flush.filter (· != q), slept := p.slept ++ [q] }

/-- The WAKE record comes first when a quad wakes, then a LOSS record if any was dropped (R479). -/
def State.quadAwake (q : Nat) (s : State) : State :=
  if s.pwr.slept.contains q then
    let k := Tbl.get 0 s.trace.lost q
    let s1 := (s.updPwr fun p => { p with slept := p.slept.filter (· != q) }).traceQuad q 0x21
    when (k != 0) (State.updTrace fun t =>
      { t with lost := t.lost.put q 0,
               coll := t.coll.upd [] q (· ++ [{ time := s.time, ty := 0x11, origin := 0x80 + q, data := k, flags := b2n s.coarse }]) }) s1
  else s

/-- A domain's clocks have stopped, or its power is gone: the sleep mark is broadcast (Table 10-1; log entry 114, DESIGN
CHOICE). -/
def State.domSlept (d st : Nat) (s : State) : State :=
  let s1 := (when (33 ≤ d && d ≤ 48) (State.flushDrop (d - 33)) (s.updDom d fun x =>
    { x with state := st, going := none, woken := false })).notice (.sleep d)
  let s2 := if st = 0 then s1.domLose d
    else (domChans d).foldl (fun s c => s.updDc c fun y => { y with selfRef := true })
      ((domLanes d).foldl (fun s l => s.laneSleep l) s1)
  s2.domServe d

/-- A domain is up: the wake mark is broadcast, and what waited for it is delivered (R343, R340, R195). -/
def State.domUp (d : Nat) (s0 : State) : State :=
  let s := s0.notice (.wake d)
  let s1 := s.updDom d fun x =>
    { x with state := 2, going := none, wake := false, rest := false, woken := x.set_ != 2, idleSince := s.time }
  let s2 := (domLanes d).foldl (fun s l => (s.laneWake l).lanePower l) s1
  let s3 := (domChans d).foldl (fun s c => s.updDc c fun y => { y with selfRef := false, trained := s.dcOn c }) s2
  let s4 := when (33 ≤ d && d ≤ 48) (State.quadAwake (d - 33)) s3
  let s5 := (s4.finishLoads.releaseNotices d).releasePkts fun e =>
    epDom e == d && (match e with | .pe n => !s.loadingSpare n | _ => true)
  s5.domServe d

/-- Whether an entry can complete: the trace is flushed or has been for 1 µs, and LANE_SLEEP or LANE_OFF is on its way (R318,
R479). -/
def State.entryReady (s : State) (d : Nat) : Bool :=
  (d < 33 || 48 < d || !s.pwr.flush.contains (d - 33) || Tbl.get 0 s.pwr.flushAt (d - 33) + US ≤ s.time) &&
    (domLanes d).all fun l => !(s.lane l).inService || (s.lane l).ctrlQ.isEmpty

/-- No domain but PD05 and PD06 leaves RETENTION or OFF before TIME reaches T_w + 500 (R477). -/
def State.mayWake (s : State) (d : Nat) : Bool := d == 5 || d == 6 || s.pwr.wakeCnt == 0 || s.pwr.tw + 500 ≤ s.time

/-- The entry or the wake of a domain that is in progress is done (R343, R345, R470). -/
def State.transition (d : Nat) (s : State) : State :=
  let x := s.dom d
  if x.reset_ || s.pwr.asleep || !s.domPresent d then s
  else
    match x.going with
    | some 2 => if s.mayWake d then (s.domUp d).domSeek d else s
    | some st => if !s.entryReady d then s else (s.domSlept d st).domSeek d
    | none => if x.wake && x.state != 2 && x.down = 0 && s.mayWake d then s.domUp d
              else s.domSeek d

/-- Whether a domain has no work (R472). -/
def State.domIdle (s : State) (d : Nat) : Bool :=
  if 33 ≤ d && d ≤ 48 then
    (domPes d).all fun n =>
      let p := s.pe n
      p.spill.isEmpty && p.park.isEmpty && p.half.isEmpty && p.qU.isEmpty && p.qG.isEmpty && p.inU.isEmpty && p.inG.isEmpty
        && p.ready.isEmpty && p.fk.isEmpty && p.ovf.isEmpty && p.fire.isEmpty && p.svc.isEmpty && p.rsp.isEmpty
        && p.trapIn.isEmpty && p.sweeps.isEmpty
  else if 17 ≤ d && d ≤ 32 then
    (s.lg (d - 17)).ops.isEmpty && (s.lg (d - 17)).inbox.isEmpty && !s.domBusy d 1
      && (domLanes d).all fun l => (s.cu l).fifo.isEmpty
  else if 7 ≤ d && d ≤ 10 then
    (domChans d).all fun c => (s.dc c).q.isEmpty && (s.dc c).atomics.isEmpty && (s.dc c).istr.isEmpty
  else if d = 11 || d = 12 then !s.domBusy d 1 && (s.outlet (d - 11)).ports.all (·.2.isEmpty)
  else if 13 ≤ d && d ≤ 16 then (s.tu (d - 13)).q.isEmpty
  else if d = 49 then s.pes.all fun p => p.2.spill.isEmpty && p.2.park.isEmpty
  else if d = 1 then
    (List.range 4).all (fun st => (s.core st).idle) && s.shelfQ.isEmpty && s.shelfAtomics.isEmpty
      && (List.range 16).all fun m => (s.mb m).state != 1 && (s.mb m).state != 2
  else true

/-- The hold-off of PWR_HOLDOFF, in fc. -/
def State.holdoff (s : State) : Nat := s.ioReg 0x3043 100 * US

/-- DOMAIN_IDLE_HOLDOFF (R472). -/
def execDomainIdleHoldoff (d : Nat) (s : State) : Out :=
  let x := s.dom d
  State.timed (if x.woken && x.state = 2 && x.going.isNone && x.set_ != 2 && s.domIdle d then some (x.idleSince + s.holdoff)
               else none)
    (fun s => s.domSeek d) s

/-- QUAD_TRACE_FLUSH (R479): every record of the collector is written to the ring, the SLEEP record last. -/
def execQuadTraceFlush (quad : Nat) (s : State) : Out :=
  State.plain (fun s =>
    if !s.pwr.flush.contains quad then s
    else
      let n := (Tbl.get [] s.trace.coll quad).length + 1
      let s1 := (List.range n).foldl (fun s _ => s.collWrite quad) s
      ((s1.traceQuad quad 0x20).collWrite quad).updPwr fun p =>
        { p with flush := p.flush.filter (· != quad), slept := p.slept ++ [quad] }) s

/-! ### The policy between insertions and fabric sleep (R473, R475, R476) -/

/-- PWR_POLICY's level. -/
def State.polLevel (s : State) : Nat := bits (s.ioReg 0x3042 0) 1 0

/-- The domains of a step of Table 14-4. -/
def sleepDoms (k : Nat) : List Nat :=
  if k = 1 then (List.range 16).map (33 + ·)
  else if k = 2 then [13, 14, 15, 16, 11, 12, 49]
  else if k = 3 then (List.range 16).map (17 + ·)
  else if k = 4 then [7, 8, 9, 10]
  else if k = 5 then [1, 2]
  else []

/-- A domain is put to rest when nothing blocks it. -/
def State.domRest (d : Nat) (s : State) : State :=
  let x := s.dom d
  if !s.domPresent d || x.reset_ || x.state != 2 || x.going.isSome || s.domBusy d 1 || !s.domIdle d then s
  else (s.updDom d fun x => { x with rest := true }).domEnter d 1

/-- POLICY_APPLY (R473). -/
def execPolicyApply (s : State) : Out :=
  State.timed (if s.polLevel = 0 || s.anyJob || s.pwr.asleep then none else s.pwr.idleAt.map (· + s.holdoff)) (fun s =>
    let s1 := ([1, 2, 3, 4].flatMap sleepDoms).foldl (fun s d => s.domRest d) s
    when (s.polLevel == 2 && s.pwr.step == 0) (State.updPwr fun p => { p with step := 1 }) s1) s

/-- Whether every domain of a step rests. -/
def State.stepDone (s : State) (k : Nat) : Bool :=
  (sleepDoms k).all fun d => !s.domPresent d || (s.dom d).reset_ || ((s.dom d).state != 2 && (s.dom d).going.isNone)

/-- The condition under which a step can begin (Table 14-4). -/
def State.stepCond (s : State) (k : Nat) : Bool :=
  if k = 4 then s.trace.coll.all (·.2.isEmpty)
  else if k = 5 then s.domIdle 1
  else true

/-- The fabric falls asleep: TIME is handed to the AO timebase at T_s (R477). -/
def State.fallAsleep (s : State) : State :=
  let s1 := s.event cPwr 0 0x8001 0
  ([5, 6].foldl (fun s d => s.updDom d fun x => { x with state := 1 }) s1).updPwr fun p =>
    { p with asleep := true, step := 6, ts := s.time }

/-- FABRIC_SLEEP_STEP (R475): a step begins when the one before is complete. -/
def execFabricSleepStep (s : State) : Out :=
  State.plain (fun s =>
    let k := s.pwr.step
    if k = 0 || s.pwr.asleep || s.anyJob then s
    else if !s.stepDone k then (sleepDoms k).foldl (fun s d => s.domRest d) s
    else if !s.stepCond (k + 1) then s
    else if k = 5 then s.fallAsleep
    else (sleepDoms (k + 1)).foldl (fun s d => s.domRest d) (s.updPwr fun p => { p with step := k + 1 })) s

/-- An entry that has not stopped the PLLs is abandoned, the steps undone in reverse order (R476). -/
def State.sleepAbandon (s : State) : State :=
  let ds := ([5, 4, 3, 2, 1].filter (· ≤ s.pwr.step)).flatMap sleepDoms
  (ds.foldl (fun s d => s.updDom d fun x =>
    if x.reset_ || x.set_ != 2 then x
    else if x.state = 2 then { x with going := none, rest := false } else { x with wake := true }) s).updPwr fun p =>
      { p with step := 0, flush := [] }

/-- The fabric wakes at T_w, the next AO tick (R475, R477): PD05, PD06, PD01, PD02 and the DDR5 pairs come up. -/
def State.fabricUp (input : Nat) (s : State) : State :=
  let s1 := [5, 6].foldl (fun s d => s.updDom d fun x => { x with state := 2 }) s
  let s2 := [1, 2, 7, 8, 9, 10].foldl (fun s d =>
    if s.domPresent d && (s.dom d).set_ = 2 then s.updDom d fun x => { x with wake := true } else s) s1
  (s2.updPwr fun p => { p with asleep := false, waking := none, step := 0, tw := s.time, wakeCnt := sat32 p.wakeCnt 1,
                               idleAt := if s.anyJob then none else some s.time }).event cPwr 0 0x8002 input

/-! ### Throttle and policy settings (R473, R474) -/

/-- The level in force. -/
def State.throttle (s : State) : Nat := max s.pwr.hostThr s.pwr.snThr

/-- The host's throttle level takes effect; the response is the level before. -/
def State.hostThrottle (mb k : Nat) (s : State) : State :=
  (s.updPwr fun p => { p with hostThr := k }).finish mb OK (leBytes 1 s.pwr.hostThr)

/-- The named fields of POWER_POLICY. -/
def ppNamed : List (Nat × Nat) := [(0, 1), (1, 1), (2, 1), (4, 4)]

/-- The rank of a mailbox's command: the BMC's safety class is 1 (R415). -/
def mbRank (m : Nat) : Nat := if m = 15 then 1 else 2

/-- POWER_POLICY op 0 or PWR_CMD (R471): the command lands at the domain's arbiter; a replay acts at once. -/
def execPowerPolicyDomain (src : CmdSrc) (s : State) : Out :=
  State.plain (fun s =>
    match src with
    | .mb m => State.serveMb m 0x90 3 0 8 ppNamed (fun a => fld a 1 1 ≤ 49) (fun a => fld a 0 1 = 0 && !s.domPresent (fld a 1 1))
        true (fun a s => if 16 ≤ m then s.setDomain (.mb m) (fld a 1 1) (fld a 2 1)
          else s.land (.domain (fld a 1 1)) (mbRank m) (.setDomain (.mb m) (fld a 2 1))) s
    | .port st w =>
      let d := bits w.toNat 5 0
      if s.pwr.cmdBusy || !s.domOn 1 then s
      else if 49 < d then s.updPwr fun p => { p with cmdStat := BAD_ARG }
      else (s.updPwr fun p => { p with cmdBusy := true }).land (.domain d) (if bit w.toNat 10 then 1 else 2)
        (.setDomain (.port st w) (bits w.toNat 9 8))) s

/-- POWER_POLICY op 1 (R473): level and hold-off, kept in the settings store. -/
def execPowerPolicyInsertions (mb : Nat) (s : State) : Out :=
  State.plain (State.serveMb mb 0x90 3 1 8 ppNamed okArgs noAbsent false fun a s =>
    let l := fld a 2 1
    let h := fld a 4 4
    if 2 < l || h < 10 || 10000000 < h then s.fin mb BAD_ARG
    else
      let prev := s.polLevel
      (((s.setReg (.io 0) 0x3042 l).setReg (.io 0) 0x3043 h).persist 0x50 (leBytes 1 l ++ leBytes 4 h)).finish mb OK
        (leBytes 1 prev)) s

/-- POWER_POLICY op 2 (R474): the command lands at the arbiter of the fabric clock. -/
def execPowerPolicyThrottle (mb : Nat) (s : State) : Out :=
  State.plain (State.serveMb mb 0x90 3 2 8 ppNamed (fun a => fld a 2 1 ≤ 7 && fld a 4 4 = 0) noAbsent true fun a s =>
    if 16 ≤ mb then s.hostThrottle mb (fld a 2 1)
    else s.land .throttle (mbRank mb) (.throttle mb (fld a 2 1))) s

/-! ### Resets (R480, R481, R494) -/

/-- The registers of PD00: power controller and sentinel, event recorder, I3C target. -/
def aoReg (k : Nat) : Bool := (0x3000 ≤ k && k < 0x5000) || (0x7000 ≤ k && k < 0x7100) || 8 * 2 ^ 32 ≤ k

/-- Every domain except PD00 is put in reset and loses its content; PD00, the fuses, the flash, the firmware's records of
repairs and the host's memory stay. -/
def State.coldReset (s : State) : State :=
  { otp := s.otp, time := s.time, freeCnt := s.freeCnt, pending := s.pending,
    regs := s.regs.filter fun r => aoReg r.1,
    pes := s.pes.map fun p => (p.1, { p.2.bare with failed := false }),
    cus := s.cus.map fun c => (c.1, c.2.bare),
    host := { mem := s.host.mem, bad := s.host.bad, bmcAlert := s.host.bmcAlert },
    i3c := s.i3c,
    pair := { prefHigh := s.pair.prefHigh },
    pwr := { s.pwr with doms := s.pwr.doms.map (fun d => if d.1 = 0 then d else (d.1, { set_ := d.2.set_ })),
                        asleep := false, step := 0, waking := none, idleAt := some s.time, flush := [], slept := [],
                        cmdBusy := false },
    sn := s.sn,
    boot := { cs0 := s.boot.cs0, cs1 := s.boot.cs1, resetLow := s.boot.resetLow, bootSel := s.boot.bootSel },
    sec := { latch := s.sec.latch, src := s.sec.src, cnt := s.sec.cnt, fails := s.sec.fails, tmpCfg := s.sec.tmpCfg,
             drbg := s.sec.drbg, entropyBad := s.sec.entropyBad },
    rcd := s.rcd, led := { s.led with snapAt := none },
    pat := { retired := s.pat.retired, remapped := s.pat.remapped, shelfRemaps := s.pat.shelfRemaps } }

/-- VDD_AO has failed: PD00 starts again as well; only what needs no power stays. -/
def State.aoReset (s : State) : State :=
  { s.coldReset with regs := [], i3c := {}, pwr := { rails := s.pwr.rails, fref := s.pwr.fref, lref := s.pwr.lref },
                     sn := {}, rcd := { intake := [{ code := 0x8000, arg := 1, time := s.time }] }, led := {}, sec := {},
                     host := { mem := s.host.mem, bad := s.host.bad },
                     pair := { prefHigh := s.pair.prefHigh } }

/-- A domain leaves reset in OFF and takes its set state (R480): the domains that boot at once are on with their PLLs'
lock, PD04 waits for pair mode. -/
def State.leaveReset (d : Nat) (s : State) : State :=
  if !s.domPresent d || !(s.dom d).reset_ || !s.railsOk d || s.boot.resetLow || s.sn.trip then s
  else if d = 1 || d = 2 || d = 3 || d = 5 || d = 6 then s.updDom d fun x => { x with reset_ := false, state := 2 }
  else if d = 4 then s.updDom d fun x => { x with reset_ := false, state := 0, set_ := if s.pair.en then 2 else 0 }
  else (s.updDom d fun x => { x with reset_ := false, state := 0 }).domSeek d

/-- Every domain that can leaves reset; the boot ROM starts when the steward cluster does (R495). -/
def State.leaveResets (s : State) : State :=
  let s1 := (List.range 50).foldl (fun s d => s.leaveReset d) s
  if (s.dom 1).reset_ && !(s1.dom 1).reset_ then s1.updBoot fun b => { b with dev := 0, step := 1 } else s1

/-- The lanes in link of a lane group in reset are lost with cause 0x01; the PEs of a quad in reset fail (R481). -/
def State.railHit (ds : List Nat) (s : State) : State :=
  let s1 := (ds.flatMap domLanes).foldl (fun s l => if (s.lane l).linked then s.loseLane l 1 2 else s) s
  (ds.flatMap domPes).foldl (fun s p => if (s.logOf p).isSome && s.peFitted p then s.peFail p 0 else s) s1

/-- The domains that a rail feeds. -/
def State.railDoms (s : State) (rail : Nat) : List Nat :=
  (List.range 50).filter fun d => s.domPresent d && (domRails d).contains rail

/-- Domains are put in reset by a lost rail; a loss of VDD_CORE or VDD_SRAM takes everything but PD00. -/
def State.domsReset (ds : List Nat) (s : State) : State :=
  if ds.contains 1 then (s.railHit ds).coldReset
  else
    ds.foldl (fun s d => (s.updDom d fun x => { set_ := x.set_ }).domLose d) (s.railHit ds)

/-- RAIL_BAD (R481). -/
def execRailBad (rail : Nat) (s : State) : Out :=
  State.plain (fun s =>
    if !bit s.pwr.rails rail || 7 ≤ rail then s
    else
      let s1 := s.updPwr fun p => { p with rails := p.rails - 2 ^ rail, railLoss := sat32 p.railLoss 1 }
      if rail ≤ 1 then s1.aoReset
      else
        let ds := s.railDoms rail
        ((s1.domsReset ds).event cPwr rail 0x8003 (maskOf ds)).tot 8) s

/-- RAIL_GOOD (R480, R481). -/
def execRailGood (rail : Nat) (s : State) : Out :=
  State.plain (fun s =>
    if bit s.pwr.rails rail || 7 ≤ rail then s
    else (s.updPwr fun p => { p with rails := p.rails + 2 ^ rail }).leaveResets) s

/-- FREF_LOSS (R481): as a loss of VDD_CORE while the fabric runs. -/
def execFrefLoss (s : State) : Out :=
  State.plain (fun s =>
    if !s.pwr.fref then s
    else
      let s1 := s.updPwr fun p => { p with fref := false }
      if !s.fabricRuns then s1
      else
        let ds := s.railDoms 2
        (((s1.updPwr fun p => { p with railLoss := sat32 p.railLoss 1 }).domsReset ds).event cPwr 2 0x8003 (maskOf ds)).tot 8) s

/-- FREF_RETURN (R481). -/
def execFrefReturn (s : State) : Out :=
  State.plain (fun s => if s.pwr.fref then s else (s.updPwr fun p => { p with fref := true }).leaveResets) s

/-- A lane of the Bridge leaves link (R438). -/
def State.loseBridgeLane (k : Nat) (s : State) : State :=
  if bit s.pair.lanes k then (s.updPair fun p => { p with lanes := p.lanes - 2 ^ k }).event cBr k 0x80FF 0 else s

/-- LREF_LOSS (R432, R481): every lane that LREF[k] clocks is lost with cause 0x01; LREF[3] clocks the Bridge too. -/
def execLrefLoss (k : Nat) (s : State) : Out :=
  State.plain (fun s =>
    let s1 := ((List.range 32).map (32 * k + ·)).foldl (fun s l => if (s.lane l).linked then s.loseLane l 1 2 else s)
      (s.updPwr fun p => { p with lref := p.lref &&& (15 - 2 ^ k) })
    if k = 3 then (List.range 8).foldl (fun s i => s.loseBridgeLane i) s1 else s1) s

/-- RESET_ASSERT (R494, R489): a thermal trip ends when every sensor is below 125 °C. -/
def execResetAssert (s : State) : Out :=
  State.plain (fun s =>
    let cool : Bool := (s.sn.inputs.take 48).all fun t => t < 500
    let s1 := s.coldReset.updBoot fun b => { b with resetLow := true }
    when cool (State.updSn fun n => { n with trip := false }) s1) s

/-- PWR_AVS_WRITE (R480, R492): a target outside 720 to 800 mV is ignored. -/
def State.avsWrite (v : Nat) (s : State) : State :=
  let t := bits v 9 0
  if 720 ≤ t && t ≤ 800 then s.updPwr fun p => { p with avs := t } else s

def execPwrAvsWrite (v : Word) (s : State) : Out := State.plain (State.avsWrite v.toNat) s

end Sys2Proof.Machine
end

