-- ==== Sys2Proof/Machine/Security.lean ====
section
/-! DEFINITION. Keys, the KEK, tamper alarms and their clearing, the entropy source (R504, R512 to R522). -/

namespace Sys2Proof.Machine
open Sys2Proof

/-- The security engine derives the KEK while the tamper latch is clear (R512). -/
def State.deriveKek (s : State) : State :=
  if s.sec.latch then s
  else s.updSec fun x => { x with kek := some (Config.kdf s.otp.root (leBytes 8 s.otp.serial)) }

/-- The status of a key operation is the last one (R522). -/
def State.secFin (mb c : Nat) (rsp : List Byte) (s : State) : State :=
  (s.updSec fun x => { x with stat := c }).finish mb c rsp

/-- A command of the security engine waits, queued, while its domain sleeps, which it wakes (R343). -/
def State.secServe (mb id : Nat) (f : State → State) (s : State) : State :=
  if (s.mb mb).state = 1 && (s.mb mb).cmdId = id && !s.domOn 2 && (s.dom 2).state = 1 then s.wakeDom 2 else f s

/-- KEY_LOAD (R513). -/
def execKeyLoad (mb : Nat) (s : State) : Out :=
  State.plain (State.secServe mb 0x71 (State.serveMb mb 0x71 1 0 48 [(0, 2), (8, 40)] okArgs noAbsent false fun a s =>
    let id := fld a 0 2
    if id = 0 then s.secFin mb BAD_ARG []
    else
      match (if s.sec.latch then none else s.sec.kek) with
      | none => s.secFin mb DENIED []
      | some kek =>
        match Config.keyUnwrap kek (slice a 8 40) with
        | none => s.secFin mb VERIFY_FAIL []
        | some k =>
          if (Tbl.find s.sec.keys id).isNone && 16 ≤ s.sec.keys.length then s.secFin mb DENIED []
          else (s.updSec fun x => { x with keys := x.keys.put id k }).secFin mb OK [])) s

/-! ### Tamper (R516 to R520) -/

/-- The encrypted blocks resident. -/
def State.encBlocks (s : State) : List Nat := (s.cm.blocks.filter fun b => bit b.2.flags 0).map (·.1)

/-- Encrypted loads in progress end with ABORTED_TAMPER; their blocks are not resident (Table 15-10). -/
def State.abortLoads (s : State) : State :=
  (List.range 32).foldl (fun s m =>
    let x := s.mb m
    let n := fld x.data 0 2
    match (if x.state = 2 && x.id = 0x10 then Tbl.find s.cm.blocks n else none) with
    | some b =>
      if b.loading && bit b.flags 0 then
        (s.updCm fun c => { c with blocks := c.blocks.del n }).secFin m ABORTED_TAMPER [0xFF]
      else s
    | none => s) s

/-- Every UP site is halted with cause "sentinel" (R487, R518). -/
def State.haltAll (s : State) : State :=
  (List.range 128).foldl (fun s k => if s.siteUp k then s.haltSite k hcSentinel 0 0 true else s) s

/-- The boot is under way and has not reached step 6. -/
def State.booting (s : State) : Bool := s.boot.step != 0 && (s.boot.dev == 0 || s.boot.dev == 1)

/-- The steward cluster restarts into the ROM in TAMPER_HOLD (R519). -/
def State.tamperHold (s : State) : State :=
  (s.updBoot fun b => { b with dev := 3, step := 3, running := none, trial := false }).updCl fun c => { c with cores := [] }

/-- A tamper alarm of a source: 0 to 3 TAMP, 4 mesh, 5 glitch, 6 rule (R518, R519). -/
def State.alarm (source : Nat) (s : State) : State :=
  let enc := s.encBlocks
  let s1 := s.updSec fun x => { x with latch := true, src := x.src ||| 2 ^ source, cnt := sat32 x.cnt 1, kek := none, keys := [],
                                       nonce := none, purge := enc }
  let s2 := (((s1.abortLoads.purgeBlocks).event cSec 0 0x8008 s1.sec.src).alert 9).tot 2
  let s3 := when (bit s.sec.tmpCfg 6) State.haltAll s2
  when s.booting State.tamperHold s3

/-- TAMPER_ALARM: an enabled source alarms. -/
def execTamperAlarm (source : Nat) (s : State) : Out :=
  State.plain (fun s => if source ≤ 6 && (source = 6 || bit s.sec.tmpCfg source) then s.alarm source else s) s

/-- TAMPER_CLEAR step 0: a nonce from the DRBG (R515, R520). -/
def execTamperClearChallenge (mb : Nat) (s : State) : Out :=
  State.plain (State.secServe mb 0x70 (State.serveMb mb 0x70 2 0 1 [(0, 1)] okArgs noAbsent false fun _ s =>
    if s.sec.entropyBad then s.fin mb DENIED
    else
      let n := padTo 32 (Config.drbg s.sec.drbg)
      (s.updSec fun x => { x with nonce := some n, drbg := x.drbg + 1 }).finish mb OK n)) s

/-- The key that answers are checked under: the provisioned extension key, or the vendor's. -/
def State.tamperKey (s : State) : List Byte :=
  if s.otp.extHash.isEmpty then Config.vendorKey s.otp.vendorHash else s.flBytes 1 0x2200004 97

/-- The latch clears (R520): boot resumes at step 3 in TAMPER_HOLD, and the KEK is derived again when firmware runs. -/
def State.latchClear (s : State) : State :=
  let s1 := s.updSec fun x => { x with latch := false, src := 0 }
  if s.boot.dev = 3 then s1.updBoot fun b => { b with dev := 0, step := 3 } else s1.deriveKek

/-- TAMPER_CLEAR step 1: each answer uses up the nonce (R520). -/
def execTamperClearAnswer (mb : Nat) (s : State) : Out :=
  State.plain (State.secServe mb 0x70 (State.serveMb mb 0x70 2 1 104 [(0, 1), (8, 96)] okArgs noAbsent false fun a s =>
    let s1 := s.updSec fun x => { x with nonce := none }
    match (if s.sec.latch then s.sec.nonce else none) with
    | none => s1.fin mb NOT_ACTIVE
    | some n =>
      if 8 ≤ s.sec.fails then s1.fin mb DENIED
      else if Config.ecdsaOk s.tamperKey (Config.sha384 (n ++ leBytes 8 s.otp.serial)) (slice a 8 96) then
        (s1.fin mb OK).latchClear
      else (s1.updSec fun x => { x with fails := x.fails + 1 }).fin mb VERIFY_FAIL)) s

/-- ENTROPY_FAILURE (R515). -/
def execEntropyFailure (s : State) : Out :=
  State.plain (fun s => (s.updSec fun x => { x with entropyBad := true }).event cSec 0 0x80FF 0) s

/-- TMP_CFG_WRITE (R517): fixed once locked. -/
def State.tmpWrite (v : Nat) (s : State) : State :=
  if bit s.sec.tmpCfg 7 then s else s.updSec fun x => { x with tmpCfg := bits v 7 0 }

def execTmpCfgWrite (v : Word) (s : State) : Out := State.plain (State.tmpWrite v.toNat) s

end Sys2Proof.Machine
end

