-- ==== Sys2Proof/Machine/Sentinel.lean ====
section
/-! DEFINITION. The sentinel: rules, their evaluation at each sample and their actions, DUT power faults and the thermal
trip (R484 to R492). -/

namespace Sys2Proof.Machine
open Sys2Proof

/-! ### Rule images (R485, Table 14-9) -/

def snFlags (i : List Byte) : Nat := fld i 0 1
def snInput (i : List Byte) : Nat := fld i 1 1
def snMode (i : List Byte) : Nat := fld i 2 1
def snAvg (i : List Byte) : Nat := fld i 3 1
def snActs (i : List Byte) : Nat := fld i 6 2
def snThreshold (i : List Byte) : Int := sext 32 (fld i 8 4)
def snHyst (i : List Byte) : Nat := fld i 12 4
def snKill (i : List Byte) : Nat := fld i 16 1
def snThrottleOf (i : List Byte) : Nat := fld i 17 1
def snDown (i : List Byte) : Nat := fld i 24 8
def snWake (i : List Byte) : Nat := fld i 32 8
def snAnd (i : List Byte) : Nat := fld i 40 8
def snEnabled (i : List Byte) : Bool := bit (snFlags i) 0

/-- The domains that a mask may name: not 0, 3, 4, 5, 6, nor 50 and above. -/
def snMaskOk (m : Nat) : Bool := ([0, 3, 4, 5, 6] ++ (List.range 14).map (50 + ·)).all fun d => !bit m d

/-- An image keeps to Table 14-9. -/
def snImageOk (k : Nat) (i : List Byte) : Bool :=
  snFlags i < 8 && snInput i ≤ 97 && snMode i ≤ 2 && 1 ≤ snAvg i && snAvg i ≤ 64 && fld i 4 1 != 0 && fld i 5 1 != 0
    && snActs i < 1024 && snHyst i < 2 ^ 31 && (snMode i != 2 || snHyst i == 0)
    && (if bit (snActs i) 3 then 1 ≤ snThrottleOf i && snThrottleOf i ≤ 7 else snThrottleOf i == 0)
    && allZero (slice i 18 6) && snMaskOk (snDown i) && snMaskOk (snWake i) && !bit (snAnd i) k && allZero (slice i 48 16)

/-- A rule as it stands, its image in force. -/
def State.rule (s : State) (k : Nat) : SnRule := Tbl.get {} s.sn.rules k
def State.updRule (k : Nat) (f : SnRule → SnRule) (s : State) : State :=
  s.updSn fun n => { n with rules := n.rules.upd {} k f }

/-- The image that a rule has, or is to have from the next sample on. -/
def SnRule.img (r : SnRule) : List Byte := padTo 64 (r.next.getD r.image)

/-- An image with its enable clear. -/
def snDisabled (i : List Byte) : List Byte := leBytes 1 (snFlags i / 2 * 2) ++ (padTo 64 i).drop 1

/-- The settings record of all rule images. -/
def State.snTable (s : State) : List Byte := (List.range 64).flatMap fun k => (s.rule k).img

/-- The lowest enabled rule whose and_mask names a disabled rule, with that rule (R486). -/
def State.snDangling (s : State) : Option (Nat × Nat) :=
  (List.range 64).findSome? fun j =>
    if snEnabled (s.rule j).img then
      ((List.range 64).find? fun k => bit (snAnd (s.rule j).img) k && !snEnabled (s.rule k).img).map fun k => (j, k)
    else none

/-- A write or disable completes (R485, R492). -/
def State.snReply (src : CmdSrc) (c : Nat) (s : State) : State :=
  match src with
  | .mb m => (s.updSn fun n => { n with refused := c != OK }).fin m c
  | .port _ _ => s.updSn fun n => { n with refused := c != OK }

/-- A write or disable takes effect: the image is in force from the next sample and is kept in the settings store. -/
def State.snPut (src : CmdSrc) (k : Nat) (i : List Byte) (s : State) : State :=
  let s1 := s.updRule k fun r => { r with next := some i, putAt := s.time }
  let s2 := match s1.snDangling with
    | some (j, d) => s1.eventA true cSn k 0x80FF (j + d * 2 ^ 6)
    | none => s1
  (s2.persist 0x30 s2.snTable).snReply src OK

/-- The named fields of SENTINEL_RULES. -/
def snNamed : List (Nat × Nat) := [(0, 1), (1, 1), (8, 64)]

/-- SENTINEL_RULES op 0. -/
def execSentinelRulesRead (mb : Nat) (s : State) : Out :=
  State.plain (State.serveMb mb 0x91 3 0 2 snNamed (fun a => fld a 1 1 ≤ 63) noAbsent false fun a s =>
    s.finish mb OK (s.rule (fld a 1 1)).img) s

/-- The staged image of the SN_RULE ports. -/
def State.snStaged (s : State) : List Byte := (List.range 16).flatMap fun i => leBytes 4 (s.ioReg (0x4010 + i) 0)
def State.snSel (s : State) : Nat := bits (s.ioReg 0x4003 0) 5 0

/-- SENTINEL_RULES op 1, or SN_RULE_CMD 1 (R485, R492): a good image lands at the rule's arbiter. -/
def execSentinelRulesWrite (src : CmdSrc) (s : State) : Out :=
  State.plain (fun s =>
    let go (k : Nat) (i : List Byte) (rank : Nat) (s : State) : State :=
      if snImageOk k i then s.land (.rule k) rank (.ruleWrite src i) else s.snReply src BAD_ARG
    match src with
    | .mb m => State.serveMb m 0x91 3 1 72 snNamed (fun a => fld a 1 1 ≤ 63) noAbsent true
        (fun a s => go (fld a 1 1) (slice a 8 64) (mbRank m) s) s
    | .port _ _ => go s.snSel s.snStaged 2 s) s

/-- SENTINEL_RULES op 2, or SN_RULE_CMD 2. -/
def execSentinelRulesDisable (src : CmdSrc) (s : State) : Out :=
  State.plain (fun s =>
    match src with
    | .mb m => State.serveMb m 0x91 3 2 2 snNamed (fun a => fld a 1 1 ≤ 63) noAbsent true
        (fun a s => s.land (.rule (fld a 1 1)) (mbRank m) (.ruleDisable src)) s
    | .port _ _ => s.land (.rule s.snSel) 2 (.ruleDisable src)) s

/-- SN_RULE_COPY: the selected rule's image is copied into the staging words. -/
def State.snCopy (s : State) : State :=
  (List.range 16).foldl (fun t i => t.setReg (.io 0) (0x4010 + i) (fld (s.rule s.snSel).img (4 * i) 4)) s

def execSnRuleCopy (s : State) : Out := State.plain State.snCopy s

/-! ### DUT_KILL_N (R488, R490) -/

/-- Rules whose level actions last: they hold, or are latched. -/
def SnRule.active (r : SnRule) : Bool := r.holds || r.latched

/-- The lines that rules assert, and all the lines asserted. -/
def State.killRules (s : State) : Nat :=
  s.sn.rules.foldl (fun m r => if r.2.active && bit (snActs r.2.image) 0 then m ||| snKill r.2.image else m) 0
def State.killState (s : State) : Nat :=
  if s.sn.trip then 0xFF else s.sn.killHold ||| s.sn.killHw ||| s.killRules

/-- SN_KILL_HOLD_WRITE. -/
def State.killHoldWrite (v : Nat) (s : State) : State := s.updSn fun n => { n with killHold := bits v 7 0 }
def execSnKillHoldWrite (v : Word) (s : State) : Out := State.plain (State.killHoldWrite v.toNat) s

/-- DPF_ASSERT (R488): the hardware path holds DUT_KILL_N[k]. -/
def execDpfAssert (k : Nat) (s : State) : Out :=
  State.plain (fun s =>
    if 8 ≤ k then s
    else ((s.updSn fun n => { n with killHw := n.killHw ||| 2 ^ k, dpfHigh := n.dpfHigh.put k s.time,
                                     dpfCnt := sat32 n.dpfCnt 1 }).event cSn k 0x8004 0).tot 7) s

/-- DPF_RELEASE_TIMER (R488): 1 ms after the line is high again. -/
def execDpfReleaseTimer (k : Nat) (s : State) : Out :=
  State.timed (if bit s.sn.killHw k then some (Tbl.get 0 s.sn.dpfHigh k + 1000 * US) else none) (fun s =>
    s.updSn fun n => { n with killHw := n.killHw - 2 ^ k, dpfHigh := n.dpfHigh.del k }) s

/-! ### The thermal trip (R489) -/

/-- The hottest sensor and its reading. -/
def hottest (l : List Int) : Nat × Int :=
  (List.range 48).foldl (fun b n => if b.2 < l.getD n 0 then (n, l.getD n 0) else b) (0, l.getD 0 0)

/-- A trip: THERMTRIP_N and every DUT_KILL_N are asserted, and every domain except PD00 is held in reset. -/
def State.thermTrip (sensor : Nat) (reading : Int) (s : State) : State :=
  if s.sn.trip then s
  else
    ((((s.updSn fun n => { n with trip := true }).coldReset).alert 10).event cSn sensor 0x8007 (wrap 32 reading)).tot 6

/-! ### A sample (R484 to R487) -/

/-- The sample of an input: what the surroundings give, the lane groups' counts, the highest sensors; the supply of DC4 to DC7
reads 0 on a part without them. -/
def State.sampleOf (s : State) (raw : List Int) (i : Nat) : Int :=
  let high (a n : Nat) : Int := (List.range n).foldl (fun m j => max m (raw.getD (a + j) 0)) (raw.getD a 0)
  if 68 ≤ i && i ≤ 83 then
    (((List.range 8).filter fun j => (s.lane (8 * (i - 68) + j)).state == 5 || (s.lane (8 * (i - 68) + j)).state == 1).length : Nat)
  else if i = 59 && s.nDc ≤ 4 then 0
  else if 92 ≤ i && i ≤ 95 then high (12 * (i - 92)) 12
  else if i = 97 then high 0 48
  else raw.getD i 0

/-- The new image, if one is to take effect: history, condition and latch start again. A sample in the fc of the write uses the
old image (R491). -/
def SnRule.renew (now : Nat) (r : SnRule) : SnRule :=
  match r.next with
  | none => r
  | some i => if r.putAt < now then { image := i } else r

/-- The filter and the rule's own condition (R486). -/
def SnRule.step (r : SnRule) (x : Int) : SnRule :=
  if !snEnabled r.image then { r with hist := [], meets := 0, ends := 0, own := false }
  else
    let i := r.image
    let hist := (x :: r.hist).take (snAvg i)
    let f := hist.foldl (· + ·) 0 / (hist.length : Int)
    let t := snThreshold i
    let m : Bool := if snMode i = 0 then t < f else if snMode i = 1 then f < t else f == t
    let c : Bool := if snMode i = 0 then f ≤ t - snHyst i else if snMode i = 1 then t + snHyst i ≤ f else f != t
    if r.own then
      let n := if c then r.ends + 1 else 0
      if fld i 5 1 ≤ n then { r with hist := hist, f := f, own := false, ends := 0, meets := 0 }
      else { r with hist := hist, f := f, ends := n }
    else
      let n := if m then r.meets + 1 else 0
      if fld i 4 1 ≤ n then { r with hist := hist, f := f, own := true, meets := 0, ends := 0 }
      else { r with hist := hist, f := f, meets := n }

/-- Whether a rule holds: its own condition and that of every rule in its and_mask. -/
def snHolds (t : Tbl SnRule) (k : Nat) : Bool :=
  let r : SnRule := Tbl.get {} t k
  r.own && (setBitsOf 64 (snAnd r.image)).all fun j => (Tbl.get ({} : SnRule) t j).own

/-- Domains of a mask that the part holds. -/
def State.maskDoms (s : State) (m : Nat) : List Nat := (setBitsOf 50 m).filter s.domPresent

/-- Whether a rule keeps a domain down. -/
def State.ruleDowns (s : State) (k d : Nat) : Bool :=
  (s.rule k).active && bit (snActs (s.rule k).image) 4 && bit (snDown (s.rule k).image) d

/-- A domain that no rule keeps down any more follows its set state again (R487). -/
def State.downEnds (s : State) : State :=
  (List.range 50).foldl (fun s d =>
    let m := (s.dom d).down
    let m' := maskOf ((setBitsOf 64 m).filter fun k => s.ruleDowns k d)
    if m = m' then s else (s.updDom d fun x => { x with down := m' }).domSeek d) s

/-- The onset actions of a rule (Table 14-10). -/
def State.onset (k : Nat) (s : State) : State :=
  let i := (s.rule k).image
  let a := snActs i
  let s1 := s.eventA (bit (snFlags i) 2) cSn k 0x8005 (wrap 32 (s.rule k).f + snInput i * 2 ^ 32)
  let s2 := when (bit a 2) (State.alert 10) s1
  let s3 := when (bit a 4) (fun s => (s.maskDoms (snDown i)).foldl (fun s d => s.land (.domain d) 1 (.down k)) s) s2
  let s4 := when (bit a 5) (fun s => ((s.maskDoms (snWake i)).filter fun d =>
      !(List.range 64).any fun j => s.ruleDowns j d).foldl (fun s d => s.land (.domain d) 1 (.wake k)) (s.askWake 3)) s3
  let s5 := when (bit a 6) (State.alarm 6) s4
  let s6 := when (bit a 7) State.haltAll s5
  let s7 := when (bit a 9) (fun s => (s.raise 20).askWake 3) s6
  when (bit a 8) (fun s => let h := hottest s.sn.inputs; s.thermTrip h.1 h.2) s7

/-- The clear of a rule, with the image and the f under which it held. -/
def State.snClear (k : Nat) (i : List Byte) (f : Int) (s : State) : State :=
  let s1 := s.eventA (bit (snFlags i) 2) cSn k 0x8006 (wrap 32 f + snInput i * 2 ^ 32)
  when (bit (snActs i) 9) (fun s => (s.raise 20).askWake 3) s1

/-- The highest throttle of the rules whose THROTTLE lasts. -/
def State.snThrMax (s : State) : Nat :=
  s.sn.rules.foldl (fun m r => if r.2.active && bit (snActs r.2.image) 3 then max m (snThrottleOf r.2.image) else m) 0

/-- A histogram bin: values below in bin 0, values above in the last. -/
def binOf (v lo w : Int) (n : Nat) : Nat := min (n - 1) ((v - lo) / w).toNat

/-- The ledger's accumulators take the sample (R536). -/
def State.accumulate (s : State) : State :=
  let x := s.sn.inputs
  let v := [50, 51, 52, 53].foldl (fun m i => max m (x.getD i 0)) (x.getD 50 0)
  let use := if s.sn.trip then 4 else if s.boot.resetLow then 3 else if s.pwr.asleep then 2 else if s.anyJob then 0 else 1
  s.updLed fun l =>
    { l with powered := l.powered + 1,
             tj := [0, 1, 2, 3].foldl (fun t q => t.upd 0 (24 * q + binOf (x.getD (92 + q) 0) (-160) 32 24) (· + 1)) l.tj,
             vdd := l.vdd.upd 0 (binOf v 700 10 16) (· + 1), use_ := l.use_.upd 0 use (· + 1) }

/-- SENTINEL_SAMPLE (R484 to R489): every input is sampled, the rules evaluated on it, their onsets and clears acted on, and
two readings of 165 °C in a row trip. -/
def State.sample (raw : List Int) (s : State) : State :=
  let x := (List.range 98).map (s.sampleOf raw)
  let before := s.sn.rules.map fun r => (r.1, r.2.renew s.time)
  let stepped := before.map fun r => (r.1, r.2.step (x.getD (snInput r.2.image) 0))
  let after := stepped.map fun r =>
    let h := snHolds stepped r.1
    (r.1, { r.2 with holds := h, latched := r.2.latched || (h && bit (snFlags r.2.image) 1) })
  let s1 := s.updSn fun n => { n with prev := n.inputs, inputs := x, rules := after }
  let s2 := s.sn.rules.foldl (fun s r =>
    let n := s.rule r.1
    let old := r.2.renew s1.time
    if n.holds && !old.holds then s.onset r.1
    else if r.2.holds && !n.holds then s.snClear r.1 r.2.image (if old == r.2 then n.f else r.2.f) else s) s1
  let alertN := s2.sn.rules.any fun r => r.2.active && bit (snActs r.2.image) 1
  let s3 := (s2.updSn fun n => { n with alertN := alertN }).downEnds
  let s4 := when (s3.snThrMax != s.pwr.snThr) (State.land .throttle 1 (.snThrottle s3.snThrMax)) s3
  let hot := (List.range 48).find? fun n => 660 ≤ s4.sn.prev.getD n 0 && 660 ≤ x.getD n 0
  let s5 := match hot with | some n => s4.thermTrip n (x.getD n 0) | none => s4
  s5.accumulate

def execSentinelSample (samples : List Int) (s : State) : Out := State.plain (State.sample samples) s

end Sys2Proof.Machine
end

