-- ==== Sys2Proof/Machine/Regs.lean ====
section
/-! DEFINITION. The steward IO ports (R10 to R13, R110 to R113, R141 to R145, R220, R258, R292 to R296, R330 to R333, R344,
R367 to R369, R377, R398, R399, R465 to R467, R492, R522, R540): what a read of a port returns, what it changes, and what a
write does. -/

namespace Sys2Proof.Machine
open Sys2Proof

/-! ### Fields (R10 to R13) -/

/-- Bits [hi:lo] of a written value in place, or the old ones where the encoding is reserved (R13). -/
def fieldW (hi lo v old : Nat) (ok : Nat → Bool) : Nat :=
  (if ok (bits v hi lo) then bits v hi lo else bits old hi lo) * 2 ^ lo

/-- Every encoding is defined. -/
def anyVal : Nat → Bool := fun _ => true

/-- The low and the high half of a 64-bit number. -/
def lo32 (v : Nat) : Nat := v % 2 ^ 32
def hi32 (v : Nat) : Nat := v / 2 ^ 32 % 2 ^ 32

/-- A stored port written through a mask of its defined bits. -/
def State.ioMask (a mask v : Nat) (s : State) : State := s.setReg (.io 1) a (v &&& mask)

/-! ### Units behind the ports (R2, R344) -/

/-- The PE and the offset in its slot of a port of the PE quad ranges. -/
def pePort (a : Nat) : Option (Nat × Nat) :=
  let q := (a - 0xC000) / 0x100
  let o := (a - 0xC000) % 0x100
  let p := o / 0x30
  if p < 4 then some (4 * q + p, o % 0x30)
  else if p = 4 then
    ([(0, 64), (3, 65), (12, 66), (15, 67)].find? fun x => x.1 == q).map fun x => (x.2, o % 0x30)
  else none

/-- The domain whose unit answers a port. -/
def portDom (a : Nat) : Option Nat :=
  if 0x2000 ≤ a && a < 0x3000 then some 1
  else if 0x5000 ≤ a && a < 0x6000 then some 2
  else if 0x8000 ≤ a && a < 0xC000 then some (lgDom ((a - 0x8000) / 0x400))
  else if 0xC000 ≤ a && a < 0xD000 then some (33 + (a - 0xC000) / 0x100)
  else if 0xD000 ≤ a && a < 0xD080 then some (dcDom ((a - 0xD000) / 0x10))
  else if (0xD800 ≤ a && a < 0xD806) || (0xD900 ≤ a && a < 0xDA00) then some 49
  else if 0xDC00 ≤ a && a < 0xDC40 then some (outDom ((a - 0xDC00) / 0x20))
  else if 0xE000 ≤ a && a < 0xF000 then some 4
  else none

/-- Whether a port belongs to a unit that the part lacks (R2). -/
def State.portAbsent (s : State) (a : Nat) : Bool :=
  if 0x8000 ≤ a && a < 0xC000 then s.nLg ≤ (a - 0x8000) / 0x400
  else if 0xC000 ≤ a && a < 0xD000 then (match pePort a with | some (p, _) => !s.peFitted p | none => true)
  else if 0xD000 ≤ a && a < 0xD080 then s.nDc ≤ (a - 0xD000) / 0x10
  else if 0xD900 ≤ a && a < 0xD940 then s.nPe ≤ a - 0xD900
  else if 0x7100 ≤ a && a < 0x7140 then s.nPe ≤ a - 0x7100
  else if 0xE000 ≤ a && a < 0xF000 then !s.hasBridge
  else false

/-- Whether the unit behind a port has no power, or is in reset (R344). -/
def State.portOff (s : State) (a : Nat) : Bool :=
  match portDom a with | some d => (s.dom d).state == 0 || (s.dom d).reset_ | none => false

/-- Whether the unit behind a port is asleep, so that an access is held and wakes it (R343). -/
def State.portAsleep (s : State) (a : Nat) : Bool :=
  match portDom a with | some d => !s.domOn d | none => false

/-! ### Steward-local and dispatcher ports (Tables 11-14 to 11-16) -/

/-- DSP_ROUTE's value (Table 11-15). -/
def Route.val (r : Route) : Nat := r.flag + r.slot * 2 ^ 5 + r.st * 2 ^ 10 + b2n r.en * 2 ^ 12 + b2n r.pend * 2 ^ 13

/-- A task slot's register. -/
def State.slotVal (s : State) (st k r : Nat) : Nat :=
  let t := s.task st k
  if r = 0 then t.ctl
  else if r = 1 then
    t.state + b2n (t.state == tsWaiting && t.all) * 8 + s.effPri st k * 16 + b2n (bits t.ctl 3 0 < s.effPri st k) * 256
  else if r = 2 || r = 3 || r = 4 then t.flags
  else if r = 5 then (if t.state = tsWaiting then t.mask else 0)
  else if r = 6 then t.entry
  else 0

/-- The steward-local ports. -/
def State.localVal (s : State) (st a : Nat) : Nat :=
  let c := s.core st
  if a = 0 then st + 0x100
  else if a = 1 then c.stkLo
  else if a = 2 then c.stkHi
  else if a = 3 then lo32 s.time
  else if a = 4 then c.timeLatch
  else if a = 5 then c.excCnt
  else if a = 6 then c.wcCnt
  else if a = 8 then c.dwinSel
  else if a = 9 then Tbl.get 0 c.dwin c.dwinSel
  else if a = 0xA then b2n c.cacheOn
  else if 0x10 ≤ a && a < 0x18 then Tbl.get 0 c.xio (a - 0x10)
  else if 0x18 ≤ a && a < 0x20 then Tbl.get 0 c.xdr (a - 0x18)
  else if 0x20 ≤ a && a < 0x25 then c.ti.getD (a - 0x20) 0
  else if a = 0x26 then c.tiStat
  else if 0x1000 ≤ a && a < 0x1200 then s.slotVal st ((a - 0x1000) / 16) (a % 16)
  else if a = 0x1200 then c.cur + b2n c.idle * 32
  else if a = 0x1201 then c.switches
  else if a = 0x1202 then s.st.routeSel
  else if a = 0x1203 then (Tbl.get {} s.st.routes s.st.routeSel).val
  else if a = 0x1204 then s.st.timer
  else if 0x1400 ≤ a && a < 0x1480 then (s.task ((a - 0x1400) / 0x20) (a % 0x20)).flags
  else 0

/-- A write of a task slot's register. -/
def State.slotWrite (st k r v : Nat) (s : State) : State :=
  if r = 0 then s.updTask st k fun t => { t with ctl := v &&& 0xFF1F }
  else if r = 3 then s.setFlags st k v
  else if r = 4 then s.updTask st k fun t => { t with flags := t.flags ^^^ (t.flags &&& v % 2 ^ 31) }
  else if r = 6 then s.updTask st k fun t => { t with entry := v &&& 0x3FFFC }
  else if r = 7 then
    (if v % 4 = 1 then s.dspStart st k else if v % 4 = 2 then s.dspStop st k else if v % 4 = 3 then s.dspFree st k else s)
  else s

/-- A write of a steward-local or dispatcher port. -/
def State.localWrite (st a v : Nat) (s : State) : State :=
  let upd (f : Steward → Steward) : State := s.updCore st f
  if a = 1 then upd fun c => { c with stkLo := v / 4 * 4 }
  else if a = 2 then upd fun c => { c with stkHi := v / 4 * 4 }
  else if a = 8 then upd fun c => { c with dwinSel := v % 8 }
  else if a = 9 then upd fun c => { c with dwin := c.dwin.put c.dwinSel (v &&& 0x303FF) }
  else if a = 0xA then upd fun c => { c with cacheOn := bit v 0, cache := if bit v 1 then [] else c.cache }
  else if 0x10 ≤ a && a < 0x18 then upd fun c => { c with xio := c.xio.put (a - 0x10) v }
  else if 0x18 ≤ a && a < 0x20 then upd fun c => { c with xdr := c.xdr.put (a - 0x18) (v / 0x1000 * 0x1000) }
  else if 0x20 ≤ a && a < 0x25 then
    upd fun c => { c with ti := ((List.range 5).map fun i => c.ti.getD i 0).set (a - 0x20) (if a = 0x24 then v % 65536 else v) }
  else if a = 0x25 then s.tiGo st
  else if 0x1000 ≤ a && a < 0x1200 then s.slotWrite st ((a - 0x1000) / 16) (a % 16) v
  else if a = 0x1202 then s.updCl fun c => { c with routeSel := fieldW 5 0 v c.routeSel (· < 29) }
  else if a = 0x1203 then
    if bits v 4 0 = 31 then s
    else s.updCl fun c => { c with routes := c.routes.upd {} c.routeSel fun r =>
      { r with flag := bits v 4 0, slot := bits v 9 5, st := bits v 11 10, en := bit v 12 } }
  else if a = 0x1204 then s.updCl fun c => { c with timer := v % 2 ^ 20, timerAt := s.time }
  else if 0x1400 ≤ a && a < 0x1480 then s.setFlags ((a - 0x1400) / 0x20) (a % 0x20) v
  else s

/-! ### Pegs, Shelf and Scatrix (Table 10-14) -/

/-- PEG_RIGHTS and the counters. -/
def State.pegVal (s : State) (a : Nat) : Nat :=
  if a < 0x2C10 then s.ioReg a 0x3C
  else if a = 0x2C10 || a = 0x2C11 || a = 0x2C20 || a = 0x2C21 then s.ioReg a 0
  else 0

/-! ### Power, sentinel and timebase (Table 14-13) -/

/-- PWR_DOM_d. Code 3 marks a domain that the part lacks. -/
def State.domVal (s : State) (d : Nat) : Nat :=
  let x := s.dom d
  if 50 ≤ d then 0
  else if !s.domPresent d then 3
  else x.state + x.set_ * 4 + b2n x.going.isSome * 16 + b2n (s.railsOk d) * 32 + b2n (x.down != 0) * 64

/-- PWR_CLK. -/
def State.clkVal (s : State) : Nat :=
  let lane (k : Nat) : Bool := bit s.pwr.lref k
    && ((List.range 4).any (fun i => (s.dom (17 + 4 * k + i)).state != 0) || (k == 3 && (s.dom 4).state == 2))
  b2n s.pwr.asleep + b2n (s.pwr.fref && !s.pwr.asleep && !(s.dom 5).reset_) * 2
    + b2n (s.pwr.fref && !s.pwr.asleep && !(s.dom 1).reset_) * 4
    + b2n (s.pwr.fref && (List.range 4).any fun i => (s.dom (7 + i)).state == 2) * 8
    + maskOf ((List.range 4).filter lane) * 16 + b2n s.pwr.fref * 256 + b2n s.pwr.fref * 512

/-- The rules that hold. -/
def State.snHold (s : State) : Nat := maskOf ((s.sn.rules.filter fun r => r.2.holds).map (·.1))

/-- The ports of PD00. -/
def State.aoVal (s : State) (a : Nat) : Nat :=
  if a < 0x3040 then s.domVal (a - 0x3000)
  else if a = 0x3041 then b2n s.pwr.cmdBusy + s.pwr.cmdPrev * 2 ^ 8 + s.pwr.cmdStat * 2 ^ 16
  else if a = 0x3042 then s.ioReg a 0
  else if a = 0x3043 then s.ioReg a 100
  else if a = 0x3044 then s.pwr.hostThr + s.pwr.snThr * 8 + s.throttle * 64
  else if a = 0x3045 then s.pwr.rails
  else if a = 0x3046 then s.clkVal
  else if a = 0x3047 then s.pwr.avs
  else if a = 0x3048 then s.pwr.wakeCnt
  else if a = 0x3049 then s.pwr.railLoss
  else if a = 0x4000 then b2n s.sn.core + b2n s.sn.defaults * 2 + b2n s.sn.trip * 4 + b2n s.sn.refused * 8
  else if a = 0x4001 then lo32 s.snHold
  else if a = 0x4002 then hi32 s.snHold
  else if a = 0x4003 || a = 0x4005 || (0x4010 ≤ a && a < 0x4020) then s.ioReg a 0
  else if a = 0x4006 then wrap 32 (s.sn.inputs.getD (s.ioReg 0x4005 0) 0)
  else if a = 0x4007 then s.sn.killHold
  else if a = 0x4008 then s.killState + s.sn.killHw * 2 ^ 8 + s.killRules * 2 ^ 16
  else if a = 0x4009 then s.sn.dpfCnt
  else 0

/-- A port word's source for the arbiter. -/
def portSrc (st v : Nat) : CmdSrc := .port st (BitVec.ofNat 32 v)

/-- A write of PWR_CMD (R471, R492): the setting lands at the domain's arbiter. -/
def State.pwrCmd (st v : Nat) (s : State) : State :=
  if s.pwr.cmdBusy then s
  else if 49 < bits v 5 0 then s.updPwr fun p => { p with cmdStat := BAD_ARG }
  else (s.updPwr fun p => { p with cmdBusy := true }).land (.domain (bits v 5 0)) (if bit v 10 then 1 else 2)
    (.setDomain (portSrc st v) (bits v 9 8))

/-- A write of SN_RULE_CMD (R485, R492). -/
def State.ruleCmd (st v : Nat) (s : State) : State :=
  if v % 4 = 1 then
    if snImageOk s.snSel s.snStaged then s.land (.rule s.snSel) 2 (.ruleWrite (portSrc st v) s.snStaged)
    else s.snReply (portSrc st v) BAD_ARG
  else if v % 4 = 2 then s.land (.rule s.snSel) 2 (.ruleDisable (portSrc st v))
  else if v % 4 = 3 then s.snCopy
  else s

/-- A write of a port of PD00. The throttle of PWR_THROTTLE takes effect at once: it is the same setting as POWER_POLICY
op 2 and lands at the same arbiter, with no mailbox to answer. -/
def State.aoWrite (st a v : Nat) (s : State) : State :=
  if a = 0x3040 then s.pwrCmd st v
  else if a = 0x3042 then s.setReg (.io 1) a (fieldW 1 0 v (s.ioReg a 0) (· != 3))
  else if a = 0x3043 then s.setReg (.io 1) a (fieldW 23 0 v (s.ioReg a 100) fun x => 10 ≤ x && x ≤ 10000000)
  else if a = 0x3044 then s.updPwr fun p => { p with hostThr := v % 8 }
  else if a = 0x3047 then s.avsWrite v
  else if a = 0x4003 then s.ioMask a 0x3F v
  else if a = 0x4004 then s.ruleCmd st v
  else if a = 0x4005 then s.setReg (.io 1) a (fieldW 7 0 v (s.ioReg a 0) (· < 98))
  else if a = 0x4007 then s.killHoldWrite v
  else if 0x4010 ≤ a && a < 0x4020 then s.setReg (.io 1) a v
  else s

/-! ### Security, flash, recorder and reliability (Tables 15-12 and 16-8) -/

/-- Seconds of confirmation time that remain, rounded up (log entry 25, DESIGN CHOICE). -/
def State.confLeft (s : State) : Nat := match s.boot.confAt with | some t => cdiv (t - s.time) SEC | none => 0

/-- The security ports. -/
def State.secVal (s : State) (a : Nat) : Nat :=
  if a = 0x5000 then
    b2n s.sec.kek.isSome + b2n s.sec.latch * 2 + b2n (s.boot.dev == 3) * 4 + b2n (!s.otp.extHash.isEmpty) * 8
      + s.sec.keys.length * 16 + b2n s.sec.entropyBad * 2 ^ 9 + s.sec.stat * 2 ^ 16
  else if a = 0x5001 then s.sec.tmpCfg
  else if a = 0x5002 then s.sec.src
  else if a = 0x5003 then s.sec.cnt
  else if a = 0x5004 then s.otp.svnFloor
  else if a = 0x5005 then s.sec.fails
  else 0

/-- The flash ports: both devices are fitted. -/
def State.flashVal (s : State) (a : Nat) : Nat :=
  if a = 0x6000 then
    b2n (!s.boot.q0.isEmpty || !s.boot.q1.isEmpty) + 6 + b2n s.boot.opi * 8 + s.boot.flStat * 2 ^ 16
  else if a = 0x6001 then
    s.boot.running.getD 0 + b2n s.boot.trial * 2 + b2n (s.slotImage 0).isSome * 4 + b2n (s.slotImage 1).isSome * 8
      + min 0xFFFF s.confLeft * 2 ^ 16
  else if a = 0x6002 then s.boot.eraseCnt
  else if a = 0x6003 then s.boot.progCnt
  else if a = 0x6004 then s.boot.refuseCnt
  else 0

/-- The spares in service, by bit (ID_SPARES). -/
def State.sparesIn (s : State) : Nat :=
  maskOf ((List.range 4).filter fun i => (s.logOf (64 + i)).isSome && !s.loadingSpare (64 + i))

/-- The recorder and reliability ports. -/
def State.relVal (s : State) (a : Nat) : Nat :=
  if a = 0x7000 then s.rcd.next % 2 ^ 24
  else if a = 0x7001 then s.rcd.lostCnt
  else if a = 0x7002 then s.rcd.rdIdx
  else if a = 0x7003 then s.evrData.1
  else if 0x7004 ≤ a && a < 0x7008 then s.ioReg a 0
  else if 0x7100 ≤ a && a < 0x7140 then s.physOf (a - 0x7100) + b2n (s.pat.lost.contains (a - 0x7100)) * 128
  else if a = 0x7140 then s.sparesIn
  else if a = 0x7141 then s.pat.retired
  else if a = 0x7142 then s.pat.remapped
  else if a = 0x7150 then s.ioReg a 24
  else if a = 0x7151 then
    b2n (s.fwRuns && s.ioReg 0x7150 24 != 0) + b2n s.pat.starved * 2 + s.pat.target * 16 + s.pat.done % 2 ^ 24 * 2 ^ 8
  else 0

/-- A write of a recorder or reliability port. -/
def State.relWrite (a v : Nat) (s : State) : State :=
  if a = 0x7002 then s.evrIdx v
  else if a = 0x7005 then s.ioMask a 1 v
  else if 0x7004 ≤ a && a < 0x7008 then s.setReg (.io 1) a v
  else if a = 0x7008 then s.evrGo
  else if a = 0x7150 then s.setReg (.io 1) a (fieldW 15 0 v (s.ioReg a 24) (· ≤ 8760))
  else s

/-! ### Lane groups (Tables 07-11, 08-11 and 09-15 to 09-18) -/

/-- The lane-group ports. -/
def State.lgVal (s : State) (g r : Nat) : Nat :=
  let x := s.lg g
  let l (i : Nat) : Nat := 8 * g + i
  if r = 0 then (List.range 8).foldl (fun n i => n + (s.lane (l i)).state * 16 ^ i) 0
  else if r = 1 then
    maskOf ((List.range 8).filter fun i => (s.site (l i)).quar) + maskOf ((List.range 8).filter fun i => (s.site (l i)).bound) * 2 ^ 8
  else if r = 2 then s.ioReg (0x8000 + 0x400 * g + 2) 0
  else if r = 3 then x.stage.getD x.stageIdx 0
  else if r = 5 then b2n x.busy + x.lastSeq * 2 ^ 8 + x.lastStat * 2 ^ 16
  else if r = 6 then x.rx.length + (match x.rx with | e :: _ => e.1 % 8 * 32 | [] => 0)
  else if r = 7 then
    match x.rx with
    | e :: _ => if x.rxIdx = 0 then 4 else fld e.2 (4 * (x.rxIdx - 1)) 4
    | [] => 0
  else if r = 8 then x.meas.length + (match x.meas with | e :: _ => e.1 % 8 * 256 | [] => 0)
  else if r = 9 then
    match x.meas with
    | e :: _ => if x.measIdx = 0 then 5 + e.2.1 * 16 else fld e.2.2 (4 * (x.measIdx - 1)) 4
    | [] => 0
  else 0

/-- The next word of the staging buffer. -/
def State.ctlStep (g : Nat) (w : Option Nat) (s : State) : State :=
  s.updLg g fun x =>
    { x with stageIdx := (x.stageIdx + 1) % 32,
             stage := match w with
                      | some v => ((List.range 32).map fun i => x.stage.getD i 0).set x.stageIdx v
                      | none => x.stage }

/-- Reading a word of a received entry; the 33rd removes it (R330). -/
def State.ctlRead (g : Nat) (meas : Bool) (s : State) : State :=
  let x := s.lg g
  if meas then
    if x.meas.isEmpty then s else if x.measIdx = 32 then s.ctlPop g true else s.updLg g fun x => { x with measIdx := x.measIdx + 1 }
  else if x.rx.isEmpty then s else if x.rxIdx = 32 then s.ctlPop g false else s.updLg g fun x => { x with rxIdx := x.rxIdx + 1 }

/-- The vector-engine ports of a lane. VE_CFG, VE_STATE, VE_NEXT, VE_LEAD and VE_PERIOD are its site's. -/
def State.veVal (s : State) (l r : Nat) : Nat :=
  let x := s.lane l
  let c (k : Nat) : Nat := Tbl.get 0 x.ve k
  let k := (s.siteOfLane l).getD 0
  let y := s.site k
  let on : Bool := (s.siteOfLane l).isSome
  let z (v : Nat) : Nat := if on then v else 0
  if r = 0 then z (k + 2 ^ 7 + (l - y.first) * 2 ^ 8 + (y.lanes - 1) * 2 ^ 11 + y.wcode * 2 ^ 14)
  else if r = 1 then
    z (b2n y.cur.isSome + b2n y.paused * 2 + b2n y.halted * 4 + b2n y.reflex * 8 + b2n y.haltDue.isSome * 16
      + b2n y.released * 32 + y.queue.length * 2 ^ 8)
  else if r = 2 then z (lo32 y.next)
  else if r = 3 then z (hi32 y.next)
  else if r = 4 then z y.nLead
  else if r = 5 then z y.cycU
  else if r = 6 then s.ioReg (veBase l + 6) 0
  else if r = 7 then x.word (bits (s.ioReg (veBase l + 6) 0) 16 0)
  else if r = 0x0B then min 0xFFFF (c 0x0B) + min 0xFFFF (c 0x1B) * 2 ^ 16
  else if 0x08 ≤ r && r ≤ 0x0D then c r
  else 0

/-- The compare-unit ports of a lane. -/
def State.cuVal (s : State) (l r : Nat) : Nat :=
  let x := s.cu l
  let c (k : Nat) : Nat := Tbl.get 0 x.cnt k
  let y : Site := match s.siteOfLane l with | some k => s.site k | none => {}
  let slot := s.ioReg (cuBase l + 7) 0
  if r = 0 then s.cuWin l
  else if r = 1 then s.cuFlood l
  else if r = 2 then s.cuReg l 2 10
  else if r = 3 then
    x.frets.length + b2n x.summary * 2 ^ 12 + b2n y.flooded * 2 ^ 13 + b2n y.reflex * 2 ^ 14 + b2n y.haltDue.isSome * 2 ^ 15
  else if r = 4 then x.destAct + x.destGrp * 2 ^ 14 + b2n x.destSet * 2 ^ 17
  else if r = 5 then x.destCtx
  else if r = 6 then x.fifo.length
  else if r = 7 then slot
  else if r = 8 then lo32 (Tbl.get 0 x.pins slot)
  else if r = 9 then x.pinLatch
  else if r = 0xA then lo32 x.pass
  else if r = 0xB then x.passLatch
  else if r = 0x12 then min 0xFFFF (c 0x12) + min 0xFFFF (c 0x22) * 2 ^ 16
  else if 0x0C ≤ r && r ≤ 0x11 then c r
  else 0

/-- The lane ports. -/
def State.lpVal (s : State) (l r : Nat) : Nat :=
  let x := s.lane l
  if r = 0 then s.lpCfg l
  else if r = 1 then
    x.state + x.failPhase.getD x.phase * 2 ^ 4 + x.fail * 2 ^ 6 + x.cause * 2 ^ 8 + bits x.cfgNow 1 1 * 2 ^ 16 + b2n x.dual * 2 ^ 17
      + x.port * 2 ^ 18 + b2n x.following * 2 ^ 19
  else if r = 3 then x.feHold.getD 0 % 2 ^ 24
  else if r = 4 then lo32 x.feId
  else if r = 5 then hi32 x.feId
  else if r = 6 then min 0xFFFF x.purgeStim + min 0xFF x.purgeCtrl * 2 ^ 16
  else if r = 7 then if x.stimCredit then min 0xFFFF ((x.stimLimit + 2 ^ 32 - x.stimSent % 2 ^ 32) % 2 ^ 32) else 0
  else if r = 0x12 then x.feErr
  else if r = 0x10 then s.stallCnt l
  else if (0x08 ≤ r && r ≤ 0x11) || r = 0x13 then Tbl.get 0 x.lp r
  else 0

/-- Whether a lane's site belongs to a live job, so that its setup registers ignore writes (R258, R292). -/
def State.laneBusy (s : State) (l : Nat) : Bool :=
  match s.siteOfLane l with | some k => s.siteTaken k | none => false

/-- CU_WINDOW_CFG, CU_FLOOD_CFG and CU_SUM_CFG after a write (R13, R293, R294). -/
def State.cuSetup (l r v : Nat) (s : State) : State :=
  if s.laneBusy l then s
  else if r = 0 then
    s.setReg (.io 1) (cuBase l) (fieldW 11 0 v (s.cuWin l) (fun x => 1 ≤ x && x ≤ 4000) + fieldW 12 12 v 0 anyVal)
  else if r = 1 then
    s.setReg (.io 1) (cuBase l + 1)
      (fieldW 19 0 v (s.cuFlood l) (256 ≤ ·) + fieldW 22 20 v (s.cuFlood l) (· ≤ 6) + fieldW 25 24 v 0 anyVal)
  else s.setReg (.io 1) (cuBase l + 2) (fieldW 11 0 v (s.cuReg l 2 10) fun x => 1 ≤ x && x ≤ 4000)

/-- A write of a lane-group range's port. -/
def State.lgWrite (g r v : Nat) (s : State) : State :=
  let l := 8 * g + r % 0x100 / 0x20
  let o := r % 0x20
  if r = 2 then s.ioMask (0x8000 + 0x400 * g + 2) 7 v
  else if r = 3 then s.ctlStep g (some v)
  else if r = 4 then s.ctlGo g
  else if r < 0x100 then s
  else if r < 0x200 then
    if o = 6 then s.ioMask (veBase l + 6) 0x8001FFFF v
    else if o = 7 then s.indAccess l (some v)
    else if o = 0x0E then s.veClear l
    else s
  else if r < 0x300 then
    if o < 3 then s.cuSetup l o v
    else if o = 7 then s.ioMask (cuBase l + 7) 0x1F v
    else if o = 0x13 then s.cuClear l v
    else if o = 0x14 then s.unflood l
    else s
  else if o = 0 then (s.ioMask (lpBase l) 0xFF3F v).lanePower l
  else if o = 2 then (if v % 4 = 1 then s.retrain l else if v % 4 = 2 then s.forceDown l else s)
  else if o = 0x14 then s.lpClear l
  else s

/-- A read of a lane-group range's port. -/
def State.lgRange (s : State) (g r : Nat) : Nat :=
  let l := 8 * g + r % 0x100 / 0x20
  if r < 0x100 then s.lgVal g r
  else if r < 0x200 then s.veVal l (r % 0x20)
  else if r < 0x300 then s.cuVal l (r % 0x20)
  else s.lpVal l (r % 0x20)

/-- What reading it changes: latches, the increments of the data ports, the removal of a read entry. -/
def State.lgTouch (g r : Nat) (s : State) : State :=
  let l := 8 * g + r % 0x100 / 0x20
  if r = 3 then s.ctlStep g none
  else if r = 7 then s.ctlRead g false
  else if r = 9 then s.ctlRead g true
  else if 0x100 ≤ r && r < 0x200 && r % 0x20 = 7 then s.indAccess l none
  else if 0x200 ≤ r && r < 0x300 && r % 0x20 = 8 then
    s.updCu l fun c => { c with pinLatch := hi32 (Tbl.get 0 c.pins (s.ioReg (cuBase l + 7) 0)) }
  else if 0x200 ≤ r && r < 0x300 && r % 0x20 = 0xA then s.updCu l fun c => { c with passLatch := hi32 c.pass }
  else s

/-! ### PEs (Tables 03-8, 03-9, 04-8 to 04-10) -/

/-- The ports of a PE's slot. -/
def State.peVal (s : State) (p r : Nat) : Nat :=
  let x := s.pe p
  let c (k : Nat) : Nat := Tbl.get 0 x.cnt k
  let g (k : Nat) : Nat := ((x.ready ++ x.fk).filter fun f => f.grp == k).length
  if r = 0 then x.ents.length + 100 * x.ents.length / max 1 x.usable * 2 ^ 24
  else if r = 1 then x.usable
  else if r = 2 then x.stage
  else if 3 ≤ r && r ≤ 0xA then c r
  else if r = 0xB then min 0xFFFF (c 0xB) + min 0xFFFF (c 0xC) * 2 ^ 16
  else if r = 0xD then s.peReg p 0xD 1792
  else if r = 0xE then s.peReg p 0xE 0x10103040
  else if r = 0xF then s.peReg p 0xF 0x00010808
  else if r = 0x10 then x.qU.length + x.qG.length * 2 ^ 16
  else if r = 0x11 then x.rlOcc
  else if r = 0x12 then x.ovf.length
  else if 0x13 ≤ r && r ≤ 0x16 then g (2 * (r - 0x13)) + g (2 * (r - 0x13) + 1) * 2 ^ 16
  else if r = 0x1C then sat32 (c r) (match x.bp with | some t => s.time - t + 1 | none => 0)
  else if 0x17 ≤ r && r ≤ 0x1D then c r
  else if r = 0x20 then s.peReg p 0x20 0x01FFFF00
  else if 0x21 ≤ r && r ≤ 0x26 then s.peReg p r 0
  else if r = 0x27 then c 0x27
  else 0

/-- Context-0 firings enabled in the fc of a write of SCHED_SYSW0 or SCHED_SYSW1 carry the new weight (R134). -/
def State.reweigh (p : Nat) (s : State) : State :=
  let f (x : Firing) : Firing := if x.ctx = 0 && x.at_ = s.time then { x with weight := s.weightOf p 0 x.grp } else x
  s.updPe p fun x => { x with ready := x.ready.map f, fk := x.fk.map f, ovf := x.ovf.map fun y => (y.1, f y.2) }

/-- A write of a PE's slot. -/
def State.peWrite (p r v : Nat) (s : State) : State :=
  let put (x : Nat) : State := s.setReg (.io 1) (peBase p + r) x
  let nz (x : Nat) : Bool := x != 0
  if r = 0xC then s.updPe p fun x => { x with cnt := s.recountAfter .pe p 0x03 0x0C x.cnt }
  else if r = 0xD then
    State.noteOld (peBase p + 0xD) (s.peReg p 0xD 1792)
      (put (fieldW 10 0 v (s.peReg p 0xD 1792) fun x => 256 ≤ x && x ≤ 2040))
  else if r = 0xE then
    let o := s.peReg p 0xE 0x10103040
    (put (fieldW 7 0 v o nz + fieldW 15 8 v o nz + fieldW 23 16 v o nz + fieldW 31 24 v o nz)).reweigh p
  else if r = 0xF then
    let o := s.peReg p 0xF 0x00010808
    (put (fieldW 7 0 v o nz + fieldW 15 8 v o nz + fieldW 23 16 v o nz)).reweigh p
  else if r = 0x1E then
    s.updPe p fun x => { x with cnt := s.recountAfter .pe p 0x17 0x1D x.cnt, bp := x.bp.map fun _ => s.time }
  else if r = 0x20 then put (v &&& 0x01FFFF3F)
  else if r = 0x21 || r = 0x24 then put (v % 2 ^ 20)
  else if r = 0x22 || r = 0x25 then put (v % 2 ^ 14)
  else if r = 0x23 || r = 0x26 then put (v % 2 ^ 28)
  else s

/-! ### DDR5, Cabinet, contexts, cohorts, outlets (Tables 03-8 to 03-11, 06-9, 07-11, 08-14 to 08-16, 10-12) -/

/-- A user's bandwidth over the last whole millisecond, in GB/s. -/
def State.useOf (s : State) (u : Nat) : Nat := (s.ddrs.foldl (fun n d => n + Tbl.get 0 d.2.useMs u) 0) / 1000000

/-- The DDR5 ports. -/
def State.ddrVal (s : State) (a : Nat) : Nat :=
  if a < 0xD080 then
    let c := (a - 0xD000) / 0x10
    let d := s.dc c
    let r := a % 0x10
    if r = 0 then s.dcCfg c
    else if r = 1 then b2n (d.trained && s.dcOn c) + b2n d.selfRef * 2 + b2n d.hot * 4
    else if r = 2 then d.ce
    else if r = 3 then d.ue
    else if r = 4 then lo32 d.ueAddr
    else if r = 5 then hi32 d.ueAddr
    else if r = 6 then s.ioReg a 24
    else 0
  else if a = 0xD100 then s.ddrUsable
  else if 0xD101 ≤ a && a < 0xD109 then s.share (a - 0xD101)
  else if a = 0xD110 then b2n s.budgetRefused + b2n s.derated * 2
  else if 0xD120 ≤ a && a < 0xD128 then
    let u := s.useOf (a - 0xD120)
    min 1023 u + min 1023 (u - s.share (a - 0xD120)) * 2 ^ 16
  else if 0xD130 ≤ a && a < 0xD134 then s.ioReg a 0
  else 0

/-- A write of a DDR5 port. -/
def State.ddrWrite (a v : Nat) (s : State) : State :=
  if a < 0xD080 then
    if a % 0x10 = 0 then s.dcWrite ((a - 0xD000) / 0x10) v
    else if a % 0x10 = 6 then s.ioMask a 0xFF v
    else s
  else if 0xD101 ≤ a && a < 0xD109 then s.shareWrite (a - 0xD101) v
  else if a = 0xD110 then (if bit (s.w1c .budget 32 v) 0 then { s with budgetRefused := false } else s)
  else if 0xD130 ≤ a && a < 0xD134 then
    if s.anyJob then s else s.ioMask a (if a % 2 = 0 then 0xFE000000 else 0x3F) v
  else s

/-- The Cabinet, admission and context-manager ports. -/
def State.cabVal (s : State) (a : Nat) : Nat :=
  let count (f : Nat → Bool) : Nat := (s.cm.ctxs.filter fun p => f p.2.state).length
  if a = 0xD800 then s.cabCfg
  else if a = 0xD801 || a = 0xD802 then s.ioReg a 0
  else if a = 0xD803 then s.ioReg a 40
  else if a = 0xD804 then
    s.cab.devStage + (((List.range s.nPe).find? fun k => s.lpeOk k && (s.pe (s.physOf k)).stage == s.cab.devStage).getD 0) * 2 ^ 8
  else if a = 0xD805 then s.cab.exhCnt
  else if a = 0xD806 then s.admLimit
  else if a = 0xD807 then min 0xFFFFFFFF s.liveSum
  else if 0xD900 ≤ a && a < 0xD940 then
    s.inUse (a - 0xD900) % 2 ^ 27 + min 31 (s.region (a - 0xD900)).probeMax * 2 ^ 27
  else if a = 0xDA00 || a = 0xDA01 then s.ioReg a 0
  else if a = 0xDA02 then count (· == 1)
  else if a = 0xDA03 then count fun x => x == 2 || x == 3
  else if a = 0xDA04 then s.cm.grantQ.length
  else if a = 0xDA05 then s.cm.missCnt
  else 0

/-- A job context is live. -/
def State.jobCtxLive (s : State) : Bool := s.cm.ctxs.any fun p => p.1 != 0 && p.2.state == 1 && p.2.job != sysJob

/-- A write of CAB_CFG (R13, R112). Setting enable starts the background sweep at bucket 0 of region 0 (R95). -/
def State.cabWrite (v : Nat) (s : State) : State :=
  let old := s.cabCfg
  let on := bit old 8
  let size := if on then bits old 4 0 else fieldW 4 0 v old fun x => 21 ≤ x && x ≤ 26
  let en := bit v 8 || (on && s.jobCtxLive)
  (s.setReg (.io 1) 0xD800 (size + b2n en * 2 ^ 8)).updCab fun c => if en && !on then { c with bgRegion := 0, bgBucket := 0 } else c

/-- A write of a Cabinet or context-manager port. -/
def State.cabPortWrite (a v : Nat) (s : State) : State :=
  if a = 0xD800 then s.cabWrite v
  else if a = 0xD803 then s.setReg (.io 1) a (fieldW 7 0 v (s.ioReg a 40) (· != 0))
  else if s.cabOn then s
  else if a = 0xD801 then s.ioMask a 0xFFE00000 v
  else if a = 0xD802 || a = 0xDA01 then s.ioMask a 0x3F v
  else if a = 0xDA00 then s.ioMask a 0xFE000000 v
  else s

/-- Whether a cohort entry lies in the range of a live or queued job. -/
def State.cohortLocked (s : State) (e : Nat) : Bool :=
  let has (j : Job) : Bool := j.cohortFirst ≤ e && e < j.cohortFirst + j.cohortCount
  s.cm.jobs.any (fun p => has p.2) || s.cm.queue.any has

/-- The cohort store ports. -/
def State.cohVal (s : State) (a : Nat) : Nat :=
  if a = 0xDB00 then s.cohIdx
  else if a < 0xDB05 then Tbl.get 0 s.cohorts s.cohIdx / 2 ^ (32 * (a - 0xDB01)) % 2 ^ 32
  else if a = 0xDB05 then b2n (s.cohortLocked s.cohIdx)
  else 0

/-- Whether an outlet's drain waits for OUT_RD, and whether it holds APPEND traffic (R281, R285). -/
def State.ringFull (s : State) (o : Nat) : Bool :=
  match (s.outlet o).nextDone with
  | some r => !ringFits (s.outSize o) (s.outlet o).wr (s.rdSeen o) r.span
  | none => false
def State.outHeld (s : State) (o : Nat) : Bool := (s.outlet o).ports.any fun q => q.2.any (s.pktHeld o)

/-- An outlet's registers, by offset ÷ 4. -/
def State.outVal (s : State) (o r : Nat) : Nat :=
  let x := s.outlet o
  if r = 0 then s.outCfg o
  else if r = 1 || r = 2 then s.ioReg (outReg o r) 0
  else if r = 3 then x.wr + b2n x.phase * 2 ^ 31
  else if r = 4 then x.rd
  else if r = 5 then
    x.fill + b2n (s.ringFull o) * 2 + b2n (s.outHeld o) * 4 + x.open_.length * 8 + b2n x.rdBad * 2 ^ 12
      + b2n x.dropped * 2 ^ 13 + b2n x.reset_ * 2 ^ 14
  else if r = 6 then x.seq % 2 ^ 32
  else if r = 7 then x.commitCnt
  else if r = 8 then x.rewindCnt
  else if r = 9 then x.dropCnt
  else if r = 10 then x.resetCnt
  else if r = 11 then x.lostOpen + x.lostDone * 2 ^ 16
  else 0

/-- OUT_STATUS's W1C bits. -/
def State.outClear (o v : Nat) (s : State) : State :=
  let w := s.w1c (.out o) 32 v
  s.updOutlet o fun x => { x with rdBad := x.rdBad && !bit w 12, dropped := x.dropped && !bit w 13, reset_ := x.reset_ && !bit w 14 }

/-- A write of an outlet's register by a steward. While the ring is in service its size, place and base stay; R290 forbids
clearing enable while a record is open or not yet drained. -/
def State.outPortWrite (o r v : Nat) (s : State) : State :=
  let x := s.outlet o
  let on := s.outEn o
  if r = 0 then
    let old := s.outCfg o
    let rest := if on then bits old 12 1 * 2 else fieldW 1 1 v old anyVal + fieldW 12 8 v old fun n => 12 ≤ n && n ≤ 26
    let en := bit v 0 || (on && !(x.open_.isEmpty && x.done.isEmpty))
    s.setReg (.io 1) (outReg o 0) (b2n en + rest)
  else if r = 1 then (if on then s else s.ioMask (outReg o 1) 0xFFFFFFC0 v)
  else if r = 2 then (if on then s else s.setReg (.io 1) (outReg o 2) (if s.outDest o = 0 then v % 64 else v))
  else if r = 4 then s.outRdWrite o v
  else if r = 5 then s.outClear o v
  else s

/-! ### The pair ports (Tables 13-7 to 13-9) -/

/-- Live lanes of R449: UP with a dual-homed front-end. -/
def State.liveLanes (s : State) : List Nat :=
  (List.range s.nLanes).filter fun l => (s.lane l).state == 5 && (s.lane l).dual

/-- The Bridge is up (R438). -/
def State.bridgeUp (s : State) : Bool := s.pair.trained && 2 ≤ popcount 8 s.pair.lanes

/-- BR_CFG, its E in µs and its quorum. -/
def State.brCfg (s : State) : Nat := s.ioReg 0xE002 0x808

/-- The number of the last epoch acknowledged, 0 before the first. -/
def State.ackNum (s : State) : Nat := s.pair.acked.getD 0

/-- The pair ports. -/
def State.pairVal (s : State) (a : Nat) : Nat :=
  let p := s.pair
  if a = 0xE000 then
    s.role + b2n (p.state == 4) * 4 + b2n p.unprot * 8 + b2n p.reseat * 16 + b2n s.bridgeUp * 32 + b2n p.claimIn * 64
      + p.detach * 2 ^ 8
  else if a = 0xE001 then p.term
  else if a = 0xE002 then s.brCfg
  else if a = 0xE003 then lo32 p.epoch
  else if a = 0xE004 then p.epochLatch
  else if a = 0xE005 then lo32 s.ackNum
  else if a = 0xE006 then p.ackLatch
  else if a = 0xE007 then p.lanes + min 255 s.liveLanes.length * 2 ^ 8
  else if a = 0xE008 then p.hbMiss
  else if a = 0xE009 then p.jrnlHold
  else if a = 0xE00A then p.takeovers
  else if a = 0xE00B then s.ioReg a 32
  else if a = 0xE00C then p.reseatPct + b2n p.reseat * 2 ^ 8 + b2n p.seamPassed * 2 ^ 9 + p.reseatRes * 2 ^ 16
  else if a = 0xE00D then (p.unprotJobs.filter fun j => (Tbl.find s.cm.jobs j).isSome).length
  else if a = 0xE010 then p.pegRes
  else if a = 0xE011 then p.detachCnt
  else 0

/-- A peg operation is sent to the partner, whose word then returns (R465). -/
def State.brPegOp (op n : Nat) (s : State) : State :=
  if op = 0 || !s.bridgeUp then s else s.updPair fun p => { p with pegReq := some (op, n), pegRes := 0 }

/-- A write of a pair port. -/
def State.pairWrite (a v : Nat) (s : State) : State :=
  if a = 0xE002 then
    if s.pair.state = 1 || s.pair.state = 2 then s
    else s.setReg (.io 1) a (fieldW 4 0 v s.brCfg (fun x => 4 ≤ x && x ≤ 16) + fieldW 12 8 v s.brCfg fun x => 1 ≤ x && x ≤ 16)
  else if a = 0xE00B then s.setReg (.io 1) a (fieldW 6 0 v (s.ioReg a 32) fun x => 1 ≤ x && x ≤ 80)
  else if a = 0xE00E then s.brPegOp (bits v 11 10) (bits v 9 0)
  else s

/-! ### Timebase, trace ring and routers (Tables 14-13, 04-8, 10-14) -/

def State.tbVal (s : State) (a : Nat) : Nat :=
  let t := s.trace
  if a = 0xF000 then lo32 s.pwr.ts
  else if a = 0xF001 then s.pwr.tsLatch
  else if a = 0xF002 then lo32 s.pwr.tw
  else if a = 0xF003 then s.pwr.twLatch
  else if a = 0xF004 then s.pwr.undisc
  else if a = 0xF100 then s.trRingCtl
  else if a = 0xF101 || a = 0xF102 then s.ioReg a 0
  else if a = 0xF103 then t.wrIdx
  else if a = 0xF104 then s.trTrigCfg
  else if a = 0xF105 then s.trPost
  else if a = 0xF106 then
    b2n t.armed + b2n t.triggered * 2 + b2n t.stopped * 4 + b2n t.wrapped * 8 + b2n t.loss * 16 + t.origin * 2 ^ 8
  else if a = 0xF107 then lo32 t.trigTime
  else if a = 0xF108 then hi32 t.trigTime
  else if a = 0xF10A then t.lossCnt
  else if 0xF200 ≤ a && a < 0xF224 then Tbl.get 0 s.net.replay (a - 0xF200)
  else if 0xF240 ≤ a && a < 0xF264 then Tbl.get 0 s.net.hold (a - 0xF240)
  else if a = 0xF280 then min 255 s.pat.linkFail
  else 0

/-- TR_CMD (R139, R140). -/
def State.traceCmd (c : Nat) (s : State) : State :=
  if c % 4 = 1 then s.traceArm else if c % 4 = 2 then s.traceNow else if c % 4 = 3 then s.traceStop else s

/-- A write of a trace ring port. -/
def State.tbWrite (a v : Nat) (s : State) : State :=
  let put (x : Nat) : State := s.setReg (.io 1) a x
  if a = 0xF100 then
    let old := s.trRingCtl
    State.stageTrigger <| put (bits v 1 0 + if s.trRingOn then bits old 12 8 * 2 ^ 8 else fieldW 12 8 v old fun x => 12 ≤ x && x ≤ 27)
  else if a = 0xF101 then (if s.trRingOn then s else put (v &&& 0xFFFFF000))
  else if a = 0xF102 then (if s.trRingOn then s else put (v % 64))
  else if a = 0xF104 then
    State.stageTrigger <| put (fieldW 2 0 v s.trTrigCfg (· ≤ 4) + fieldW 5 3 v 0 anyVal + fieldW 11 8 v s.trTrigCfg fun x => 1 ≤ x && x ≤ 9)
  else if a = 0xF105 then put (v % 2 ^ 28)
  else if a = 0xF109 then s.traceCmd v
  else s

/-! ### All ports -/

/-- What a port reads as. -/
def State.ioVal (s : State) (st a : Nat) : Nat :=
  if s.portAbsent a || s.portOff a then 0
  else if a < 0x2000 then s.localVal st a
  else if a < 0x2C00 then 0
  else if a < 0x3000 then s.pegVal a
  else if a < 0x5000 then s.aoVal a
  else if a < 0x6000 then s.secVal a
  else if a < 0x7000 then s.flashVal a
  else if a < 0x8000 then s.relVal a
  else if a < 0xC000 then s.lgRange ((a - 0x8000) / 0x400) (a % 0x400)
  else if a < 0xD000 then (match pePort a with | some (p, r) => s.peVal p r | none => 0)
  else if a < 0xD800 then s.ddrVal a
  else if a < 0xDB00 then s.cabVal a
  else if a < 0xDC00 then s.cohVal a
  else if a < 0xDC40 then s.outVal ((a - 0xDC00) / 0x20) (a % 0x20)
  else if a < 0xE000 then 0
  else if a < 0xF000 then s.pairVal a
  else s.tbVal a

/-- What reading a port changes, pegs apart. -/
def State.ioTouch (st a : Nat) (s : State) : State :=
  if s.portAbsent a || s.portOff a then s
  else if a = 3 then s.updCore st fun c => { c with timeLatch := hi32 s.time }
  else if a = 0x7003 then s.evrData.2
  else if 0x8000 ≤ a && a < 0xC000 then s.lgTouch ((a - 0x8000) / 0x400) (a % 0x400)
  else if a = 0xE003 then s.updPair fun p => { p with epochLatch := hi32 p.epoch }
  else if a = 0xE005 then s.updPair fun p => { p with ackLatch := hi32 s.ackNum }
  else if a = 0xF000 then s.updPwr fun p => { p with tsLatch := hi32 p.ts }
  else if a = 0xF002 then s.updPwr fun p => { p with twLatch := hi32 p.tw }
  else s

/-- A read of a port by a steward's running task into a register: the value, and the state after it. -/
def State.ioRead (st a rd : Nat) (s : State) : Nat × State :=
  if s.portOff a then (0, s)
  else if 0x2000 ≤ a && a < 0x2800 then s.pegAcq { m := masterSt st, id := (s.core st).cur, rd := rd } (a % 0x400)
  else if 0x2800 ≤ a && a < 0x2C00 then s.pegRead (masterSt st) (a % 0x400)
  else (s.ioVal st a, s.ioTouch st a)

/-- A write of a port by a steward's running task. -/
def State.ioWrite (st a v : Nat) (s : State) : State :=
  if s.portAbsent a || s.portOff a then s
  else if a < 0x2000 then s.localWrite st a v
  else if a < 0x2800 then s
  else if a < 0x2C00 then s.pegRel (masterSt st) (s.core st).cur (a % 0x400)
  else if a < 0x2C10 then (s.noteOld a (s.ioReg a 0x3C)).ioMask a 0xFF v
  else if a < 0x3000 then s
  else if a < 0x5000 then s.aoWrite st a v
  else if a < 0x6000 then (if a = 0x5001 then s.tmpWrite v else s)
  else if a < 0x7000 then s
  else if a < 0x8000 then s.relWrite a v
  else if a < 0xC000 then s.lgWrite ((a - 0x8000) / 0x400) (a % 0x400) v
  else if a < 0xD000 then (match pePort a with | some (p, r) => s.peWrite p r v | none => s)
  else if a < 0xD800 then s.ddrWrite a v
  else if a < 0xDB00 then s.cabPortWrite a v
  else if a < 0xDC00 then (if a = 0xDB00 then { s with cohIdx := v % 1024 } else s)
  else if a < 0xDC40 then s.outPortWrite ((a - 0xDC00) / 0x20) (a % 0x20) v
  else if a < 0xE000 then s
  else if a < 0xF000 then s.pairWrite a v
  else s.tbWrite a v

/-! ### IN and OUT (R377, R394) -/

/-- The port number of an IN or OUT. -/
def State.portOf (s : State) (st w : Nat) : Nat := s.dAddr st w % 2 ^ 16

/-- Ports that extension mode never writes (R394). -/
def portFixed (a : Nat) : Bool :=
  a = 1 || a = 2 || a = 8 || a = 9 || a = 0xA || (0x10 ≤ a && a < 0x20)
    || (0x1000 ≤ a && a < 0x1200 && (a % 16 = 0 || a % 16 = 6 || a % 16 = 7))

/-- Whether the running task may use a port: bit b of XIO_ALLOWk allows port page 32k + b, a page being 256 ports. -/
def State.portAllowed (s : State) (st a : Nat) (write : Bool) : Bool :=
  s.fwMode st || (bit (Tbl.get 0 (s.core st).xio (a / 256 / 32)) (a / 256 % 32) && !(write && portFixed a))

/-- An access to a port by the instruction at the PC: IO_ACCESS outside the allowance; PSW.nio and no effect where the
domain is off; the access is held while the unit sleeps, which it wakes (R343, R344, R377). -/
def State.withPort (st w : Nat) (write : Bool) (f : Nat → State → State) (s : State) : State :=
  let a := s.portOf st w
  if !s.portAllowed st a write then s.enter st eIo a
  else if s.portAbsent a then f a s
  else if s.portOff a then ((if write then s else s.putRd st w 0).updCore st (setPsw 6)).advance st
  else if s.portAsleep a then (match portDom a with | some d => s.wakeDom d | none => s)
  else f a s

/-- IN. A port of PEG_ACQW suspends the task where the peg is not granted (R363, R388). -/
def execInPort (st : Nat) (s : State) : Out :=
  stOut st (sIs 0x1D) (fun w s =>
    s.withPort st w false fun a s =>
      if 0x2400 ≤ a && a < 0x2800 then (s.advance st).pegAcqWait st (a % 0x400) (sRd w)
      else let (v, s1) := s.ioRead st a (sRd w); (s1.putRd st w v).advance st) s

/-- OUT. -/
def execOutPort (st : Nat) (s : State) : Out :=
  stOut st (sIs 0x1E) (fun w s => s.withPort st w true fun a s => (s.ioWrite st a ((s.core st).vd w)).advance st) s

/-! ### Register commands of their own rows -/

/-- CAB_CFG_WRITE (R112). -/
def execCabCfgWrite (v : Word) (s : State) : Out :=
  State.plain (State.regDom 49 (.cabCfgWrite v) (State.cabPortWrite 0xD800 v.toNat)) s

end Sys2Proof.Machine
end

