-- ==== Sys2Proof/Machine/Host.lean ====
section
/-! DEFINITION. The host interface (chapter 12): configuration space, BAR0 of both functions, the DDR5 aperture, mailbox
registers, messages, function resets, the I3C target, and the commands GET_INFO, GET_CAPS and TRACE_CONFIG. -/

namespace Sys2Proof.Machine
open Sys2Proof

/-! ### Functions, their messages and configuration (R410, R419, R420, R424, R425) -/

/-- A physical function's record. -/
def State.func (s : State) (f : Nat) : Func := if f = 0 then s.host.pf0 else s.host.pf1
def State.updFunc (f : Nat) (g : Func → Func) (s : State) : State :=
  s.updHost fun h => if f = 0 then { h with pf0 := g h.pf0 } else { h with pf1 := g h.pf1 }

/-- The configuration registers that the device acts on: Command, PMCSR and the MSI-X message control. Their addresses are
the model's (log entry 40, PRESUMED). -/
def Func.cfgVal (x : Func) (a : Nat) : Nat :=
  if a = 0x04 then b2n x.bme * 4
  else if a = 0x40 then b2n x.d3 * 3
  else if a = 0x50 then b2n x.fnMask * 2 ^ 30 + b2n x.msixEn * 2 ^ 31
  else 0

/-- A configuration write. D1 and D2 are not supported, and such a write of PMCSR leaves the state as it is. -/
def Func.cfgWrite (a v : Nat) (x : Func) : Func :=
  if a = 0x04 then { x with bme := bit v 2 }
  else if a = 0x40 then { x with d3 := if v % 4 = 3 then true else if v % 4 = 0 then false else x.d3 }
  else if a = 0x50 then { x with fnMask := bit v 30, msixEn := bit v 31 }
  else x

/-- A word of the MSI-X table: address low and high, data, vector control. -/
def Func.tableVal (x : Func) (k : Nat) : Nat := Tbl.get (if k % 4 = 3 then 1 else 0) x.table k
def Func.tableWrite (k v : Nat) (x : Func) : Func :=
  { x with table := x.table.put k (if k % 4 = 0 then v / 4 * 4 else if k % 4 = 3 then v % 2 else v) }

/-- A word of the pending-bit array. -/
def Func.pba (x : Func) (k : Nat) : Nat := maskOf ((x.pend.filter fun v => v / 32 == k).map (· % 32))

/-- MSIX_PENDING_SEND (R420). -/
def execMsixPendingSend (fn vector : Nat) (s : State) : Out :=
  State.plain (fun s =>
    if (s.func fn).pend.contains vector then s.updFunc fn fun x => x.signal vector else s) s

/-! ### Mailbox registers (R407, R408) -/

/-- A mailbox register's value, by offset. -/
def Mbox.val (x : Mbox) (r : Nat) : Nat :=
  if r = 0 then x.cmd
  else if r = 8 then x.state + b2n x.orphan * 4 + x.tag * 2 ^ 8 + x.status * 2 ^ 16
  else if r = 0xC then x.rspLen + x.id * 2 ^ 8
  else if r = 0x10 then x.cfg
  else if r = 0x14 then lo32 x.time
  else if r = 0x18 then hi32 x.time
  else if 0x20 ≤ r then fld x.data (r - 0x20) 4
  else 0

/-- Bytes of MB_DATA replaced from an offset on. -/
def Mbox.putData (o : Nat) (bs : List Byte) (x : Mbox) : Mbox :=
  { x with data := x.data.take o ++ zeros (o - x.data.length) ++ bs ++ x.data.drop (o + bs.length) }

/-- Whether a mailbox takes no write of MB_CMD, MB_GO and MB_DATA. -/
def Mbox.busy (x : Mbox) : Bool := x.state == 1 || x.state == 2

/-- A write of MB_GO: accepted in IDLE and DONE, otherwise counted. -/
def State.mbGo (n : Nat) (s : State) : State :=
  if (s.mb n).busy then s.updHost fun h => { h with mbReject := sat32 h.mbReject 1 }
  else ((s.updMb n fun x => { x with state := 1, orphan := false }).raise n).askWake 1

/-- A write of a mailbox register. -/
def State.mbWrite (n r v : Nat) (s : State) : State :=
  if r = 4 then s.mbGo n
  else if r = 0x10 then s.updMb n fun x => { x with cfg := v % 2 }
  else if (s.mb n).busy then s
  else if r = 0 then s.updMb n fun x => { x with cmd := v % 2 ^ 24 }
  else if 0x20 ≤ r then s.updMb n (Mbox.putData (r - 0x20) (leBytes 4 v))
  else s

/-! ### Identity, job queue and alert pages (R219, R406, R422) -/

/-- The part number. -/
def State.partNo (s : State) : Nat := s.byPart 0x8128 0x8064 0x8032

/-- The JTAG IDCODE register (R552): die revision, part number, 0x3B5, 1. -/
def State.idcode (s : State) : Nat := s.otp.dieRev % 16 * 2 ^ 28 + s.partNo * 2 ^ 12 + 0x3B5 * 2 + 1

/-- ID_PART. -/
def State.idPart (s : State) : Nat := s.partNo + s.otp.dieRev % 16 * 2 ^ 16 + s.otp.trim % 16 * 2 ^ 20

/-- GiB and rate code of the populated DDR5: the enabled channels. -/
def State.popGiB (s : State) : Nat := ((List.range s.nDc).filter s.dcOn).length * s.chanGiB
def State.popRate (s : State) : Nat := bits (s.dcCfg 0) 1 0

/-- The identity and capability page. -/
def State.idVal (s : State) (a : Nat) : Nat :=
  if a = 0 then 0x4A494C59
  else if a = 4 then s.idPart
  else if a = 8 then lo32 s.otp.serial
  else if a = 0xC then hi32 s.otp.serial
  else if a = 0x10 then Config.actorIsa % 2 ^ 16 + 2 ^ 16 + 2 ^ 24
  else if a = 0x14 then (if s.fwRuns then s.boot.image.version else 0)
  else if a = 0x18 then (if s.fwRuns then s.boot.image.api + s.boot.running.getD 0 * 2 ^ 16 else 0)
  else if a = 0x20 then lo32 s.time
  else if a = 0x24 then s.host.timeLatch
  else if a = 0x40 then s.idUnits0
  else if a = 0x44 then s.idUnits1
  else if a = 0x48 then s.sparesIn
  else if a = 0x4C then s.popGiB + s.popRate * 2 ^ 16
  else 0

/-- Whether the head job waits (JQ_STATUS). -/
def State.headWaits (s : State) : Bool := match s.cm.queue with | j :: _ => !s.canAdmit j | [] => false

/-- The job-queue registers. -/
def State.jqVal (s : State) (a : Nat) : Nat :=
  if a = 0x2008 then
    s.cm.queue.length + s.cm.jobs.length * 2 ^ 16 + b2n s.cm.db.held.isSome * 2 ^ 29 + b2n s.headWaits * 2 ^ 30
      + b2n s.cm.refused * 2 ^ 31
  else if a = 0x200C then s.cm.refusedCnt
  else if a = 0x2010 || a = 0x2014 then s.reg .bar0 a 0
  else if a = 0x2018 then s.crCfg
  else if a = 0x201C then s.cm.head
  else if a = 0x2020 then s.cm.tail
  else 0

/-- JQ_DB_LO: journalled by the active, ignored by the standby (R463). -/
def State.dbLoWrite (v : Nat) (s : State) : State :=
  if s.standby || !s.hostRoom then s
  else (s.jrnl 0x06 [0, 0x2000, v] []).updCm fun c => { c with db := { c.db with lo := v &&& 0xFFFFFFE1 } }

/-- A write of a job-queue register. -/
def State.jqWrite (a v : Nat) (s : State) : State :=
  if a = 0x2000 then s.dbLoWrite v
  else if a = 0x2004 then s.doorbell v
  else if a = 0x2008 then (if bit (s.w1c .jq 32 v) 31 then s.updCm fun c => { c with refused := false } else s)
  else if a = 0x2010 then (if s.crOn then s else s.setReg .bar0 a (v &&& 0xFFFFFFC0))
  else if a = 0x2014 then (if s.crOn then s else s.setReg .bar0 a v)
  else if a = 0x2018 then s.crCfgWrite v
  else if a = 0x201C then s.crHeadWrite v
  else s

/-- DEV_STATE. -/
def State.devState (s : State) : Nat := s.boot.dev + s.cab.devStage * 2 ^ 4 + b2n s.pair.en * 2 ^ 6 + s.role * 2 ^ 7

/-- The sites 32·j to 32·j + 31 for which a test holds. -/
def siteBits (f : Nat → Bool) (j : Nat) : Nat := maskOf ((List.range 32).filter fun i => f (32 * j + i))

/-- The alert page. -/
def State.alertVal (s : State) (r : Nat) : Nat :=
  if r = 0 then s.host.alert
  else if r = 4 then s.alertEn
  else if r = 8 then s.devState
  else if 0x10 ≤ r && r < 0x20 then siteBits (fun k => (s.site k).flooded) ((r - 0x10) / 4)
  else if 0x30 ≤ r && r < 0x40 then siteBits (fun k => (s.site k).quar) ((r - 0x30) / 4)
  else if 0x40 ≤ r && r < 0x50 then s.host.laneAlert / 2 ^ (32 * ((r - 0x40) / 4)) % 2 ^ 32
  else if r = 0x50 then s.host.mbReject
  else if r = 0x54 then s.host.superseded
  else if r = 0x60 then s.reg .bar0 0x3060 0
  else if r = 0x64 then s.host.dwinViol
  else 0

/-- The bits of `v` that were set, cleared. -/
def clearBits (old v : Nat) : Nat := old ^^^ (old &&& v)

/-- A write of ALERT_EN: an alert that is set sends its message when it becomes enabled (R420). -/
def State.alertEnWrite (v : Nat) (s : State) : State :=
  let old := s.alertEn
  (setBitsOf 16 v).foldl (fun s k => when (!bit old k && bit s.host.alert k) (State.msix0 (18 + k)) s)
    (s.setReg .bar0 0x3004 (v % 2 ^ 16))

/-- A write of the alert page. -/
def State.alertWrite (r v : Nat) (s : State) : State :=
  if r = 0 then
    (s.reSent .host 16 s.host.alert s.alertEn v).foldl (fun s k => s.msix0 (18 + k))
      (s.updHost fun h => { h with alert := clearBits h.alert (s.w1c .host 32 v) })
  else if r = 4 then s.alertEnWrite v
  else if 0x20 ≤ r && r < 0x30 then s.floodClr ((r - 0x20) / 4) v
  else if 0x40 ≤ r && r < 0x50 then
    s.updHost fun h =>
      { h with laneAlert := clearBits h.laneAlert (s.w1c .lane 128 (v * 2 ^ (32 * ((r - 0x40) / 4)))) }
  else if r = 0x60 then s.setReg .bar0 0x3060 (v &&& 0x103FF)
  else s

/-! ### PF0 BAR0 and PF1 BAR0 (R402, R403, R405) -/

/-- OUT_RD as the host writes it: journalled by the active, ignored by the standby (R463). -/
def State.hostOutRd (o v : Nat) (s : State) : State :=
  if s.standby || !s.hostRoom then s else (s.jrnl 0x06 [0, 0x100010 + 0x100 * o, v] []).outRdWrite o v

/-- OUT_RD_WRITE (R295, R463). -/
def execOutRdWrite (outlet : Nat) (v : Word) (s : State) : Out :=
  State.plain (State.pf0 (.outRdWrite outlet v)
    (State.regDom (outDom outlet) (.outRdWrite outlet v) (State.hostOutRd outlet v.toNat))) s

/-- What a register of PF0's BAR0 reads as; the pegs have commands of their own. -/
def State.barVal (s : State) (a : Nat) : Nat :=
  if a % 4 != 0 then 0
  else if a < 0x1000 then s.idVal a
  else if a < 0x1F00 then (s.mb ((a - 0x1000) / 0x100)).val (a % 0x100)
  else if a < 0x2000 then 0
  else if a < 0x3000 then s.jqVal a
  else if a < 0x4000 then s.alertVal (a - 0x3000)
  else if a < 0x6000 then 0
  else if a < 0x6400 then s.host.pf0.tableVal ((a - 0x6000) / 4)
  else if 0x7000 ≤ a && a < 0x7008 then s.host.pf0.pba ((a - 0x7000) / 4)
  else if 0x10000 ≤ a && a < 0x30000 then fld (s.rcd.slot ((a - 0x10000) / 32)) (a % 32) 4
  else if 0x100000 ≤ a && a < 0x100200 then
    let o := (a - 0x100000) / 0x100
    if s.domOn (outDom o) && a % 0x100 < 0x30 then s.outVal o (a % 0x100 / 4) else 0
  else 0

/-- A write of PF0's BAR0. -/
def State.barWrite (a v : Nat) (s : State) : State :=
  let c : Instr := .registerWrite .bar0 a (BitVec.ofNat 32 v)
  if a % 4 != 0 || s.host.pf0.d3 then s
  else if a < 0x1000 then s
  else if a < 0x1F00 then s.mbWrite ((a - 0x1000) / 0x100) (a % 0x100) v
  else if a < 0x2000 then s
  else if a < 0x3000 then s.regDom 6 c (State.jqWrite a v)
  else if a < 0x4000 then s.alertWrite (a - 0x3000) v
  else if a < 0x5000 then s
  else if a < 0x6000 then s.regDom 1 c (State.masterRel 0 0 ((a - 0x5000) / 4))
  else if a < 0x6400 then s.updFunc 0 (Func.tableWrite ((a - 0x6000) / 4) v)
  else if 0x100000 ≤ a && a < 0x100200 then
    let o := (a - 0x100000) / 0x100
    s.regDom (outDom o) c fun s =>
      if a % 0x100 = 0x10 then s.hostOutRd o v else if a % 0x100 = 0x14 then s.outClear o v else s
  else s

/-- What a register of PF1's BAR0 reads as. -/
def State.pf1Val (s : State) (a : Nat) : Nat :=
  if a % 4 != 0 then 0
  else if a = 0 then
    maskOf ((List.range 2).filter fun o => s.outEn o && !(s.outlet o).done.isEmpty && !s.destOpen o)
  else if a = 4 || a = 8 then s.reg .pf1 a 1
  else if 0x1000 ≤ a && a < 0x1400 then s.host.pf1.tableVal ((a - 0x1000) / 4)
  else if 0x1800 ≤ a && a < 0x1808 then s.host.pf1.pba ((a - 0x1800) / 4)
  else 0

/-- A write of PF1's BAR0; count 0 is reserved (R13). -/
def State.pf1Write (a v : Nat) (s : State) : State :=
  if a % 4 != 0 || s.host.pf1.d3 then s
  else if a = 4 || a = 8 then s.setReg .pf1 a (fieldW 15 0 v (s.reg .pf1 a 1) (· != 0) + bits v 31 16 * 2 ^ 16)
  else if 0x1000 ≤ a && a < 0x1400 then s.updFunc 1 (Func.tableWrite ((a - 0x1000) / 4) v)
  else s

/-- PF1_MODERATION_TIMER (R405): the timer's microseconds after the first record since the last message. -/
def execPf1ModerationTimer (outlet : Nat) (s : State) : Out :=
  let t := bits (s.reg .pf1 (4 + 4 * outlet) 1) 31 16
  State.timed (if t = 0 then none else (s.outlet outlet).modSince.map (· + t * US)) (fun s =>
    (s.updOutlet outlet fun x => { x with modCount := 0, modSince := none }).msix1 outlet) s

/-! ### The DDR5 aperture (R404, R446) -/

/-- Bytes written from an address on, each only inside the job area; whether one lay outside. -/
def State.bar2Bytes (a : Nat) (bs : List Byte) (s : State) : State :=
  let lo := s.jobBase - a
  let n := s.jobLimit - max a s.jobBase
  let inside := slice bs lo n
  let s1 := if inside.isEmpty then s else (s.ddrPut (a + lo) inside).invalidate (a + lo) inside.length
  if s.inJobArea a bs.length then s1 else s1.updHost fun h => { h with dwinViol := sat32 h.dwinViol 1 }

/-- BAR2_WRITE. It waits until the channels that the bytes lie in are awake (R343). -/
def execBar2Write (offset : Nat) (data : List Byte) (s : State) : Out :=
  State.plain (State.pf0 (.bar2Write offset data) fun s =>
    let w := s.reg .bar0 0x3060 0
    let a := bits w 9 0 * 2 ^ 28 + offset
    let bs := data.take (2 ^ 28 - offset)
    if !bit w 16 || s.host.pf0.d3 || bs.isEmpty then s
    else if s.standby then s.updHost fun h => { h with dwinViol := sat32 h.dwinViol 1 }
    else
      let off := (List.range s.nDc).filter fun c =>
        !s.domOn (dcDom c) && (List.range (cdiv bs.length 256 + 1)).any fun i => s.chanOfAddr (a + 256 * i) == c
      match off with
      | [] => s.bar2Bytes a bs
      | c :: _ => s.regDom (dcDom c) (.bar2Write offset data) id) s

/-! ### Function resets (R423, R424) -/

/-- Mailboxes whose command runs on although its master has gone: orphan, and MB_CFG at its reset value. -/
def State.orphan (ms : List Nat) (s : State) : State :=
  ms.foldl (fun s m => s.updMb m fun x => { x with cfg := 1, orphan := x.orphan || x.state == 2 }) s

/-- PF0_RESET (R366, R423). -/
def execPf0Reset (_perst : Bool) (s : State) : Out :=
  State.plain (fun s =>
    let drop := [0x3004, 0x3060, 0x2018].map (regKey .bar0)
    let s1 := { s with regs := s.regs.filter fun r => !drop.contains r.1 }
    let s2 := (s1.updFunc 0 fun _ => {}).updCm fun c => { c with db := { c.db with held := none, posted := [] } }
    (((s2.orphan (List.range 15)).pegForce fun p => p.owner == 0).raise 26)) s

/-- PF1_RESET (R424). -/
def execPf1Reset (_perst : Bool) (s : State) : Out :=
  State.plain (fun s =>
    let drop := [4, 8].map (regKey .pf1)
    (({ s with regs := s.regs.filter fun r => !drop.contains r.1 }).updFunc 1 fun _ => {}).raise 26) s

/-! ### I3C (R426 to R428) -/

/-- The target answers while VDD_AO and VDD_IO are good. -/
def State.i3cUp (s : State) : Bool := bit s.pwr.rails 0 && bit s.pwr.rails 1

/-- A command of the bus that only an addressed target takes. -/
def State.i3cAddressed (f : I3c → I3c) (s : State) : State := if s.i3cUp && s.i3c.addr.isSome then s.updI3c f else s

/-- ENTDAA. -/
def execEntdaa (addr : Nat) (s : State) : Out :=
  State.plain (fun s => if s.i3cUp && s.i3c.addr.isNone then s.updI3c fun i => { i with addr := some addr } else s) s

/-- RSTDAA. -/
def execRstdaa (s : State) : Out :=
  State.plain (fun s => if s.i3cUp then s.updI3c fun i => { i with addr := none } else s) s

/-- ENEC and DISEC: bit 0 governs in-band interrupts (log entry 41, PRESUMED). -/
def execEnec (events : Byte) (s : State) : Out :=
  State.plain (State.i3cAddressed fun i => { i with ev := i.ev ||| events.toNat }) s
def execDisec (events : Byte) (s : State) : Out :=
  State.plain (State.i3cAddressed fun i => { i with ev := clearBits i.ev events.toNat }) s

/-- GETPID, GETBCR, GETDCR, GETMWL and GETMRL return what the target is built with (log entry 4, DESIGN CHOICE). -/
def execGetpid (s : State) : Out :=
  State.plain (fun s => s.i3cAddressed fun i => { i with out := leBytes 6 (Config.i3cPid s.otp.serial) }) s
def execGetbcr (s : State) : Out :=
  State.plain (State.i3cAddressed fun i => { i with out := leBytes 1 (Config.i3cConst 0x8E) }) s
def execGetdcr (s : State) : Out :=
  State.plain (State.i3cAddressed fun i => { i with out := leBytes 1 (Config.i3cConst 0x8F) }) s
def execGetmwl (s : State) : Out :=
  State.plain (State.i3cAddressed fun i => { i with out := leBytes 2 (Config.i3cConst 0x8B) }) s
def execGetmrl (s : State) : Out :=
  State.plain (State.i3cAddressed fun i => { i with out := leBytes 2 (Config.i3cConst 0x8C) }) s

/-- GETSTATUS returns a value that the manual does not give: a free one. -/
def execGetstatus (s : State) : Out :=
  State.plain (fun s =>
    if s.i3cUp && s.i3c.addr.isSome then
      let (v, s1) := s.fresh
      s1.updI3c fun i => { i with out := leBytes 2 v }
    else s) s

/-- RSTACT (R366, R426): BMC_ALERT and the interrupts that it has raised stay. -/
def execRstact (s : State) : Out :=
  State.plain (fun s =>
    if s.i3cUp then
      let s1 := { s with regs := s.regs.del (regKey .i3c 0xC) }
      ((s1.updI3c fun i => { ibi := i.ibi }).orphan [15]).pegForce fun p => p.owner == 1
    else s) s

/-- BMC_TJ: the hottest quadrant, of sentinel inputs 92 to 95 in quarter degrees. -/
def State.bmcTj (s : State) : Nat :=
  let t (q : Nat) : Int := s.sn.inputs.getD (92 + q) 0
  let m := [1, 2, 3].foldl (fun b q => if t b < t q then q else b) 0
  wrap 8 (t m / 4) + m * 2 ^ 8

/-- What a register of the I3C space reads as; the pegs apart. -/
def State.i3cVal (s : State) (a : Nat) : Nat :=
  if a = 0 then s.idPart
  else if a = 4 then s.devState
  else if a = 8 then s.host.bmcAlert
  else if a = 0xC then s.bmcAlertEn
  else if a = 0x10 then s.bmcTj
  else if a = 0x14 then lo32 s.time
  else if a = 0x18 then s.i3c.timeLatch
  else if 0x100 ≤ a && a < 0x200 then (s.mb 15).val (a - 0x100)
  else 0

/-- A peg operation of a peg bank that runs; one without power reads as zero (R344). -/
def State.i3cPeg (f : State → Nat × State) (s : State) : Nat × State := if s.domOn 1 then f s else (0, s)

/-- Whether a private read of n bytes begins a peg operation, which waits for the peg bank's clocks (R343). -/
def State.i3cAsks (s : State) (n : Nat) : Bool :=
  (List.range n).any fun i => let p := (s.i3c.ptr + i) % 2 ^ 16; 0x1000 ≤ p && p < 0x3000 && p % 4 = 0

/-- A read of a register of the I3C space. -/
def State.i3cRead (a : Nat) (s : State) : Nat × State :=
  if a = 0x14 then (s.i3cVal a, s.updI3c fun i => { i with timeLatch := hi32 s.time })
  else if 0x1000 ≤ a && a < 0x2000 then
    s.i3cPeg (fun s =>
      if s.standby || !s.hostRoom then (0, s)
      else
        let (w, s1) := s.pegAcq { m := 1, place := s.pair.pegHeld.length } ((a - 0x1000) / 4)
        (w, s1.jrnl 0x06 [1, a, 0] []))
  else if 0x2000 ≤ a && a < 0x3000 then s.i3cPeg (State.pegRead 1 ((a - 0x2000) / 4))
  else (s.i3cVal a, s)

/-- A write of BMC_ALERT_EN, by the rule of R420. -/
def State.bmcEnWrite (v : Nat) (s : State) : State :=
  let old := s.bmcAlertEn
  (setBitsOf 16 v).foldl (fun s k => when (!bit old k && bit s.host.bmcAlert k) (State.ibi k) s)
    (s.setReg .i3c 0xC (v % 2 ^ 16))

/-- A write of a register of the I3C space; an interrupt whose alert bit is cleared is offered no more. -/
def State.i3cWrite (a v : Nat) (s : State) : State :=
  if a = 8 then
    let w := s.w1c .bmc 32 v
    (s.reSent .bmc 16 s.host.bmcAlert s.bmcAlertEn v).foldl (fun s k => s.ibi k) <|
      (s.updHost fun h => { h with bmcAlert := clearBits h.bmcAlert w }).updI3c fun i =>
      { i with ibi := i.ibi.filter fun k => !(k < 16 && bit w k) }
  else if a = 0xC then s.bmcEnWrite v
  else if 0x100 ≤ a && a < 0x200 then s.mbWrite 15 (a - 0x100) v
  else if 0x2000 ≤ a && a < 0x3000 then s.regDom 1 (.registerWrite .i3c a (BitVec.ofNat 32 v)) (State.masterRel 1 0 ((a - 0x2000) / 4))
  else s

/-- A byte of the register whose last byte has arrived; one that the write did not carry is a free value (R427). -/
def State.i3cSent (x : Nat × State) (a : Nat) : Nat × State :=
  match Tbl.find x.2.i3c.wbuf a with
  | some b => (x.1 * 2 ^ 8 + b.toNat, x.2)
  | none => let (v, s) := x.2.fresh; (x.1 * 2 ^ 8 + v % 2 ^ 8, s)

/-- A data byte of a private write: MB_DATA takes it at once, another register when its last byte arrives. -/
def State.i3cByte (s : State) (b : Byte) : State :=
  let p := s.i3c.ptr
  let s1 := s.updI3c fun i => { i with ptr := (p + 1) % 2 ^ 16, wbuf := i.wbuf.put p b }
  if 0x120 ≤ p && p < 0x200 then
    if (s.mb 15).busy then s1 else s1.updMb 15 (Mbox.putData (p - 0x120) [b])
  else if p % 4 = 3 then
    let (v, s2) := [p, p - 1, p - 2, p - 3].foldl State.i3cSent (0, s1)
    s2.i3cWrite (p - 3) v
  else s1

/-- I3C_PRIVATE_WRITE (R427). -/
def execI3cPrivateWrite (data : List Byte) (s : State) : Out :=
  State.plain (fun s =>
    if !s.i3cUp || s.i3c.addr.isNone || data.length < 2 then s
    else ((data.drop 2).foldl State.i3cByte (s.updI3c fun i => { i with ptr := fld data 0 2, wbuf := [] })).raise 27) s

/-- One byte of a private read: the first byte of a register latches all four. -/
def State.i3cReadByte (s : State) : State :=
  let p := s.i3c.ptr
  let a := p - p % 4
  let s1 :=
    if p % 4 = 0 then
      let (v, t) := s.i3cRead a
      t.updI3c fun i => { i with latch := leBytes 4 v, latchAt := some a }
    else if s.i3c.latchAt = some a then s
    else s.updI3c fun i => { i with latch := leBytes 4 (s.i3cVal a), latchAt := some a }
  s1.updI3c fun i => { i with ptr := (p + 1) % 2 ^ 16, out := i.out ++ [i.latch.getD (p % 4) 0] }

/-- I3C_PRIVATE_READ (R427). -/
def execI3cPrivateRead (count : Nat) (s : State) : Out :=
  State.plain (fun s =>
    if !s.i3cUp || s.i3c.addr.isNone then s
    else
      let go (s : State) : State := (List.range count).foldl (fun s _ => s.i3cReadByte) (s.updI3c fun i => { i with out := [] })
      if s.i3cAsks count && (s.dom 1).state != 0 then s.regDom 1 (.i3cPrivateRead count) go else go s) s

/-- IN_BAND_INTERRUPT (R428): the oldest waiting interrupt is offered, and goes when the controller accepts it. -/
def execInBandInterrupt (accepted : Bool) (s : State) : Out :=
  State.plain (fun s =>
    match s.i3c.ibi with
    | k :: r =>
      if s.i3cUp && s.i3c.addr.isSome && bit s.i3c.ev 0 then
        s.updI3c fun i => { i with out := [BitVec.ofNat 8 k], ibi := if accepted then r else i.ibi }
      else s
    | [] => s) s

/-! ### Latching reads and register writes (R10 to R13, R403) -/

/-- The IO ports whose read latches a high half. -/
def ioLatching (a : Nat) : Bool :=
  a = 3 || a = 0xE003 || a = 0xE005 || a = 0xF000 || a = 0xF002
    || (0x8000 ≤ a && a < 0xC000 && 0x200 ≤ a % 0x400 && a % 0x400 < 0x300 && (a % 0x20 = 8 || a % 0x20 = 0xA))

/-- A command's access to a port: held while the unit sleeps, lost without power. -/
def State.portDo (a : Nat) (c : Instr) (f : State → State) (s : State) : State :=
  match portDom a with | some d => s.regDom d c f | none => f s

/-- LATCHING_READ. -/
def execLatchingRead (space : Space) (addr : Nat) (s : State) : Out :=
  State.plain (fun s =>
    match space with
    | .io st => if ioLatching addr then s.portDo addr (.latchingRead space addr) (State.ioTouch st addr) else s
    | .bar0 => if addr = 0x20 && !s.host.pf0.d3 then s.updHost fun h => { h with timeLatch := hi32 s.time } else s
    | .i3c => if addr = 0x14 then s.updI3c fun i => { i with timeLatch := hi32 s.time } else s
    | .pf1 => s
    | .cfg _ => s) s

/-- REGISTER_WRITE. -/
def execRegisterWrite (space : Space) (addr : Nat) (v : Word) (s : State) : Out :=
  State.plain (fun s =>
    match space with
    | .io st => s.portDo addr (.registerWrite space addr v) (State.ioWrite st addr v.toNat)
    | .bar0 => s.pf0 (.registerWrite space addr v) (State.barWrite addr v.toNat)
    | .pf1 => s.pf1Write addr v.toNat
    | .i3c => s.i3cWrite addr v.toNat
    | .cfg f => s.updFunc f (Func.cfgWrite addr v.toNat)) s

/-! ### GET_INFO and GET_CAPS (R412, R413, R496) -/

/-- GET_INFO's response; the boot ROM reports the firmware's fields as zero. -/
def State.infoBytes (s : State) : List Byte :=
  let fw (n : Nat) : Nat := if s.fwRuns then n else 0
  let cur := s.boot.running.getD 0
  let flags := b2n (s.slotImage 0).isSome + b2n (s.slotImage 1).isSome * 2 + b2n s.boot.trial * 4 + b2n s.boot.fmtReset * 8
  let other := match s.slotImage (1 - cur) with | some i => i.version | none => 0
  leBytes 2 s.partNo ++ leBytes 1 (s.otp.dieRev % 16) ++ leBytes 1 (if s.otp.trim = 0xC then 0x43 else 0x41)
    ++ leBytes 8 s.otp.serial ++ leBytes 1 (fw cur) ++ leBytes 1 (fw flags) ++ leBytes 2 (fw s.boot.image.api)
    ++ leBytes 4 (fw s.boot.image.version) ++ leBytes 4 (fw other) ++ leBytes 2 (fw s.boot.image.setFmt)
    ++ leBytes 2 (min 0xFFFF (fw s.confLeft)) ++ zeros 4 ++ leBytes 8 s.time
    ++ (if s.otp.trim = 0xC then padTo 64 s.otp.charData else zeros 64)

/-- GET_INFO. -/
def execGetInfo (mb : Nat) (s : State) : Out :=
  State.plain (State.serveMb mb 0x01 1 0 0 [] okArgs noAbsent false fun _ s => s.finish mb OK s.infoBytes) s

/-- GET_CAPS's response. Firmware of service level 1 emulates no opcode (R188). -/
def State.capsBytes (s : State) : List Byte :=
  leBytes 4 s.idUnits0 ++ leBytes 4 s.idUnits1 ++ leBytes 1 s.sparesIn ++ leBytes 1 15
    ++ leBytes 2 Config.actorIsa ++ leBytes 2 s.popGiB ++ leBytes 2 ([4800, 5600, 6400].getD s.popRate 6400)
    ++ leBytes 4 s.admLimit ++ leBytes 1 (if s.cabOn then bits s.cabCfg 4 0 else 0)
    ++ leBytes 1 (b2n (!s.otp.extHash.isEmpty) + b2n s.pair.en * 2 + b2n (!s.sec.keys.isEmpty) * 4)
    ++ leBytes 2 s.cm.blocks.length ++ zeros 12 ++ leBytes 1 64 ++ zeros 3

/-- GET_CAPS. -/
def execGetCaps (mb : Nat) (s : State) : Out :=
  State.plain (State.serveMb mb 0x02 1 0 0 [] okArgs noAbsent false fun _ s => s.finish mb OK s.capsBytes) s

/-! ### TRACE_CONFIG (R411) -/

/-- The named fields. -/
def traceNamed : List (Nat × Nat) := [(0, 4), (4, 4), (8, 8), (16, 4), (20, 4), (24, 8), (32, 24), (56, 1)]

/-- Whether every field's encoding is defined and every reserved bit zero. -/
def traceOk (a : List Byte) : Bool :=
  let ring := fld a 0 4
  let trig := fld a 4 4
  let base := fld a 8 8
  ring &&& 0x1F03 == ring && 12 ≤ bits ring 12 8 && bits ring 12 8 ≤ 27
    && trig &&& 0xF3F == trig && bits trig 2 0 ≤ 4 && 1 ≤ bits trig 11 8 && bits trig 11 8 ≤ 9
    && base % 4096 == 0 && base < 2 ^ 38 && fld a 16 4 < 2 ^ 28 && fld a 20 4 &&& 0x01FFFF3F == fld a 20 4
    && fld a 32 4 < 2 ^ 20 && fld a 36 4 < 2 ^ 14 && fld a 40 4 < 2 ^ 28
    && fld a 44 4 < 2 ^ 20 && fld a 48 4 < 2 ^ 14 && fld a 52 4 < 2 ^ 28 && fld a 56 1 ≤ 3

/-- The settings of one PE. -/
def State.tracePe (a : List Byte) (p : Nat) (s : State) : State :=
  (List.range 7).foldl (fun s i => s.peWrite p (0x20 + i) (if i = 0 then fld a 20 4 else fld a (28 + 4 * i) 4)) s

/-- TRACE_CONFIG: the PEs of the mask, then the ring and trigger registers, then the command. -/
def execTraceConfig (mb : Nat) (s : State) : Out :=
  State.plain (State.serveMb mb 0xA0 1 0 57 traceNamed traceOk
    (fun a => (setBitsOf 64 (fld a 24 8)).any fun k => s.nPe ≤ k) false fun a s =>
      let s1 := (setBitsOf 64 (fld a 24 8)).foldl (fun s k => s.tracePe a (s.physOf k)) s
      let s2 := ((s1.tbWrite 0xF101 (fld a 8 4)).tbWrite 0xF102 (fld a 12 4)).tbWrite 0xF100 (fld a 0 4)
      let s3 := ((s2.tbWrite 0xF104 (fld a 4 4)).tbWrite 0xF105 (fld a 16 4)).traceCmd (fld a 56 1)
      s3.finish mb OK (leBytes 4 (s3.tbVal 0xF106) ++ leBytes 4 s3.trace.wrIdx)) s

end Sys2Proof.Machine
end

