-- ==== Sys2Proof/Machine/Boot.lean ====
section
/-! DEFINITION. The boot sequence, slot choice, settings at start, and the restarts of the steward cluster (R493 to R498,
R503 to R511, R383). -/

namespace Sys2Proof.Machine
open Sys2Proof

/-! ### Slot choice (R498) -/

/-- An event of start-up that Table 16-4 gives no code of its own. -/
def State.bootEvent (s : State) : State := s.event cSt 0 0x80FF 0

/-- The slots in the order in which they are tried, the record of R498 appended. -/
def State.slotOrder (ordered : Bool) (s : State) : Nat × Nat × State :=
  match s.boot.record with
  | none => (0, 1, s)
  | some r =>
    if r.trial && (ordered || 1 ≤ r.attempts) then
      (r.prev, r.active, s.appendBoot { active := r.prev, prev := r.active, trial := false } .keep none)
    else if r.trial then (r.active, r.prev, s.appendBoot { r with attempts := 1 } .keep none)
    else (r.active, 1 - r.active, s)

/-- The first valid slot of an order; a record and an event when it is the second. -/
def State.firstValid (a b : Nat) (s : State) : Option (Nat × Image) × State :=
  match s.slotImage a, s.slotImage b with
  | some i, _ => (some (a, i), s)
  | none, some i => (some (b, i), (s.appendBoot { active := b, prev := a, trial := false } .keep none).bootEvent)
  | none, none => (none, s)

/-- The slot that the boot ROM boots. -/
def State.chooseSlot (ordered : Bool) (s : State) : Option (Nat × Image) × State :=
  let (a, b, s1) := s.slotOrder ordered
  s1.firstValid a b

/-! ### Firmware starts (R372, R385, R495) -/

/-- A core starts on its code, at address 0 in slot 0, in firmware mode (log entry 42, DESIGN CHOICE). -/
def State.startCore (st : Nat) (code : List Byte) (s : State) : State :=
  State.dspStart st 0 (s.updCore st fun c =>
    { ispace := Mem.writeBytes 0 [] 0 (code.take 0x28000), iloaded := List.range 40, priv := c.priv,
      dbad := c.dbad })

/-- The image of a slot starts on every core. A trial is one that the boot record in force names. -/
def State.startFw (slot : Nat) (img : Image) (s : State) : State :=
  let base := slot * 0x1000000
  let body := s.flBytes 0 (base + 0x1000) (fld (s.flBytes 0 base 4096) 0x14 4)
  let s1 := (List.range 4).foldl (fun s st => s.startCore st (Config.fwCode body st)) s
  let (trial, prev) := match s.boot.record with
    | some r => (r.trial && r.active == slot, r.prev)
    | none => (false, 1 - slot)
  s1.updBoot fun b => { b with running := some slot, image := img, trial := trial, prevSlot := prev, fmtReset := false }

/-- Firmware runs: the confirmation timer of a trial starts (R508, R421). -/
def State.fwUp (s : State) : State :=
  let t := match s.boot.record with | some r => r.timeout | none => 120
  let s1 := s.updBoot fun b =>
    { b with dev := 2, step := 0, activating := none, reverting := false,
             confAt := if b.trial then some (s.time + t * SEC) else none }
  when s1.boot.trial (State.alert 8) s1

/-- Firmware loads its system block, where it obeys the rules of an image, and runs it in context 0 (R41, R106; log entry 16,
DESIGN CHOICE). -/
def State.loadSys (s : State) : State :=
  let img := Config.sysImage s.otp.part
  let n := Config.sysBlock % 1024
  if (Tbl.find s.cm.ctxs 0).isSome || (Tbl.find s.cm.blocks n).isSome then s
  else
    match s.checkBlock img img.length with
    | .error _ => s
    | .ok b => s.updCm fun c =>
        { c with blocks := c.blocks.put n { b with sys := true },
                 ctxs := c.ctxs.put 0 { block := n, state := 1, job := sysJob, granted := s.time } }

/-- No firmware runs: the boot ROM serves alone. -/
def State.romOnly (s : State) : State :=
  (s.updBoot fun b =>
    { b with dev := 0, step := 0, running := none, trial := false, confAt := none, activating := none,
             reverting := false }).updCl fun c => { c with cores := [] }

/-! ### The settings at start (R503, R505, R506, R510) -/

/-- The tags of format 1. -/
def setTags : List Nat := [0x1, 0x2, 0x10, 0x11, 0x20, 0x30, 0x31, 0x40, 0x50, 0x60, 0x70]

/-- FORMAT_RESET is reported, and the settings start from reset values; firmware-private records are carried. -/
def State.formatReset (t : Tbl (List Byte)) (write : Bool) (s : State) : State :=
  let s1 := ((s.updBoot fun b => { b with settings := t.filter fun r => 0x8000 ≤ r.1, fmtReset := true }).event cSt 0
    FORMAT_RESET 0).alert 8
  when write State.writeSettings s1

/-- A copy's records are taken, or reset for another format. Each undefined tag below 0x8000 is skipped with an event. -/
def State.takeSettings (c : Nat × Bool × Nat × Tbl (List Byte)) (s : State) : State :=
  let (f, _, q, t) := c
  let s1 := s.updBoot fun b => { b with setSeq := q }
  if f != s.boot.image.setFmt then s1.formatReset t true
  else
    (t.filter fun r => r.1 < 0x8000 && !setTags.contains r.1).foldl (fun s _ => s.bootEvent)
      (s1.updBoot fun b => { b with settings := t.filter fun r => 0x8000 ≤ r.1 || setTags.contains r.1 })

/-- Firmware reads its settings: the primary, or the backup. A primary that a trial wrote gives way to the backup, copied
over it, once the trial is over (R510). -/
def State.loadSettings (s : State) : State :=
  match s.settingsAt 0, s.settingsAt 1 with
  | some (f, tr, q, t), b =>
    if tr && !s.boot.trial then
      match b with
      | some c =>
        let bs := s.flBytes 1 0x100000 (64 + fld (s.flBytes 1 0x100000 64) 16 4)
        (s.flPut 1 { off := 0, erase := cdiv bs.length 4096, data := bs, ends := .keep }).takeSettings c
      | none => s.formatReset t false
    else s.takeSettings (f, tr, q, t)
  | none, some c => s.takeSettings c
  | none, none => s.formatReset [] false

/-- What a record brings when it is there. -/
def State.withSet (tag : Nat) (f : List Byte → State → State) (s : State) : State :=
  match Tbl.find s.boot.settings tag with | some d => f d s | none => s

/-- Pair mode is in force from a start whose settings hold pair_en = 1, where the part has the Bridge (R430, R431). -/
def State.startPair (s : State) : State :=
  if s.hasBridge then
    ((s.updPair fun p => { p with en := true, state := 4, formAt := s.time }).updDom 4 fun d => { d with set_ := 2 }).domSeek 4
  else s

/-- The DDR5 settings: shares, then the bounds of the job area. -/
def State.setShares (d : List Byte) (s : State) : State :=
  let s1 := (List.range 8).foldl (fun s u => s.shareWrite u (fld d (4 * u) 4)) s
  (List.range 4).foldl (fun s i => s.ddrWrite (0xD130 + i) (fld d (32 + 4 * i) 4)) s1

/-- Whether the Cabinet of a size lies in populated DDR5 that neither the job area nor the context table holds (R113). -/
def State.cabFits (s : State) (size : Nat) : Bool :=
  let lo := s.cabAddr 0 0
  let hi := lo + s.nPe * 32 * 2 ^ size
  let apart (a b : Nat) : Bool := b ≤ lo || hi ≤ a || b ≤ a
  hi ≤ s.popGiB * 2 ^ 30 && apart s.jobBase s.jobLimit && apart s.ctxBase (s.ctxBase + 2 ^ 25)

/-- The Cabinet and the context table: bases first, then size and, where the regions fit, enable (R112, R113, R220). -/
def State.setCabinet (d : List Byte) (s : State) : State :=
  let w (a o : Nat) (s : State) : State := s.cabPortWrite a (fld d o 4)
  let s1 := ((w 0xD801 1 s |> w 0xD802 5) |> w 0xDA00 9) |> w 0xDA01 13
  s1.cabPortWrite 0xD800 (fld d 0 1 % 32 + if s1.cabFits (fld d 0 1 % 32) then 0x100 else 0)

/-- The rule images that keep to Table 14-9. -/
def State.setRules (d : List Byte) (s : State) : State :=
  ((List.range 64).foldl (fun s k =>
    let i := padTo 64 (slice d (64 * k) 64)
    if snImageOk k i then s.updRule k fun r => { r with next := some i } else s) s).updSn fun n => { n with defaults := false }

/-- LP_CFG of every present lane: from the settings with the test field zero, otherwise enable alone (R332). -/
def State.setLanes (s : State) : State :=
  let v (l : Nat) : Nat := match Tbl.find s.boot.settings 0x70 with | some d => fld d (4 * l) 4 &&& 0xFF0F | none => 1
  (List.range s.nLanes).foldl (fun s l => (s.setReg (.io 1) (lpBase l) (v l)).lanePower l) s

/-- Step 5 sets the hardware up from the settings. -/
def State.applySettings (s : State) : State :=
  let s1 := s.withSet 0x02 fun d => State.pairWrite 0xE002 (fld d 0 4)
  let s2 := s1.withSet 0x01 fun d => when (fld d 0 1 = 1) State.startPair
  let s3 := s2.withSet 0x10 fun d s => (List.range 8).foldl (fun s c => s.dcWrite c (fld d (4 * c) 4)) s
  let s4 := s3.withSet 0x11 State.setShares
  let s5 := s4.withSet 0x20 State.setCabinet
  let s6 := s5.withSet 0x30 State.setRules
  let s7 := s6.withSet 0x40 fun d => State.tmpWrite (fld d 0 4)
  let s8 := s7.withSet 0x50 fun d s => (s.aoWrite 0 0x3042 (fld d 0 1)).aoWrite 0 0x3043 (fld d 1 4)
  (s8.withSet 0x31 fun d s => s.updSn fun n => { n with killHold := clearBits n.killHold (fld d 0 1) }).setLanes

/-! ### Provisioning (R504) -/

/-- ext_hash after step 5: written once, from the first intact record. The CRC-32 covers magic and key (log entry 43,
DEDUCED). -/
def State.provisioned (s : State) : List Byte :=
  let b := s.flBytes 1 0x2200000 105
  if s.otp.extHash.isEmpty && fld b 0 4 = 0x56525050 && crc32 (b.take 101) = fld b 101 4 then
    Config.sha384 (slice b 4 97)
  else s.otp.extHash

/-! ### RESET_RELEASE and BOOT_STEP (R493 to R496) -/

/-- RESET_RELEASE: BOOT_SEL is sampled, and every domain whose rails are good leaves reset. -/
def execResetRelease (bootSel : Nat) (s : State) : Out :=
  State.plain (fun s =>
    if !s.boot.resetLow then s
    else (s.updBoot fun b => { b with resetLow := false, bootSel := bootSel }).leaveResets) s

/-- Whether the boot sequence goes on now. -/
def State.bootGoes (s : State) : Bool :=
  s.boot.step != 0 && !s.boot.resetLow && !(s.dom 1).reset_ && !s.sn.trip && s.boot.dev != 3

/-- Step 3: the flash is up and the boot records are read; a hold strap stops here, a reserved one with an event. -/
def State.bootFlash (s : State) : State :=
  let (r, sec, next) := s.scanRecs
  let s1 := s.updBoot fun b =>
    { b with opi := true, record := r, brSector := sec, brNext := next, step := if b.bootSel = 0 then 4 else 0 }
  if 2 ≤ s.boot.bootSel then s1.bootEvent else s1

/-- Step 4: a slot is chosen, verified and started; with none valid the ROM stays. -/
def State.bootSlot (s : State) : State :=
  match s.chooseSlot false with
  | (some (slot, img), s1) => (s1.startFw slot img).updBoot fun b => { b with dev := 1, step := 5 }
  | (none, s1) => s1.updBoot fun b => { b with step := 0 }

/-- Firmware sets PWR_AVS: the largest quadrant value of the characterisation data for trim C, its standard table for trim A
(R544, R554). -/
def State.setAvs (s : State) : State :=
  let v := if s.otp.trim = 0xC then ((List.range 4).map fun q => fld s.otp.charData (16 + 2 * q) 2).foldl max 0
    else 720 + Config.avsStandard s.otp.part % 81
  s.avsWrite v

/-- Step 5: the cold-start march with its repairs, the settings, the ledger (R505, R524, R526, R536, R544). -/
def State.bootSet (fails : List (Nat × Nat)) (s : State) : State :=
  let s1 := fails.foldl (fun s f => s.repair f.1 f.2) s
  let s2 := (s1.loadSettings.applySettings).setAvs.loadLedger
  (s2.updLed fun l => { l with snapAt := some (s.time + 600 * SEC) }).updBoot fun b => { b with step := 6 }

/-- One step of Table 15-2 completes. -/
def State.bootStep (fails : List (Nat × Nat)) (s : State) : State :=
  let k := s.boot.step
  if !s.bootGoes then s
  else if k = 1 then s.updBoot fun b => { b with step := 2 }
  else if k = 2 then (if s.sec.latch then s.tamperHold else s.updBoot fun b => { b with step := 3 })
  else if k = 3 then s.bootFlash
  else if k = 4 then s.bootSlot
  else if k = 5 then s.bootSet fails
  else s.deriveKek.fwUp.loadSys

/-- BOOT_STEP: step 5 may write ext_hash. `fails` are the units that the cold-start march found failed. -/
def execBootStep (fails : List (Nat × Nat)) (s : State) : Out :=
  let n := s.bootStep fails
  .next { n with time := s.time, pending := s.pending,
                 otp := { s.otp with extHash := if s.bootGoes && s.boot.step = 5 then s.provisioned else s.otp.extHash } }

/-- FW_ACTIVATE (R496, R508): firmware tries the other slot; the boot ROM boots the slot chosen under R498, unless its own
sequence is still under way or no slot is valid. -/
def execFwActivate (mb : Nat) (s : State) : Out :=
  State.plain (State.serveMb mb 0x61 1 0 2 [(0, 2)] okArgs noAbsent false fun a s =>
    if s.fwRuns then s.activate mb (fld a 0 2)
    else if s.boot.step != 0 then s.fin mb BUSY
    else
      match s.chooseSlot false with
      | (some (slot, img), s1) =>
        ((s1.fin mb ACCEPTED).startFw slot img).updBoot fun b => { b with dev := 1, step := 5 }
      | (none, s1) => s1.fin mb DENIED) s

/-! ### Restarts of the steward cluster (R383, R396, R498, R508, R510) -/

/-- CONFIRMATION_TIMEOUT (R498): the sentinel orders a revert at the end of the AO tick in which the timer expires: a
confirmation in that tick takes effect (R521). -/
def execConfirmationTimeout (s : State) : Out :=
  State.timed (if s.boot.trial then s.boot.confAt.map fun t => (t / 500 + 1) * 500 else none) State.revert s

/-- The new firmware loads each module anew when it supports its api_level, and takes up its settings. -/
def State.fwAgain (slot : Nat) (img : Image) (s : State) : State :=
  let s1 := (s.startFw slot img).updCl fun c => { c with restarting := false }
  (s.st.modules.foldl (fun s p => s.moveModule p.1 p.2.st (p.2.api ≤ img.api)) s1).loadSettings.fwUp

/-- The cluster starts again on a slot of an order, after a revert or the halt of its last core. -/
def State.restartOn (a b : Nat) (reverts : Bool) (s : State) : State :=
  let s0 := s.updCl fun c => { c with restarting := false }
  match s0.firstValid a b with
  | (none, s1) => s1.romOnly
  | (some (slot, img), s1) =>
    let s2 := s1.fwAgain slot img
    if reverts then s2.bootEvent.alert 8 else s2

/-- The commands in service when the last core has halted end with TIMEOUT. -/
def State.cutAll (s : State) : State :=
  ((List.range 16).filter fun m => (s.mb m).state == 2).foldl (fun s m => s.cutShort m) s

/-- STEWARD_CLUSTER_RESTART: an activation, a revert, or all cores halted. BOOT_SEL in hold leaves the ROM alone (R493). -/
def execStewardClusterRestart (s : State) : Out :=
  State.plain (fun s =>
    let halted := (List.range 4).all fun st => (s.core st).halted
    if !(s.st.restarting || (halted && (s.fwRuns || s.boot.dev == 1))) then s
    else
      let s0 := if s.st.restarting then s else s.cutAll
      if s.boot.bootSel != 0 then
        let s1 := (s0.updCl fun c => { c with restarting := false }).romOnly
        if 2 ≤ s.boot.bootSel then s1.bootEvent else s1
      else if s.boot.reverting then s0.restartOn s.boot.prevSlot (1 - s.boot.prevSlot) true
      else
        match (if s.st.restarting then s.boot.activating else none) with
        | some slot =>
          match s.slotImage slot with
          | some img => ((s0.fwAgain slot img).tot 11).alert 8
          | none => s0.restartOn (1 - slot) slot true
        | none =>
          let (a, b, s1) := s0.slotOrder true
          s1.restartOn a b s.boot.trial) s

end Sys2Proof.Machine
end

