-- ==== Sys2Proof/Machine/Sites.lean ====
section
/-! DEFINITION. SITE_MAP, SITE_REJOIN, SITE_RETIRE and OUTLET_CONFIG (R226 to R229, R242, R290 to R296, R321, R322, R411). -/

namespace Sys2Proof.Machine
open Sys2Proof

/-! ### The site setup image (R226, R227) -/

/-- A section: its first indirect address, lane mask, words, and whether its header keeps its reserved bits clear. -/
structure Sect where
  addr : Nat := 0
  mask : Nat := 0
  words : List Nat := []
  resOk : Bool := true
  deriving DecidableEq, Repr

/-- One section from the front of the body, with the rest; none when it runs outside the image. -/
def sectOf (bs : List Byte) : Option (Sect × List Byte) :=
  let n := fld bs 4 4
  if bs.length < 8 || n = 0 || 65536 < n || bs.length < 8 + 8 * cdiv n 2 then none
  else
    let h := fld bs 0 4
    some ({ addr := bits h 16 0, mask := bits h 31 24, words := nums bs 8 4 n, resOk := bits h 23 17 == 0 },
      bs.drop (8 + 8 * cdiv n 2))

/-- `n` sections from a body, counted from `i`: the first that runs outside, or all of them with what remains. -/
def sectsOf : Nat → Nat → List Byte → Except Nat (List Sect × List Byte)
  | 0, _, bs => .ok ([], bs)
  | n + 1, i, bs =>
    match sectOf bs with
    | none => .error i
    | some (x, r) =>
      match sectsOf n (i + 1) r with
      | .error e => .error e
      | .ok (l, q) => .ok (x :: l, q)

/-- The section applies to lane i of the site. -/
def Sect.on (x : Sect) (i : Nat) : Bool := x.mask == 0 || bit x.mask i

/-- The addresses that a section writes. -/
def Sect.addrs (x : Sect) : List Nat := (List.range x.words.length).map (x.addr + ·)

/-- The header's fields as a site binding. -/
def siteOfHead (h : List Byte) : Site :=
  { bound := true, first := fld h 7 1, lanes := fld h 8 1, wcode := bits (fld h 9 1) 1 0, cycU := fld h 0xA 2,
    lead := fld h 0xC 4, reflexFlag := bit (fld h 0x10 1) 0, umap := fld h 0x11 1, reflex := bit (fld h 0x10 1) 0,
    high := 2 ^ 48 - 1 }

/-- The header keeps Table 07-1 and R224. -/
def siteHeadOk (h : List Byte) : Bool :=
  let x := siteOfHead h
  let k := fld h 6 1
  fld h 0 4 == 0x4D544953 && fld h 4 2 == 1 && k < 128 && 1 ≤ x.lanes && x.lanes ≤ 8 && x.first / 8 == k / 8
    && (x.first + x.lanes - 1) / 8 == k / 8 && fld h 9 1 < 4 && fld h 0x10 1 < 2 && (x.umap < 16 || x.umap == 0xFF)
    && 1 ≤ fld h 0x12 2 && fld h 0x12 2 ≤ 4096 && allZero (slice h 0x1C 36) && 5 * 2 ^ x.wcode ≤ x.cycU

/-- λ keeps R225, its hold-capacity part on the lanes whose front-end has declared H. -/
def State.leadOk (s : State) (x : Site) : Bool :=
  let h : Bool := x.laneList.all fun l => match (s.lane l).feHold with
    | none => true
    | some n => x.lead * x.w ≤ n * 8 * x.cycU
  let p : Bool := !s.pair.en || 5000 + 2500 * s.epochUs ≤ x.lead
  64 ≤ x.lead && x.lead ≤ 64000 && h && p

/-- The limit of R447 on a site in pair mode: rt_max + E + 32 ns ≤ 2,047 × T_v on every lane. -/
def State.windowFits (s : State) (x : Site) (rt : Nat → Nat) : Bool :=
  !s.pair.en || x.laneList.all fun l => (rt l + s.epochUs * US + 32 * NS) * x.w ≤ 2047 * 16 * x.cycU

/-! ### The stored words (R230 to R235, Table 07-12 check 13) -/

/-- The pin code of a slot in a cycle of a template: none reserved, X at and above W, and in template 0 none that compares
or reads D or A (R231, R232). -/
def Lane.pinOk (l : Lane) (w t c s : Nat) : Bool :=
  let p := l.pin t c s
  p != 0xD && p != 0xE && (s < w || p == 0xF) && (t != 0 || [0, 1, 0xC, 0xF].contains p)

/-- A template's cycles, but for the rows' words that the image writes, which answer for themselves; and template 0's
length. -/
def Lane.tplOk (l : Lane) (w t : Nat) (wrote : Nat → Bool) : Bool :=
  (t != 0 || l.tplLen 0 == 1) && (List.range (l.tplLen t)).all fun c => (List.range 4).all fun k =>
    wrote (4 * (64 * t + c) + k) || (List.range 8).all fun j => l.pinOk w t c (8 * k + j)

/-- A descriptor keeps Tables 07-4 and 07-5, or is unused (R235). -/
def Lane.descOk (l : Lane) (d : Nat) : Bool :=
  let x := l.desc d
  let n := x.tpls.length
  let axis (q : Nat) : Bool := if x.down.getD q false then x.limit.getD q 0 ≤ x.start.getD q 0 else x.start.getD q 0 ≤ x.limit.getD q 0
  !x.used ||
    (x.tpls.all (fun t => t != 0 && (Tbl.find l.ind (0x10000 + t)).isSome)
      && (List.range 4).all (fun i => i < n || l.descByte d i == 0) && x.order ≤ 5 && x.mode ≤ 2
      && bits (l.descByte d 5) 7 5 == 0 && l.descByte d 0xB == 0 && l.descByte d 0xF == 0 && x.inc.all (· != 0)
      && l.descByte d 0x1B == 0 && l.descN d 0x1E 2 == 0 && axis 0 && axis 1 && axis 2
      && (if x.mode = 1 then
            n == 1 && x.stream < 64 && l.streamCount x.stream != 0 && l.streamBase x.stream % 64 == 0
          else x.stream == 0))

/-- The rule of the word at an indirect address, as the lane holds it (Table 07-2), beside the words that the image wrote. -/
def Lane.wordOk (l : Lane) (w a : Nat) (wrote : Nat → Bool) : Bool :=
  let v := l.word a
  if a < 0x10000 then
    let t := a / 256
    let c := a / 4 % 64
    l.tplLen t ≤ c || (List.range 8).all fun j => l.pinOk w t c (8 * (a % 4) + j)
  else if a < 0x10100 then v < 64 && l.tplOk w (a - 0x10000) wrote
  else if a < 0x13000 then l.descOk ((a - 0x11000) / 8)
  else if a < 0x14000 then v < 4096
  else if a < 0x15000 then true
  else if a < 0x15010 then
    if a % 4 = 1 then bits v 30 24 == 0 else if a % 4 = 2 then bits v 31 24 == 0 else true
  else if a = 0x15010 then bits v 5 0 ≤ 36 && bits v 7 6 == 0 && v < 512
  else if a ≤ 0x15012 then
    l.word 0x15012 < 65536 && popcount 48 (l.word 0x15011 + l.word 0x15012 * 2 ^ 32) ≤ 12
  else if a < 0x15040 then
    (List.range 4).all fun i => bits v (8 * i + 5) (8 * i) < 48 && bits v (8 * i + 7) (8 * i + 6) == 0
  else true

/-- A lane's tables after the sections that select it. -/
def Lane.setup (l : Lane) (i : Nat) (xs : List Sect) : Lane :=
  { l with ind := xs.foldl (fun t x =>
      if x.on i then (List.zip x.addrs x.words).foldl (fun t p => t.put p.1 p.2) t else t) l.ind }

/-- The address scramble table is a permutation of 0 to 4,095. -/
def Lane.permutes (l : Lane) : Bool :=
  let vs := (List.range 4096).map fun i => l.word (0x13000 + i)
  (List.range 4096).all fun v => vs.contains v

/-- The map that SITE_MAP writes for a lane's address scramble: its shift and the inverse table (R229 step 5). -/
def Lane.inverseMap (l : Lane) : Nat × Tbl Nat :=
  (bits (l.word 0x15010) 5 0, (List.range 4096).foldl (fun t i => t.put (l.word (0x13000 + i)) i) [])

/-- Two lanes hold alike the words of a span. -/
def alike (a b : Lane) (base n : Nat) : Bool := (List.range n).all fun i => a.word (base + i) == b.word (base + i)

/-- The part lacks the site or a lane that a header names (R3). -/
def State.siteAbsent (s : State) (h : List Byte) : Bool :=
  let k := fld h 6 1
  let f := fld h 7 1
  let miss (n : Nat) : Bool := s.nLanes ≤ n && n < 128
  miss k || (List.range (fld h 8 1)).any fun i => miss (f + i)

/-- A site belongs to a live job or is named by a queued one. -/
def State.siteClaimed (s : State) (k : Nat) : Bool := s.siteTaken k || s.cm.queue.any fun j => bit j.sites k

/-- The checks of Table 07-12 from 2 to 17: the status and section of the first that fails, or the lanes' new tables. -/
def State.siteCheck (s : State) (img : List Byte) : Except (Nat × Nat) (List Lane) :=
  let h := img.take 64
  let body := img.drop 64
  let k := fld h 6 1
  let x := siteOfHead h
  let none_ : Nat := 0xFFFF
  if s.siteAbsent h then .error (ABSENT, none_)
  else if k < 128 && s.siteClaimed k then .error (BUSY, none_)
  else if x.laneList.any (fun l => match s.siteOfLane l with | some q => (s.site q).quar | none => false) then
    .error (BUSY, none_)
  else if !siteHeadOk h || !s.leadOk x || !s.windowFits x s.rtMax || crc32 body != fld h 0x18 4 then .error (BAD_ARG, none_)
  else
    match sectsOf (fld h 0x12 2) 0 body with
    | .error i => .error (BAD_ARG, i)
    | .ok (xs, rest) =>
      if !rest.isEmpty then .error (BAD_ARG, none_)
      else
        let n := xs.length
        let first (bad : Sect → Bool) : Option Nat := (List.range n).find? fun i => bad (xs.getD i {})
        let ls := (List.range x.lanes).map fun i => (s.lane (x.first + i)).setup i xs
        let lane0 := ls.headD {}
        let wrote (i a : Nat) : Bool := xs.any fun q => q.on i && q.addr ≤ a && a < q.addr + q.words.length
        let wrong (q : Sect) : Bool := (List.range x.lanes).any fun i =>
          q.on i && (List.zip q.addrs q.words).any fun p =>
            (ls.getD i {}).word p.1 == p.2 && !(ls.getD i {}).wordOk x.w p.1 (wrote i)
        match first (fun q => 2 ^ x.lanes ≤ q.mask || !q.resOk), first (fun q => !q.addrs.all indListed), first wrong with
        | some i, _, _ => .error (BAD_ARG, i)
        | none, some i, _ => .error (BAD_ARG, i)
        | none, none, some i => .error (BAD_ARG, i)
        | none, none, none =>
          if (ls.drop 1).any (fun l => !alike l lane0 0x10000 256 || !alike l lane0 0x11000 0x2000) then .error (BAD_ARG, none_)
          else if x.umap != 0xFF && ls.any (fun l => !bit (l.word 0x15010) 8 || !l.permutes
              || !alike l lane0 0x13000 4096 || l.word 0x15010 != lane0.word 0x15010) then .error (BAD_ARG, none_)
          else if x.laneList.any (fun l => match s.siteOfLane l with | some q => q != k | none => false) then
            .error (BAD_ARG, none_)
          else if x.umap != 0xFF
              && (List.range 128).any (fun q => (s.site q).bound && (s.site q).umap == x.umap && s.siteTaken q)
              && Tbl.find s.maps x.umap != some lane0.inverseMap then .error (BUSY, none_)
          else .ok ls

/-- The steps of R229, with the SITE_SET and MARK of the new binding (R310, R311); the FLOODED mark, the per-pin counters and
the pass count are cleared (R277, R278). -/
def State.bindSite (k : Nat) (x : Site) (ls : List Lane) (s : State) : State :=
  let old := s.site k
  let s1 := if old.bound then (old.laneList.filter fun l => !x.laneList.contains l).foldl (fun s l => s.unbindLane k l) s else s
  let s2 := s1.updSite k fun y => { x with haltSeq := y.haltSeq, lastSlot := y.lastSlot }
  let one (s : State) (p : Nat × Lane) : State :=
    let s1 := (if (s.lane p.1).linked then s.queueCtrl p.1 0x10 0 (x.setBody k) else s).updLane p.1 fun y =>
      { y with ind := p.2.ind, mark := if y.state = 5 || y.state = 1 then some 0 else y.mark }
    (s1.updCu p.1 fun c => { c with frets := [], high := 2 ^ 48 - 1 }).pinClear p.1
  let s3 := (List.zip x.laneList ls).foldl one (s2.setFailDest k none)
  if x.umap = 0xFF then s3 else { s3 with maps := s3.maps.put x.umap (ls.headD {}).inverseMap }

/-- SITE_MAP_IMAGE (R228, R229). -/
def execSiteMapImage (mb : Nat) (s : State) : Out :=
  State.plain (State.serveMb mb 0x20 2 0 16 [(0, 1), (1, 1), (4, 4), (8, 8)] (fun a => fld a 1 1 < 2) noAbsent false fun a s =>
    let len := fld a 4 4
    let s := s.sourceRd (fld a 1 1) (fld a 8 8) len
    match s.image (fld a 1 1) (fld a 8 8) len with
    | .error c => s.finish mb c (leBytes 2 0xFFFF)
    | .ok img =>
      if len < 64 || len != 64 + fld img 0x14 4 then s.finish mb BAD_ARG (leBytes 2 0xFFFF)
      else
        match s.siteCheck img with
        | .error (c, i) => s.finish mb c (leBytes 2 i)
        | .ok ls => (s.bindSite (fld img 6 1) (siteOfHead img) ls).finish mb OK (leBytes 2 0xFFFF)) s

/-- SITE_MAP_COHORT (R242): one entry of the cohort store. -/
def execSiteMapCohort (mb : Nat) (s : State) : Out :=
  State.plain (State.serveMb mb 0x20 2 1 24 [(0, 1), (2, 2), (8, 16)] (fun a => fld a 2 2 < 1024)
    (fun a => fld a 8 16 / 2 ^ s.nLanes != 0) false fun a s =>
    let e := fld a 2 2
    let used (j : Job) : Bool := j.cohortFirst ≤ e && e < j.cohortFirst + j.cohortCount
    if s.cm.queue.any used || s.cm.jobs.any (fun p => used p.2) then s.fin mb BUSY
    else ({ s with cohorts := s.cohorts.put e (fld a 8 16) }).fin mb OK) s

/-! ### SITE_REJOIN and SITE_RETIRE (R321, R322, R414, R415) -/

/-- The part lacks a site. -/
def State.noSite (s : State) (a : List Byte) : Bool := s.nLanes ≤ fld a 0 1

/-- SITE_RETIRE takes effect. -/
def State.retireDo (mb k : Nat) (s : State) : State :=
  if (s.site k).bound then (s.retireSite k).fin mb OK else s.fin mb NOT_ACTIVE

/-- SITE_REJOIN takes effect, or answers as Table 09-13 says. -/
def State.rejoinDo (mb k restart : Nat) (s : State) : State :=
  let c := s.rejoinStatus k restart
  (if c = OK then (s.rejoinSite k restart).updSite k fun x => { x with rejoined := some (s.time, mb) } else s).fin mb c

/-- SITE_REJOIN: it lands at the site's arbiter; a replay acts at once. -/
def execSiteRejoin (mb : Nat) (s : State) : Out :=
  State.plain (State.serveMb mb 0x21 1 0 8 [(0, 1), (2, 6)] (fun a => fld a 0 1 < 128) s.noSite true fun a s =>
    if 16 ≤ mb then s.rejoinDo mb (fld a 0 1) (fld a 2 6)
    else s.land (.site (fld a 0 1)) 2 (.rejoin mb (fld a 2 6))) s

/-- SITE_RETIRE: the BMC's is of the safety class. -/
def execSiteRetire (mb : Nat) (s : State) : Out :=
  State.plain (State.serveMb mb 0x22 1 0 1 [(0, 1)] (fun a => fld a 0 1 < 128) s.noSite true fun a s =>
    if 16 ≤ mb then s.retireDo mb (fld a 0 1)
    else s.land (.site (fld a 0 1)) (if mb = 15 then 1 else 2) (.retire mb)) s

/-! ### OUTLET_CONFIG (R290, R292 to R296, R411) -/

/-- Form 0's arguments hold no reserved encoding. -/
def outArgsOk (a : List Byte) : Bool :=
  fld a 1 1 < 2 && fld a 2 1 < 2 && fld a 3 1 < 2 && 12 ≤ fld a 4 1 && fld a 4 1 ≤ 26 && fld a 8 8 % 64 == 0
    && (fld a 3 1 == 1 || fld a 8 8 < 2 ^ 38)

/-- OUTLET_CONFIG_OUTLET. -/
def execOutletConfigOutlet (mb : Nat) (s : State) : Out :=
  State.plain (State.serveMb mb 0x40 2 0 16 [(0, 1), (1, 1), (2, 1), (3, 1), (4, 1), (8, 8)] outArgsOk noAbsent false fun a s =>
    let o := fld a 1 1
    let x := s.outlet o
    let v := fld a 2 1 + fld a 3 1 * 2 + fld a 4 1 * 2 ^ 8
    let base := fld a 8 8
    let changes := s.outDest o != fld a 3 1 || s.outSize o != 2 ^ fld a 4 1 || s.outBase o != base
    if (s.outEn o && changes) || (s.outEn o && fld a 2 1 == 0 && !(x.open_.isEmpty && x.done.isEmpty)) then s.fin mb BUSY
    else
      (((s.setReg (.io 1) (outReg o 0) v).setReg (.io 1) (outReg o 1) (base % 2 ^ 32)).setReg (.io 1) (outReg o 2)
        (base / 2 ^ 32)).fin mb OK) s

/-- Form 1's arguments hold no reserved encoding (Tables 08-12, 08-13). -/
def cuWinOk (v : Nat) : Bool := 1 ≤ bits v 11 0 && bits v 11 0 ≤ 4000 && v < 2 ^ 13
def cuFloodOk (v : Nat) : Bool := 256 ≤ bits v 19 0 && bits v 22 20 ≤ 6 && !bit v 23 && v < 2 ^ 26
def cuSumOk (v : Nat) : Bool := 1 ≤ v && v ≤ 4000
def cuArgsOk (a : List Byte) : Bool :=
  1 ≤ fld a 2 1 && fld a 2 1 ≤ 8 && fld a 1 1 + fld a 2 1 ≤ 128 && cuWinOk (fld a 4 4) && cuFloodOk (fld a 8 4)
    && cuSumOk (fld a 12 4)

/-- OUTLET_CONFIG_COMPARE. -/
def execOutletConfigCompare (mb : Nat) (s : State) : Out :=
  State.plain (State.serveMb mb 0x40 2 1 16 [(0, 1), (1, 1), (2, 1), (4, 4), (8, 4), (12, 4)] cuArgsOk
    (fun a => s.nLanes < fld a 1 1 + fld a 2 1) false fun a s =>
    let ls := (List.range (fld a 2 1)).map (fld a 1 1 + ·)
    let sites := ls.filterMap s.siteOfLane
    let rt (l : Nat) : Nat := if ls.contains l then bits (fld a 4 4) 11 0 * 4 * NS else s.rtMax l
    if sites.any s.siteTaken then s.fin mb BUSY
    else if sites.any fun k => !s.windowFits (s.site k) rt then s.fin mb BAD_ARG
    else
      (ls.foldl (fun s l =>
        ((s.setReg (.io 1) (cuBase l) (fld a 4 4)).setReg (.io 1) (cuBase l + 1) (fld a 8 4)).setReg (.io 1) (cuBase l + 2)
          (fld a 12 4)) s).fin mb OK) s

end Sys2Proof.Machine
end

