-- ==== Sys2Proof/Machine/Pair.lean ====
section
/-! DEFINITION. Pair operation (chapter 13): formation, claims and seats, the Bridge, epochs and the journal, replay at the
standby, takeover, Bridge loss, planned swap, reseat, and the partner's pegs. -/

namespace Sys2Proof.Machine
open Sys2Proof

/-! ### Claims and seats (R433 to R437) -/

/-- The package is initial (R436): no resident block of a job, no bound site, no enabled outlet, no live or queued job. -/
def State.initial (s : State) : Bool :=
  s.cm.blocks.all (·.2.sys) && s.sites.all (fun p => !p.2.bound) && !s.outEn 0 && !s.outEn 1 && !s.anyJob

/-- PRIM_CLAIM_OUT (R435). -/
def State.primClaimOut (s : State) : Bool := s.pair.state == 1 && !s.pair.claimDown

/-- The term that a claim takes (R434): one more than the larger of its own and the partner's, within 32 bits. -/
def State.newTerm (s : State) : Option Nat :=
  let t := max s.pair.term s.pair.partnerTerm + 1
  if t < 2 ^ 32 then some t else none

/-- A role change that would need a larger term is refused, with an event record (R434). -/
def State.termRefused (s : State) : State := s.event cBr 0 0x80FF s.pair.term

/-- A CREDIT flit is due on every lane (R450). -/
def State.creditsDue (s : State) : State :=
  (List.range s.nLanes).foldl (fun s l => s.updLane l fun x => { x with creditDue := true }) s

/-- The package claims ACTIVE (R433, R434, R450): UNPROTECTED until a partner is STANDBY. A partner that has appeared while the
package was FORMING gets the seat message (R436). -/
def State.claim (s : State) : State :=
  match s.newTerm with
  | none => s.termRefused
  | some t =>
    ((s.updPair fun p => { p with state := 1, term := t, unprot := true, running := false, suspectAt := none,
                                  claimSeenAt := none, rxCur := [], rxBad := false, rxDigest := none, digest := 0,
                                  seatSent := if s.pair.state = 4 && p.partnerRole = 3 && s.initial then some t else none }
      ).creditsDue).alert 7

/-- The package becomes STANDBY at the active's term, to follow from epoch `e` on (R434, R436, R455, R457). -/
def State.seat (term e : Nat) (s : State) : State :=
  (s.updPair fun p =>
    { p with state := 2, term := max p.term term, unprot := false, running := false, seatDue := false, epoch := e,
             acked := none, journal := [], sent := [], digest := 0, rxCur := [], rxBad := false, rxDigest := none,
             suspectAt := none, seatSent := none, claimSeenAt := none, hbIn := some s.time }).alert 7

/-- A role change that the partner requests (R415, R416, R436): a package that is FORMING and initial takes the seat; one
that is not becomes DETACHED. -/
def State.takeSeat (term : Nat) (s : State) : State :=
  if s.pair.state != 4 then s else if s.initial then s.seat term 0 else s.detach 8

/-- SEAT_MESSAGE (R436): it lands at the Bridge block's arbiter with rank 3. -/
def execSeatMessage (term : Nat) (s : State) : Out :=
  State.plain (fun s => if s.pair.en then s.land .pairRole 3 (.partnerRole term) else s) s

/-- FORMATION_TIMEOUT (R436): 2 s after the cold start. -/
def execFormationTimeout (s : State) : Out :=
  State.timed (if s.pair.state = 4 && s.pair.prefHigh then some (s.pair.formAt + 2 * SEC) else none) State.claim s

/-- PRIM_CLAIM_IN_CHANGE (R430, R435): the level counts after two equal samples. -/
def execPrimClaimInChange (level : Bool) (s : State) : Out :=
  State.plain (fun s => if s.hasBridge then s.updPair fun p => { p with claimIn := level, claimAt := s.time } else s) s

/-- ⌈q·n/16⌉ of R449, n being the live lanes. -/
def State.quorum (s : State) : Nat := cdiv (bits s.brCfg 12 8 * s.liveLanes.length) 16

/-- DUAL_CLAIM_CHECK (R437): 10 µs after the partner's claim was seen, an active that is not followed on a quorum drops its
own. A FORMING package that no seat has reached by then has appeared too late (R436; log entry 44, DESIGN CHOICE). -/
def execDualClaimCheck (s : State) : Out :=
  State.timed (s.pair.claimSeenAt.map (· + 10 * US)) (fun s =>
    let s1 := s.updPair fun p => { p with claimSeenAt := none }
    if s.pair.state = 1 then
      (if (s.liveLanes.filter fun l => (s.lane l).following).length < s.quorum then s1.detach 7 else s1)
    else if s.pair.state = 4 then s1.detach 8
    else s1) s

/-! ### The Bridge (R438, R439) -/

/-- The parameters that this package sends as the Bridge trains. -/
def State.bridgeParams (s : State) : BridgeParams :=
  { serial := s.otp.serial, e := s.epochUs, size := s.popGiB, rate := s.popRate, base := s.jobBase, limit := s.jobLimit }

/-- Whether the partner's parameters match in E and in the DDR5's size, rate and bounds. -/
def State.sameParams (s : State) (x : BridgeParams) : Bool := { x with serial := s.otp.serial } == s.bridgeParams

/-- BRIDGE_TRAINED (R436, R438): a package with PAIR_PREF high claims; one that is not ACTIVE detaches on a mismatch. -/
def execBridgeTrained (params : BridgeParams) (s : State) : Out :=
  State.plain (fun s =>
    if !s.pair.en || !s.domOn 4 then s
    else
      let same := s.sameParams params
      let s1 := s.updPair fun p =>
        { p with trained := true, lanes := 0xFF, hbIn := some s.time, hbOut := s.time, partnerSame := same }
      if s.pair.state = 4 && s.pair.prefHigh then s1.claim
      else if !same && (s.pair.state = 2 || s.pair.state = 4) then s1.detach 8
      else s1) s

/-- BRIDGE_LANE_LOSS (R438). -/
def execBridgeLaneLoss (k : Nat) (s : State) : Out :=
  State.plain (State.loseBridgeLane k) s

/-- The heartbeat that the package sends (R439). -/
def State.heartbeat (s : State) : Heartbeat :=
  { role := s.role, term := s.pair.term, epoch := s.pair.epoch, acked := s.ackNum, live := s.liveLanes.length,
    echo := (s.liveLanes.filter fun l => bit (s.lane l).feRole (1 + (s.lane l).port)).length }

/-- HEARTBEAT_SEND (R439): every 250 ns; the period in which none arrived counts as a miss. -/
def execHeartbeatSend (s : State) : Out :=
  State.timed (if s.pair.en && s.bridgeUp then some (s.pair.hbOut + 250 * NS) else none) (fun s =>
    let miss : Bool := match s.pair.hbIn with | some t => decide (t + 250 * NS < s.time) | none => true
    s.updPair fun p => { p with hbOut := s.time, hbSent := some s.heartbeat, hbMiss := if miss then sat32 p.hbMiss 1 else p.hbMiss }) s

/-- The former active of a planned swap sees the new one's claim (R455 step 3): STANDBY at the new term, the command done,
nothing that it holds released. -/
def State.swapped (m : Nat) (hb : Heartbeat) (s : State) : State :=
  let s1 := (s.seat hb.term hb.epoch).updPair fun p => { p with swapMb := none, swapAt := none }
  s1.mbDone m OK (leBytes 4 hb.term)

/-- What a heartbeat means to the active: the partner's claim, its seat, its detach, and its first appearance while both are
initial, which the seat message answers (R436). -/
def State.hbActive (hb : Heartbeat) (old : Nat) (s : State) : State :=
  if hb.role = 1 then
    match s.pair.swapMb with
    | some m => if s.pair.swapAt.isSome && s.pair.term < hb.term then s.swapped m hb else s
    | none => s.updPair fun p => { p with claimSeenAt := some (p.claimSeenAt.getD s.time) }
  else if hb.role = 2 then
    if s.pair.unprot && !s.pair.running && !s.pair.reseat && old != 2 then
      (s.updPair fun p => { p with unprot := false, seatDue := true, lastB := s.time }).alert 7
    else s
  else if hb.role = 3 && s.pair.running && old = 2 then s.setUnprot
  else if hb.role = 3 && old = 0 && s.initial then s.updPair fun p => { p with seatSent := some p.term }
  else s

/-- HEARTBEAT_RECEIVED (R436, R437, R439, R448, R449, R455): it ends a suspicion. -/
def execHeartbeatReceived (hb : Heartbeat) (s : State) : Out :=
  State.plain (fun s =>
    if !s.pair.en then s
    else
      let old := s.pair.partnerRole
      let s1 := s.updPair fun p =>
        { p with hbIn := some s.time, partnerRole := hb.role, partnerTerm := max p.partnerTerm hb.term, suspectAt := none }
      if s.pair.state = 1 then s1.hbActive hb old
      else if s.pair.state = 4 && hb.role = 1 then
        (if s.initial then s1.updPair fun p => { p with claimSeenAt := some (p.claimSeenAt.getD s.time) } else s1.detach 8)
      else s1) s

/-! ### Epochs at the active (R440, R443, R455, R457) -/

/-- Epoch 0 begins after a seat. -/
def State.firstEpoch (s : State) : State :=
  s.updPair fun p => { p with running := true, seatDue := false, epoch := 0, acked := none, journal := [], sent := [],
                              digest := 0 }

/-- SEAM is sent (R457 step 4, R458) with the live jobs and the descriptors of the queued ones: the live jobs are unprotected,
and protection returns with the last of them. -/
def State.sendSeam (s : State) : State :=
  let live := s.cm.jobs.map (·.1)
  (s.firstEpoch.updPair fun p =>
    { p with journal := [{ ty := 0x0E, args := live, data := s.cm.queue.flatMap (·.desc) }], unprotJobs := live, seamPassed := true, reseat := false,
             copyDone := false, reseatPct := 100, reseatRes := OK, unprot := !live.isEmpty }).alert 7

/-- EPOCH_BOUNDARY (R440): the epoch mark is broadcast (Table 10-1). -/
def execEpochBoundary (s : State) : Out :=
  State.timed (if s.pair.state = 1 && (s.pair.running || s.pair.seatDue || (s.pair.reseat && s.pair.copyDone)) then
      some s.epochDue else none) (fun s =>
    let t :=
      if s.pair.running then (if s.pair.early then s else s.closeEpoch) else if s.pair.seatDue then s.firstEpoch else s.sendSeam
    (t.updPair fun p => { p with early := false, lastB := s.epochDue }).notice (.epoch t.pair.epoch)) s

/-- What is left of the records sent once epoch k is acknowledged. -/
def sentAfter (k : Nat) : List JRec → List JRec
  | [] => []
  | r :: rest =>
    let t := sentAfter k rest
    if rest.any (fun x => x.ty == 0x0F && x.args.headD 0 ≤ k) || (r.ty == 0x0F && r.args.headD 0 ≤ k) then t else r :: rest

/-- EPOCH_ACK (R443): the held items of epochs up to it are released. -/
def execEpochAck (epoch : Nat) (s : State) : Out :=
  State.plain (fun s =>
    if !s.journals then s
    else
      let k := match s.pair.acked with | some a => max a epoch | none => epoch
      (s.updPair fun p => { p with acked := some k, sent := sentAfter epoch p.sent }).releaseHeld (some k)) s

/-! ### Replay at the standby (R441, R442, R444, R448, R458) -/

/-- An argument of a record. -/
def jArg (r : JRec) (i : Nat) : Nat := r.args.getD i 0

/-- A register write or a peg operation that the active journalled, made here as the active's host made it (R463). -/
def State.replayWrite (master a v : Nat) (s : State) : State :=
  let act : State → State :=
    if master = 1 then
      (if 0x2000 ≤ a then State.masterRel 1 0 ((a - 0x2000) / 4) else State.masterAcq 1 0 ((a - 0x1000) / 4))
    else if a = 0x2000 then State.dbLoWrite v
    else if a = 0x2004 then State.doorbell v
    else if a = 0x201C then State.crHeadWrite v
    else if a < 0x4000 then State.floodClr ((a - 0x3020) / 4) v
    else if a < 0x5000 then State.masterAcq 0 0 ((a - 0x4000) / 4)
    else if a < 0x6000 then State.masterRel 0 0 ((a - 0x5000) / 4)
    else State.hostOutRd ((a - 0x100010) / 0x100) v
  (act (s.updPair fun p => { p with state := 0 })).updPair fun p => { p with state := s.pair.state }

/-- A mailbox command that the active accepted waits in the mailbox of its replay. -/
def State.replayCmd (m id tag len : Nat) (bs : List Byte) (s : State) : State :=
  s.updMb (16 + m) fun _ => { cmd := id + tag * 2 ^ 8 + len * 2 ^ 16, state := 1, data := padTo 224 bs, tag := tag, id := id }

/-- The commit of an unprotected job, which the standby does not run: only its outlet's numbering follows. -/
def State.foreignCommit (s : State) (ctx : Nat) : Bool :=
  !s.pair.unprotJobs.isEmpty && !s.ctxLive ctx && !s.pair.grants.any (·.2.1 == ctx)

/-- A STAGE record: 0 the device stage, 1 a capacity abort, 2 a run-time expiry, 3 a set retirement. -/
def State.replayStage (r : JRec) (s : State) : State :=
  let c := jArg r 0
  if c = 0 then
    let d := jArg r 3
    let s1 := s.updCab fun c => { c with devStage := d }
    let s2 := if s.cab.devStage < 2 && 2 ≤ d then s1.enterRed (jArg r 2) else s1
    if s.cab.devStage < 3 && d = 3 then s2.alert 15 else s2
  else if c = 1 then s.askKill { job := jArg r 1, end_ := 3, cause := 0x40 }
  else if c = 2 then s.askKill { job := jArg r 1, end_ := 2 }
  else s.retireSet (jArg r 2) (jArg r 3)

/-- One record of a complete journal, in its place. -/
def State.replayRec (s : State) (r : JRec) : State :=
  match r.ty with
  | 0x01 =>
    let s1 := if jArg r 2 = 0 && jArg r 3 = 0 && s.pair.unprotJobs.contains (jArg r 0) then s.endJob (jArg r 0) else s
    s1.updPair fun p => { p with grants := p.grants ++ [(jArg r 0, jArg r 1, jArg r 2, jArg r 3)] }
  | 0x02 => s.updPair fun p => { p with values := p.values ++ [(jArg r 0, jArg r 1, jArg r 2, jArg r 3 != 0)] }
  | 0x03 =>
    s.sendTok 1000 (.lg (bits (jArg r 1) 27 24)) (Tok.ofParts (jArg r 0) (jArg r 1) (jArg r 2)).sealed
  | 0x04 =>
    if jArg r 2 != 0 && (s.site (jArg r 0)).halted then s
    else s.updPair fun p => { p with branchPts := p.branchPts ++ [(jArg r 0, jArg r 1, jArg r 2)] }
  | 0x06 =>
    if r.args.length = 5 then s.replayCmd (jArg r 1) (jArg r 2) (jArg r 3) (jArg r 4) r.data
    else s.replayWrite (jArg r 0) (jArg r 1) (jArg r 2)
  | 0x07 =>
    if s.foreignCommit (jArg r 2) then
      (s.updOutlet (jArg r 0) fun x => { x with seq := (jArg r 1 + 1) % 2 ^ 32 }).updPair fun p =>
        { p with digest := p.digest ^^^ jArg r 4 }
    else s.updPair fun p => { p with seqs := p.seqs ++ [(jArg r 0, jArg r 1, jArg r 2, jArg r 3)] }
  | 0x08 => s.replayStage r
  | 0x09 =>
    if jArg r 0 = 0 then s.followRemap (jArg r 1) else s.quarantine (jArg r 1) 128 (some (jArg r 4, jArg r 5))
  | 0x0A =>
    if 16 ≤ jArg r 3 then s.updPair fun p => { p with ctls := p.ctls ++ [(jArg r 0, jArg r 2, jArg r 3 - 16)] }
    else if 4 ≤ jArg r 3 then s
    else s.updPair fun p => { p with modes := p.modes ++ [(jArg r 0, jArg r 1, jArg r 2, jArg r 3)] }
  | _ => s

/-- The standby has finished replaying: no decision is left to follow and no replayed command but `but` is in service. -/
def State.replayed (s : State) (but : Nat) : Bool :=
  let p := s.pair
  p.grants.isEmpty && p.values.isEmpty && p.seqs.isEmpty && p.branchPts.isEmpty && p.modes.isEmpty && p.ctls.isEmpty
    && (List.range 16).all fun m => 16 + m == but || (s.mb (16 + m)).state == 0

/-- The digest of the last epoch that was replayed is the active's (R442). -/
def State.digestOk (s : State) : Bool := match s.pair.rxDigest with | some d => d == s.pair.digest | none => true

/-- END arrives: the epoch before must have been replayed, with the same digest; then the whole journal is held, and is
acknowledged and followed. A journal that is not held whole is neither (R443), and the next END finds it not replayed
(R444). -/
def State.endEpoch (r : JRec) (s : State) : State :=
  if !s.replayed 0 || s.pair.rxBad then s.detach 3
  else if !s.digestOk then s.detach 2
  else if jArg r 0 != s.pair.epoch || jArg r 1 != s.pair.rxCur.length then s.updPair fun p => { p with rxBad := true }
  else
    s.pair.rxCur.foldl State.replayRec (s.updPair fun p =>
      { p with acked := some (jArg r 0), epoch := jArg r 0 + 1, digest := 0, rxDigest := some (jArg r 2), rxCur := [] })

/-- JOURNAL_RECORD_RECEIVED (R440, R441, R443, R444, R448). -/
def execJournalRecordReceived (rec : JRec) (s : State) : Out :=
  State.plain (fun s =>
    let t := rec.ty
    if !s.standby then s
    else if t = 0 || (0x0B ≤ t && t ≤ 0x0D) || 0x10 ≤ t then s.detach 2
    else if t = 0x0F then s.endEpoch rec
    else s.updPair fun p => { p with rxCur := p.rxCur ++ [rec] }) s

/-- STANDBY_FIRMWARE_RUNNING (R511): what the active held for the standby's restart goes on. -/
def execStandbyFirmwareRunning (s : State) : Out :=
  State.plain (fun s => s.updPair fun p => { p with fwWait := false }) s

/-! ### Takeover and Bridge loss (R449, R450, R454, R458) -/

/-- SUSPICION (R449): 1 µs without a heartbeat. -/
def execSuspicion (s : State) : Out :=
  State.timed (if s.standby && s.pair.suspectAt.isNone then s.pair.hbIn.map (· + US) else none) (fun s =>
    s.updPair fun p => { p with suspectAt := some s.time }) s

/-- Live lanes whose front-end shows the active's port stream absent. -/
def State.absentLanes (s : State) : Nat :=
  (s.liveLanes.filter fun l => !bit (s.lane l).feRole (1 + (1 - (s.lane l).port))).length

/-- A suspicion is confirmed. -/
def State.confirmed (s : State) : Bool :=
  s.standby && (match s.pair.suspectAt with | some t => s.time ≤ t + 2 * US | none => false)
    && (!s.pair.claimIn || s.quorum ≤ s.absentLanes)

/-- The takeover (R450): the claim, with both terms in its event record, beyond whose 64 bits the epoch falls (R532), its
event record, and the end of the jobs that no journal covers (R458). -/
def State.takeOver (s : State) : State :=
  match s.newTerm with
  | none => s.termRefused
  | some t =>
    let s1 := s.claim.event cBr 0 0x80FF (s.pair.term % 2 ^ 32 + t * 2 ^ 32 + s.pair.epoch * 2 ^ 64)
    let s2 := (s1.updPair fun p => { p with takeovers := sat32 p.takeovers 1 }).tot 1
    s.pair.unprotJobs.foldl (fun s j => s.askKill { job := j, end_ := 3, cause := 0x42 }) s2

/-- When a suspicion is settled: with PRIM_CLAIM_IN low in the fc after both hold, so that a heartbeat of that fc comes first
(R464; log entry 124, DEDUCED). -/
def State.confirmAt (s : State) : Nat :=
  if s.pair.claimIn then s.time else max (s.pair.suspectAt.getD 0) s.pair.claimAt + 1

/-- TAKEOVER (R450). -/
def execTakeover (s : State) : Out := State.timed (if s.confirmed then some s.confirmAt else none) State.takeOver s

/-- CONFIRMATION_EXPIRY (R454): the standby detaches. -/
def execConfirmationExpiry (s : State) : Out :=
  State.timed (if s.standby then s.pair.suspectAt.map (· + 2 * US) else none) (State.detach 1) s

/-- BRIDGE_LOSS_AT_ACTIVE (R454): 3 µs after the last heartbeat. -/
def execBridgeLossAtActive (s : State) : Out :=
  State.timed (if s.pair.state = 1 && (s.pair.running || s.pair.seatDue) then s.pair.hbIn.map (· + 3 * US) else none)
    (fun s => ((s.updPair fun p => { p with seatDue := false }).setUnprot).pegForce fun p => p.owner == 7) s

/-! ### PAIR_STATUS, PAIR_SWAP (R430, R431, R436, R455, Table 12-7) -/

/-- PAIR_STATUS's response. -/
def State.pairStatus (s : State) : List Byte :=
  let p := s.pair
  leBytes 1 s.role ++ leBytes 1 p.partnerRole ++ leBytes 2 (b2n p.unprot + b2n (p.state == 3) * 2 + b2n p.reseat * 4)
    ++ leBytes 4 p.term ++ leBytes 2 s.epochUs ++ leBytes 1 p.reseatPct ++ zeros 5 ++ leBytes 8 s.ackNum

/-- PAIR_STATUS. -/
def execPairStatus (mb : Nat) (s : State) : Out :=
  State.plain (fun s => State.serveMb mb 0x50 1 0 0 [] okArgs (fun _ => !s.hasBridge) false
    (fun _ s => s.finish mb OK s.pairStatus) s) s

/-- PAIR_SWAP takes effect once its window has closed. -/
def State.swapDo (mb : Nat) (s : State) : State :=
  if s.pair.state = 4 then
    match s.newTerm with
    | none => s.termRefused.fin mb DENIED
    | some t => if s.pair.partnerRole = 1 then s.fin mb DENIED else s.claim.finish mb OK (leBytes 4 t)
  else if s.pair.state = 1 then
    if s.newTerm.isNone then s.termRefused.fin mb DENIED
    else if s.pair.unprot || s.pair.reseat || !s.pair.running || s.pair.swapMb.isSome then s.fin mb DENIED
    else (s.hostCmd mb).updPair fun p => { p with swapMb := some mb }
  else s.fin mb NOT_ACTIVE

/-- The standby's part of a swap (R455 steps 2 and 3): it claims once it has replayed everything. -/
def State.swapReplay (m : Nat) (s : State) : State :=
  let x := s.mb m
  if x.state != 1 || x.cmdId != 0x51 || !s.standby || !s.replayed m then s
  else if !s.digestOk then s.detach 2
  else
    match s.newTerm with
    | none => s.termRefused
    | some t =>
      (s.claim.updPair fun p =>
        { p with unprot := false, running := true, acked := none, journal := [], sent := [], lastB := s.time }).finish m OK
        (leBytes 4 t)

/-- PAIR_SWAP: it lands at the Bridge block's arbiter. -/
def execPairSwap (mb : Nat) (s : State) : Out :=
  State.plain (fun s =>
    if 16 ≤ mb then s.swapReplay mb
    else State.serveMb mb 0x51 1 0 0 [] okArgs (fun _ => !s.hasBridge) true
      (fun _ s => if s.pair.en then s.land .pairRole 2 (.swap mb) else s.fin mb NOT_ACTIVE) s) s

/-! ### Reseat (R456 to R459) -/

/-- PAIR_RESEAT (R456). -/
def execPairReseat (mb : Nat) (s : State) : Out :=
  State.plain (fun s => State.serveMb mb 0x52 1 0 0 [] okArgs (fun _ => !s.hasBridge) false (fun _ s =>
    let p := s.pair
    if !p.en || p.state != 1 then s.fin mb NOT_ACTIVE
    else if p.partnerRole != 3 || !s.bridgeUp || p.reseat || !p.partnerSame || p.running then s.fin mb DENIED
    else
      (s.updPair fun p => { p with reseat := true, reseatPct := 0, copyDone := false, seamPassed := false, unprotJobs := [],
                                   reseatRes := 0 }).fin mb ACCEPTED) s) s

/-- RESEAT_COPY_DONE (R457). -/
def execReseatCopyDone (s : State) : Out :=
  State.plain (fun s =>
    if s.pair.reseat then s.updPair fun p => { p with copyDone := true, reseatPct := 100, lastB := s.time } else s) s

/-- MIRROR_WRITE (R457, R462). -/
def execMirrorWrite (addr : Nat) (data : List Byte) (s : State) : Out :=
  State.plain (fun s => if s.pair.state = 2 || s.pair.state = 3 then s.ddrWr 6 addr data else s) s

/-- A live job of the active that the standby does not run holds its number; its cookie is an open value. -/
def State.placeJob (s : State) (j : Nat) : State :=
  let (v, s1) := s.fresh
  s1.updCm fun c => { c with jobs := c.jobs.put j { cookie := v % 2 ^ 32 } }

/-- The package holds no block of a job, no bound site, no cohort and no enabled outlet (R457 step 1). -/
def State.clearConfig (s : State) : State :=
  let s1 := (List.range 128).foldl (fun (s : State) k =>
    if (s.site k).bound then
      ((s.site k).laneList.foldl (fun s l => s.unbindLane k l) s).updSite k fun y => { haltSeq := y.haltSeq, lastSlot := y.lastSlot }
    else s) s
  (([0, 1] : List Nat).foldl (fun (s : State) o => s.setReg (.io 1) (outReg o 0) 0) { s1 with cohorts := [] }).updCm fun c =>
    { c with blocks := c.blocks.filter (·.2.sys) }

/-- A copied block image becomes resident: an encrypted one needs its key, which is not copied. -/
def State.copyBlock (s : State) (x : Nat × List Byte) : State :=
  match s.plainBody x.2 with
  | .error _ => s
  | .ok body => s.updCm fun c => { c with blocks := c.blocks.put x.1 (blockOf (x.2.take 64) body) }

/-- A copied site is bound with its setup image. -/
def State.copySite (s : State) (img : List Byte) : State :=
  match s.siteCheck img with
  | .error _ => s
  | .ok ls => s.bindSite (fld img 6 1) (siteOfHead img) ls

/-- The active's configuration and its queued jobs (R457 steps 3 and 4). -/
def State.copyConfig (x : SeamCfg) (s : State) : State :=
  let s1 := x.blocks.foldl State.copyBlock s.clearConfig
  let put (s : State) (p : Nat × Nat) : State := s.setReg (.io 1) p.1 (p.2 % 2 ^ 32)
  let s2 := x.ports.foldl put { s1 with cohorts := x.cohorts }
  x.queued.foldl (fun s d => s.queueJob d none) (x.sites.foldl State.copySite s2)

/-- SEAM (R457 step 5, R458): the DETACHED partner, cleared and given the active's configuration, becomes STANDBY at the
active's term (log entry 69, DESIGN CHOICE). -/
def execSeam (term : Nat) (liveJobs : List Nat) (cfg : SeamCfg) (s : State) : Out :=
  State.plain (fun s =>
    if s.pair.state != 3 || !s.bridgeUp then s
    else (liveJobs.foldl State.placeJob ((s.copyConfig cfg).seat term 0)).updPair fun p => { p with unprotJobs := liveJobs }) s

/-- RESEAT_FAILURE (R459): at the active the reseat ends, at the partner the cause is noted. -/
def execReseatFailure (s : State) : Out :=
  State.plain (fun s =>
    if s.pair.state = 1 && s.pair.reseat then
      (s.updPair fun p => { p with reseat := false, copyDone := false,
                                   reseatRes := if s.bridgeUp then TIMEOUT else NOT_ACTIVE }).alert 7
    else if s.pair.state = 3 then (s.updPair fun p => { p with detach := 9 }).alert 7
    else s) s

/-- UNPROTECTED_JOB_END (R458): the active is protected again; the standby drops the numbers that it kept. -/
def execUnprotectedJobEnd (s : State) : Out :=
  State.plain (fun s =>
    if s.standby then s.pair.unprotJobs.foldl (fun s j => s.endJob j) s
    else if s.journals && s.pair.unprot && s.pair.unprotJobs.isEmpty then
      (s.updPair fun p => { p with unprot := false }).alert 7
    else s) s

/-! ### The partner's pegs (R465) -/

/-- PARTNER_PEG_ACQUIRE, PARTNER_PEG_READ and PARTNER_PEG_RELEASE: writes of BR_PEG_OP. -/
def execPartnerPegAcquire (n : Nat) (s : State) : Out := State.plain (State.regDom 4 (.partnerPegAcquire n) (State.brPegOp 1 n)) s
def execPartnerPegRead (n : Nat) (s : State) : Out := State.plain (State.regDom 4 (.partnerPegRead n) (State.brPegOp 2 n)) s
def execPartnerPegRelease (n : Nat) (s : State) : Out := State.plain (State.regDom 4 (.partnerPegRelease n) (State.brPegOp 3 n)) s

/-- PARTNER_PEG_RESULT: the partner's peg word returns to BR_PEG_RES. -/
def execPartnerPegResult (pegWord : Word) (s : State) : Out :=
  State.plain (fun s =>
    if s.pair.pegReq.isSome then s.updPair fun p => { p with pegRes := pegWord.toNat, pegReq := none } else s) s

end Sys2Proof.Machine
end

