-- ==== Sys2Proof/Machine/Arbiter.lean ====
section
/-! DEFINITION. The close of an arbitration window (R414 to R418, R323, R491). -/

namespace Sys2Proof.Machine
open Sys2Proof

/-! ### Contradictions (R416, Table 12-11) -/

/-- Two commands for one object contradict each other; a retire and a rejoin are settled apart (R323). -/
def contra (a b : Arb) : Bool :=
  match a, b with
  | .retire _, .sitectl _ _ => true
  | .retire _, .branch _ _ _ => true
  | .sitectl _ _, .retire _ => true
  | .branch _ _ _, .retire _ => true
  | .rejoin _ _, .sitectl _ c => c == 6
  | .sitectl _ c, .rejoin _ _ => c == 6
  | .setDomain _ x, .setDomain _ y => x != y
  | .setDomain _ _, .down _ => true
  | .setDomain _ _, .wake _ => true
  | .down _, .setDomain _ _ => true
  | .wake _, .setDomain _ _ => true
  | .throttle _ x, .throttle _ y => x != y
  | .throttle _ x, .snThrottle y => x != y
  | .snThrottle x, .throttle _ y => x != y
  | .snThrottle x, .snThrottle y => x != y
  | .ruleWrite _ x, .ruleWrite _ y => x != y
  | .ruleWrite _ _, .ruleDisable _ => true
  | .ruleDisable _, .ruleWrite _ _ => true
  | .swap _, .partnerRole _ => true
  | .partnerRole _, .swap _ => true
  | _, _ => false

/-- The command of higher rank that supersedes a command of its window, if any (R417). -/
def Window.over (w : Window) (c : ArbCmd) : Option ArbCmd := w.cmds.find? fun d => d.rank < c.rank && contra c.what d.what

/-- The mailbox that a held command came from. -/
def Arb.mailbox : Arb → Option Nat
  | .retire m => some m
  | .rejoin m _ => some m
  | .setDomain (.mb m) _ => some m
  | .throttle m _ => some m
  | .ruleWrite (.mb m) _ => some m
  | .ruleDisable (.mb m) => some m
  | .swap m => some m
  | _ => none

/-- Master codes as Table 10-10 gives them, the sentinel after them. -/
def mbMaster (m : Nat) : Nat := if m = 15 then 1 else 0
def srcMaster : CmdSrc → Nat
  | .mb m => mbMaster m
  | .port st _ => 2 + st

/-- The master of a held command. -/
def Arb.master : Arb → Nat
  | .retire m => mbMaster m
  | .rejoin m _ => mbMaster m
  | .sitectl _ _ => 6
  | .branch _ _ _ => 6
  | .setDomain s _ => srcMaster s
  | .down _ => 8
  | .wake _ => 8
  | .throttle m _ => mbMaster m
  | .snThrottle _ => 8
  | .ruleWrite s _ => srcMaster s
  | .ruleDisable s => srcMaster s
  | .swap m => mbMaster m
  | .partnerRole _ => 7

/-- Its command id: Table 12-7's for a mailbox command, zero for another. -/
def Arb.cmdId : Arb → Nat
  | .retire _ => 0x22
  | .rejoin _ _ => 0x21
  | .setDomain _ _ => 0x90
  | .throttle _ _ => 0x90
  | .ruleWrite _ _ => 0x91
  | .ruleDisable _ => 0x91
  | .swap _ => 0x51
  | _ => 0

/-- An object's code in an ARBIT record (log entry 45, DESIGN CHOICE). -/
def ArbObj.code : ArbObj → Nat
  | .site k => k
  | .domain d => 0x100 + d
  | .throttle => 0x200
  | .rule k => 0x300 + k
  | .pairRole => 0x400

/-- The site of an object. -/
def ArbObj.siteNo : ArbObj → Nat
  | .site k => k
  | _ => 0

/-! ### Outcomes (R417) -/

/-- A command is superseded: its answer, the count, and the journal's ARBIT record. -/
def State.supersede (obj : ArbObj) (c win : ArbCmd) (s : State) : State :=
  let s1 := (s.updHost fun h => { h with superseded := sat32 h.superseded 1 }).jrnl 0x05
    [ArbObj.code obj, win.what.master, c.what.master, win.what.cmdId, c.what.cmdId] []
  match c.what, obj with
  | .sitectl op _, o => s1.opSuper (ArbObj.siteNo o) op
  | .branch op _ _, o => s1.opSuper (ArbObj.siteNo o) op
  | .setDomain src _, .domain d => s1.domReply src SUPERSEDED (s1.dom d).set_
  | .ruleWrite src _, _ => s1.snReply src SUPERSEDED
  | .ruleDisable src, _ => s1.snReply src SUPERSEDED
  | x, _ => match x.mailbox with | some m => s1.fin m SUPERSEDED | none => s1

/-- A DOWN action (Table 14-10): the sites in the domain are halted and it goes to RETENTION while the rule holds. -/
def State.downDo (k d : Nat) (s : State) : State :=
  if !s.ruleDowns k d then s
  else
    let s1 := (s.domSites d).foldl (fun s i => if s.siteUp i then s.haltSite i hcSentinel 0 0 true else s) s
    (s1.updDom d fun x => { x with down := x.down ||| 2 ^ k }).domSeek d

/-- A held BRANCH or SITECTL reaches its vector engine as its window closes (R417). -/
def State.opArrives (k op : Nat) (s : State) : State := s.updOp (k / 8) op fun o => { o with at_ := s.time }

/-- A command that is not superseded takes effect. -/
def State.settle (obj : ArbObj) (c : ArbCmd) (s : State) : State :=
  match c.what, obj with
  | .retire m, .site k => (s.hostCmd m).retireDo m k
  | .rejoin m r, .site k => (s.hostCmd m).rejoinDo m k r
  | .sitectl op cmd, .site k => (s.opArrives k op).updSite k fun x => { x with ctl := x.ctl ++ [(op, cmd)] }
  | .branch op pe w, .site k =>
    (s.opArrives k op).updSite k fun x =>
      { x with brq := x.brq ++ [{ op := op, pe := pe, at_ := s.time, land := c.at_, word := w }] }
  | .setDomain (.mb m) st, .domain d => (s.hostCmd m).setDomain (.mb m) d st
  | .setDomain src st, .domain d => s.setDomain src d st
  | .down k, .domain d => s.downDo k d
  | .wake _, .domain d => s.wakeDom d
  | .throttle m k, _ => (s.hostCmd m).hostThrottle m k
  | .snThrottle k, _ => s.updPwr fun p => { p with snThr := k }
  | .ruleWrite src i, .rule k => s.snPut src k i
  | .ruleDisable src, .rule k => s.snPut src k (snDisabled (s.rule k).img)
  | .swap m, _ => s.swapDo m
  | .partnerRole t, _ => s.takeSeat t
  | _, _ => s

/-- A retire or a rejoin. -/
def Arb.isRetire : Arb → Bool
  | .retire _ => true
  | _ => false
def Arb.isRejoin : Arb → Bool
  | .rejoin _ _ => true
  | _ => false

/-- Of a retire and a rejoin in one window the first received is carried out; the other is not (Table 09-14). -/
def Window.tooLate (w : Window) (c : ArbCmd) : Bool :=
  match w.cmds.find? fun d => d.what.isRetire || d.what.isRejoin with
  | none => false
  | some d => (d.what.isRetire && c.what.isRejoin) || (d.what.isRejoin && c.what.isRetire)

/-- One command of a closed window. -/
def State.closeOne (w : Window) (s : State) (c : ArbCmd) : State :=
  match w.over c with
  | some win => s.supersede w.obj c win
  | none =>
    if w.tooLate c then (match c.what.mailbox with | some m => s.fin m NOT_ACTIVE | none => s)
    else s.settle w.obj c

/-- The commands in rank order, and within a rank in order of landing. -/
def Window.order (w : Window) : List ArbCmd := (List.range 5).flatMap fun r => w.cmds.filter fun c => c.rank == r

/-- ARBITER_WINDOW_CLOSE (R414, R417): 64 ns after the window opened; without journal credit it waits (R445). -/
def execArbiterWindowClose (obj : ArbObj) (s : State) : Out :=
  State.timed ((s.arb.find? fun w => w.obj == obj).map fun w => w.opened + 64 * NS) (fun s =>
    match s.arb.find? fun w => w.obj == obj with
    | none => s
    | some w =>
      if !s.jrnlRoom then s
      else w.order.foldl (State.closeOne w) { s with arb := s.arb.filter fun v => v.obj != obj }) s

end Sys2Proof.Machine
end

