-- ==== Sys2Proof/Machine/Wake.lean ====
section
/-! DEFINITION. Accesses that waited (R202, R343, R345): the register commands held for a sleeping domain, and the posted writes
behind a held doorbell, take their effect; the wakes that let them go. -/

namespace Sys2Proof.Machine
open Sys2Proof

/-- The state that an answer gives. -/
def nextOf (o : Out) (s : State) : State := match o with | .next t => t | _ => s

/-- The effect of a command that was held: one that asks for its domain's clocks, or a posted write of PF0. -/
def State.accDo (c : Instr) (s : State) : State :=
  match c with
  | .cuCntClr l v => nextOf (execCuCntClr l v s) s
  | .cuFloodClr l => nextOf (execCuFloodClr l s) s
  | .floodClr i v => nextOf (execFloodClr i v s) s
  | .pegAcquire m o n => nextOf (execPegAcquire m o n s) s
  | .pegRelease m o n => nextOf (execPegRelease m o n s) s
  | .outRdWrite o v => nextOf (execOutRdWrite o v s) s
  | .registerWrite sp a v => nextOf (execRegisterWrite sp a v s) s
  | .latchingRead sp a => nextOf (execLatchingRead sp a s) s
  | .bar2Write o d => nextOf (execBar2Write o d s) s
  | .i3cPrivateRead n => nextOf (execI3cPrivateRead n s) s
  | .doorbellSubmit v => nextOf (execDoorbellSubmit v s) s
  | .jqCrHeadWrite v => nextOf (execJqCrHeadWrite v s) s
  | .completionRingEnable v => nextOf (execCompletionRingEnable v s) s
  | .laneRetrain l => nextOf (execLaneRetrain l s) s
  | .laneForceDown l => nextOf (execLaneForceDown l s) s
  | .ctlMessageQueue g => nextOf (execCtlMessageQueue g s) s
  | .ctlFifoPopRead g m => nextOf (execCtlFifoPopRead g m s) s
  | .lpCntClr l => nextOf (execLpCntClr l s) s
  | .msCntClr p => nextOf (execMsCntClr p s) s
  | .schedCntClr p => nextOf (execSchedCntClr p s) s
  | .dcCfgEnable c v => nextOf (execDcCfgEnable c v s) s
  | .partnerPegAcquire n => nextOf (execPartnerPegAcquire n s) s
  | .partnerPegRead n => nextOf (execPartnerPegRead n s) s
  | .partnerPegRelease n => nextOf (execPartnerPegRelease n s) s
  | .cabCfgWrite v => nextOf (execCabCfgWrite v s) s
  | .veCntClr l => nextOf (execVeCntClr l s) s
  | .veIndAccess l w => nextOf (execVeIndAccess l w s) s
  | _ => s

/-- The accesses held for domains that are up are delivered in their order of arrival (R343). -/
def State.accRelease (s : State) : State :=
  let up (x : Nat × Instr) : Bool := s.domOn x.1
  (s.net.regHold.filter up).foldl (fun s x => s.accDo x.2)
    (s.updNet fun n => { n with regHold := n.regHold.filter fun x => !up x })

/-- DOMAIN_TRANSITION_DONE (R343, R345, R470): the entry or the wake that is in progress, and the accesses held for it. -/
def execDomainTransitionDone (d : Nat) (s : State) : Out := State.plain (fun s => (s.transition d).accRelease) s

/-- FABRIC_WAKE (R475, R477): the clock moves to the next AO tick when the fabric slept. -/
def execFabricWake (input : Nat) (s : State) : Out :=
  if s.pwr.asleep then
    if s.pwr.fref then State.plain (fun s => (s.fabricUp input).accRelease) { s with time := s.time + 500 }
    else State.plain (State.updPwr fun p => { p with waking := some input }) s
  else State.plain (fun s => if s.pwr.step = 0 then s else s.sleepAbandon) s

/-- AO_TICK (R477, R478): 500 are added to TIME while the fabric clock does not run, and a wake that was asked for while the
fabric slept begins with the tick; ticks without FREF are counted. -/
def execAoTick (s : State) : Out :=
  let s1 := if s.pwr.fref then s else s.updPwr fun p => { p with undisc := sat32 p.undisc 1 }
  let s2 := { s1 with time := if s.fabricRuns then s.time else s.time + 500 }
  match s.pwr.waking with
  | some k => if s.pwr.asleep && s.pwr.fref then State.plain (fun s => (s.fabricUp k).accRelease) s2 else .next s2
  | none => .next s2

/-- DOORBELL_HELD_RELEASE (R202): the held doorbell goes on, and after it the posted writes that waited, in their order, up to
the next doorbell that is held. -/
def execDoorbellHeldRelease (s : State) : Out :=
  State.plain (fun s =>
    let t := s.doorbellGo
    if t.cm.db.held.isSome then t
    else t.cm.db.posted.foldl (fun s c => s.accDo c) (t.updCm fun c => { c with db := { c.db with posted := [] } })) s

end Sys2Proof.Machine
end

