-- ==== Sys2Proof/Machine/Dispatch.lean ====
section
/-! DEFINITION. Each command and its meaning. -/

namespace Sys2Proof.Machine
open Sys2Proof

/-- The effect of one command on everything but the queue. -/
def exec (i : Instr) (s : State) : Host.Outcome State Fault Refusal :=
  match i with
  | .tokenEnqueue pe => Sys2Proof.Machine.execTokenEnqueue pe s
  | .matchDecision pe upset => Sys2Proof.Machine.execMatchDecision pe upset s
  | .cabinetLookupReturn pe upset => Sys2Proof.Machine.execCabinetLookupReturn pe upset s
  | .spillAck pe => Sys2Proof.Machine.execSpillAck pe s
  | .cabinetSweepBucket => Sys2Proof.Machine.execCabinetSweepBucket s
  | .capacityAbort => Sys2Proof.Machine.execCapacityAbort s
  | .overflowRefill pe => Sys2Proof.Machine.execOverflowRefill pe s
  | .fkRelease pe => Sys2Proof.Machine.execFkRelease pe s
  | .firingIssue pe pipe => Sys2Proof.Machine.execFiringIssue pe pipe s
  | .add pe pipe => Sys2Proof.Machine.execAdd pe pipe s
  | .sub pe pipe => Sys2Proof.Machine.execSub pe pipe s
  | .and pe pipe => Sys2Proof.Machine.execAnd pe pipe s
  | .or pe pipe => Sys2Proof.Machine.execOr pe pipe s
  | .xor pe pipe => Sys2Proof.Machine.execXor pe pipe s
  | .andn pe pipe => Sys2Proof.Machine.execAndn pe pipe s
  | .shl pe pipe => Sys2Proof.Machine.execShl pe pipe s
  | .shr pe pipe => Sys2Proof.Machine.execShr pe pipe s
  | .sar pe pipe => Sys2Proof.Machine.execSar pe pipe s
  | .rotl pe pipe => Sys2Proof.Machine.execRotl pe pipe s
  | .min pe pipe => Sys2Proof.Machine.execMin pe pipe s
  | .max pe pipe => Sys2Proof.Machine.execMax pe pipe s
  | .minu pe pipe => Sys2Proof.Machine.execMinu pe pipe s
  | .maxu pe pipe => Sys2Proof.Machine.execMaxu pe pipe s
  | .mul pe pipe => Sys2Proof.Machine.execMul pe pipe s
  | .mulhu pe pipe => Sys2Proof.Machine.execMulhu pe pipe s
  | .mulhs pe pipe => Sys2Proof.Machine.execMulhs pe pipe s
  | .divu pe pipe => Sys2Proof.Machine.execDivu pe pipe s
  | .divs pe pipe => Sys2Proof.Machine.execDivs pe pipe s
  | .remu pe pipe => Sys2Proof.Machine.execRemu pe pipe s
  | .rems pe pipe => Sys2Proof.Machine.execRems pe pipe s
  | .rdtime pe pipe => Sys2Proof.Machine.execRdtime pe pipe s
  | .ceq pe pipe => Sys2Proof.Machine.execCeq pe pipe s
  | .cne pe pipe => Sys2Proof.Machine.execCne pe pipe s
  | .clt pe pipe => Sys2Proof.Machine.execClt pe pipe s
  | .cle pe pipe => Sys2Proof.Machine.execCle pe pipe s
  | .cltu pe pipe => Sys2Proof.Machine.execCltu pe pipe s
  | .cleu pe pipe => Sys2Proof.Machine.execCleu pe pipe s
  | .btst pe pipe => Sys2Proof.Machine.execBtst pe pipe s
  | .switch pe pipe => Sys2Proof.Machine.execSwitch pe pipe s
  | .merge pe pipe => Sys2Proof.Machine.execMerge pe pipe s
  | .gate pe pipe => Sys2Proof.Machine.execGate pe pipe s
  | .fan pe pipe => Sys2Proof.Machine.execFan pe pipe s
  | .setflow pe pipe => Sys2Proof.Machine.execSetflow pe pipe s
  | .nextiter pe pipe => Sys2Proof.Machine.execNextiter pe pipe s
  | .setiter pe pipe => Sys2Proof.Machine.execSetiter pe pipe s
  | .newctx pe pipe => Sys2Proof.Machine.execNewctx pe pipe s
  | .sendTag pe pipe => Sys2Proof.Machine.execSendTag pe pipe s
  | .returnLink pe pipe => Sys2Proof.Machine.execReturnLink pe pipe s
  | .freectx pe pipe => Sys2Proof.Machine.execFreectx pe pipe s
  | .gettag pe pipe => Sys2Proof.Machine.execGettag pe pipe s
  | .iload pe pipe => Sys2Proof.Machine.execIload pe pipe s
  | .istore pe pipe => Sys2Proof.Machine.execIstore pe pipe s
  | .resetElem pe pipe => Sys2Proof.Machine.execResetElem pe pipe s
  | .istructRequest dc => Sys2Proof.Machine.execIstructRequest dc s
  | .ldMem pe pipe => Sys2Proof.Machine.execLdMem pe pipe s
  | .stMem pe pipe => Sys2Proof.Machine.execStMem pe pipe s
  | .swapMem pe pipe => Sys2Proof.Machine.execSwapMem pe pipe s
  | .casMem pe pipe => Sys2Proof.Machine.execCasMem pe pipe s
  | .faddMem pe pipe => Sys2Proof.Machine.execFaddMem pe pipe s
  | .farOr pe pipe => Sys2Proof.Machine.execFarOr pe pipe s
  | .fmaxuMem pe pipe => Sys2Proof.Machine.execFmaxuMem pe pipe s
  | .atomicService unit err => Sys2Proof.Machine.execAtomicService unit err s
  | .atomicAging unit => Sys2Proof.Machine.execAtomicAging unit s
  | .burstSite pe pipe => Sys2Proof.Machine.execBurstSite pe pipe s
  | .haltSite pe pipe => Sys2Proof.Machine.execHaltSite pe pipe s
  | .branchSite pe pipe => Sys2Proof.Machine.execBranchSite pe pipe s
  | .sitectl pe pipe => Sys2Proof.Machine.execSitectl pe pipe s
  | .cohortCopy quad => Sys2Proof.Machine.execCohortCopy quad s
  | .laneBurst lg => Sys2Proof.Machine.execLaneBurst lg s
  | .laneHalt lg => Sys2Proof.Machine.execLaneHalt lg s
  | .laneBranch site => Sys2Proof.Machine.execLaneBranch site s
  | .pause site => Sys2Proof.Machine.execPause site s
  | .resume site => Sys2Proof.Machine.execResume site s
  | .rearm site => Sys2Proof.Machine.execRearm site s
  | .reflexOn site => Sys2Proof.Machine.execReflexOn site s
  | .reflexOff site => Sys2Proof.Machine.execReflexOff site s
  | .release site => Sys2Proof.Machine.execRelease site s
  | .completionNotice lg => Sys2Proof.Machine.execCompletionNotice lg s
  | .arbiterWindowClose obj => Sys2Proof.Machine.execArbiterWindowClose obj s
  | .appendRec pe pipe => Sys2Proof.Machine.execAppendRec pe pipe s
  | .commitRec pe pipe => Sys2Proof.Machine.execCommitRec pe pipe s
  | .outletAppendAccept outlet port => Sys2Proof.Machine.execOutletAppendAccept outlet port s
  | .outletCommitAccept outlet port => Sys2Proof.Machine.execOutletCommitAccept outlet port s
  | .poisonMark outlet port => Sys2Proof.Machine.execPoisonMark outlet port s
  | .popc pe pipe => Sys2Proof.Machine.execPopc pe pipe s
  | .ffs pe pipe => Sys2Proof.Machine.execFfs pe pipe s
  | .bitscatter pe pipe => Sys2Proof.Machine.execBitscatter pe pipe s
  | .bitgather pe pipe => Sys2Proof.Machine.execBitgather pe pipe s
  | .unscramble pe pipe => Sys2Proof.Machine.execUnscramble pe pipe s
  | .tally pe pipe => Sys2Proof.Machine.execTally pe pipe s
  | .tallySetup tu => Sys2Proof.Machine.execTallySetup tu s
  | .tallyAdd tu => Sys2Proof.Machine.execTallyAdd tu s
  | .tallyQryRow tu => Sys2Proof.Machine.execTallyQryRow tu s
  | .tallyQryCol tu => Sys2Proof.Machine.execTallyQryCol tu s
  | .tallyScan tu => Sys2Proof.Machine.execTallyScan tu s
  | .tallyClear tu => Sys2Proof.Machine.execTallyClear tu s
  | .hsum pe pipe => Sys2Proof.Machine.execHsum pe pipe s
  | .hmaxu pe pipe => Sys2Proof.Machine.execHmaxu pe pipe s
  | .hminu pe pipe => Sys2Proof.Machine.execHminu pe pipe s
  | .hnz pe pipe => Sys2Proof.Machine.execHnz pe pipe s
  | .vaddsu pe pipe => Sys2Proof.Machine.execVaddsu pe pipe s
  | .reservedOpcodeTrap pe pipe => Sys2Proof.Machine.execReservedOpcodeTrap pe pipe s
  | .trapReturnArrival pe => Sys2Proof.Machine.execTrapReturnArrival pe s
  | .memoryResponse pe => Sys2Proof.Machine.execMemoryResponse pe s
  | .contextReply pe => Sys2Proof.Machine.execContextReply pe s
  | .outletAnswer pe => Sys2Proof.Machine.execOutletAnswer pe s
  | .contextGrant => Sys2Proof.Machine.execContextGrant s
  | .contextTableMissFill => Sys2Proof.Machine.execContextTableMissFill s
  | .loadBlock mb => Sys2Proof.Machine.execLoadBlock mb s
  | .unloadBlock mb => Sys2Proof.Machine.execUnloadBlock mb s
  | .siteMapImage mb => Sys2Proof.Machine.execSiteMapImage mb s
  | .siteMapCohort mb => Sys2Proof.Machine.execSiteMapCohort mb s
  | .siteRejoin mb => Sys2Proof.Machine.execSiteRejoin mb s
  | .siteRetire mb => Sys2Proof.Machine.execSiteRetire mb s
  | .laneSend mb => Sys2Proof.Machine.execLaneSend mb s
  | .laneRecv mb => Sys2Proof.Machine.execLaneRecv mb s
  | .jobSubmit mb => Sys2Proof.Machine.execJobSubmit mb s
  | .doorbellSubmit hi => Sys2Proof.Machine.execDoorbellSubmit hi s
  | .descriptorFetchDone readError => Sys2Proof.Machine.execDescriptorFetchDone readError s
  | .doorbellHeldRelease => Sys2Proof.Machine.execDoorbellHeldRelease s
  | .jobAbortByJob mb => Sys2Proof.Machine.execJobAbortByJob mb s
  | .jobAbortByCookie mb => Sys2Proof.Machine.execJobAbortByCookie mb s
  | .jobAdmission => Sys2Proof.Machine.execJobAdmission s
  | .runLimitExpiry job => Sys2Proof.Machine.execRunLimitExpiry job s
  | .contextKill => Sys2Proof.Machine.execContextKill s
  | .killNotice ep => Sys2Proof.Machine.execKillNotice ep s
  | .killAck => Sys2Proof.Machine.execKillAck s
  | .completionPost => Sys2Proof.Machine.execCompletionPost s
  | .fenceToken ep => Sys2Proof.Machine.execFenceToken ep s
  | .fenceBatchStart => Sys2Proof.Machine.execFenceBatchStart s
  | .contextFreed ctx => Sys2Proof.Machine.execContextFreed ctx s
  | .outletConfigOutlet mb => Sys2Proof.Machine.execOutletConfigOutlet mb s
  | .outletConfigCompare mb => Sys2Proof.Machine.execOutletConfigCompare mb s
  | .pairStatus mb => Sys2Proof.Machine.execPairStatus mb s
  | .pairSwap mb => Sys2Proof.Machine.execPairSwap mb s
  | .pairReseat mb => Sys2Proof.Machine.execPairReseat mb s
  | .fwStage mb => Sys2Proof.Machine.execFwStage mb s
  | .fwActivate mb => Sys2Proof.Machine.execFwActivate mb s
  | .fwConfirm mb => Sys2Proof.Machine.execFwConfirm mb s
  | .fwRevert mb => Sys2Proof.Machine.execFwRevert mb s
  | .tamperClearChallenge mb => Sys2Proof.Machine.execTamperClearChallenge mb s
  | .tamperClearAnswer mb => Sys2Proof.Machine.execTamperClearAnswer mb s
  | .keyLoad mb => Sys2Proof.Machine.execKeyLoad mb s
  | .extLoad mb => Sys2Proof.Machine.execExtLoad mb s
  | .extUnload mb => Sys2Proof.Machine.execExtUnload mb s
  | .ledgerRead mb => Sys2Proof.Machine.execLedgerRead mb s
  | .eventsRead mb => Sys2Proof.Machine.execEventsRead mb s
  | .powerPolicyDomain src => Sys2Proof.Machine.execPowerPolicyDomain src s
  | .powerPolicyInsertions mb => Sys2Proof.Machine.execPowerPolicyInsertions mb s
  | .powerPolicyThrottle mb => Sys2Proof.Machine.execPowerPolicyThrottle mb s
  | .sentinelRulesRead mb => Sys2Proof.Machine.execSentinelRulesRead mb s
  | .sentinelRulesWrite src => Sys2Proof.Machine.execSentinelRulesWrite src s
  | .sentinelRulesDisable src => Sys2Proof.Machine.execSentinelRulesDisable src s
  | .snRuleCopy => Sys2Proof.Machine.execSnRuleCopy s
  | .traceConfig mb => Sys2Proof.Machine.execTraceConfig mb s
  | .flashErase mb => Sys2Proof.Machine.execFlashErase mb s
  | .flashProgram mb => Sys2Proof.Machine.execFlashProgram mb s
  | .flashRead mb => Sys2Proof.Machine.execFlashRead mb s
  | .getInfo mb => Sys2Proof.Machine.execGetInfo mb s
  | .getCaps mb => Sys2Proof.Machine.execGetCaps mb s
  | .flashUnitStep cs => Sys2Proof.Machine.execFlashUnitStep cs s
  | .msixPendingSend fn vector => Sys2Proof.Machine.execMsixPendingSend fn vector s
  | .pf0Reset perst => Sys2Proof.Machine.execPf0Reset perst s
  | .pf1Reset perst => Sys2Proof.Machine.execPf1Reset perst s
  | .pf1ModerationTimer outlet => Sys2Proof.Machine.execPf1ModerationTimer outlet s
  | .bar2Write offset data => Sys2Proof.Machine.execBar2Write offset data s
  | .entdaa addr => Sys2Proof.Machine.execEntdaa addr s
  | .rstdaa => Sys2Proof.Machine.execRstdaa s
  | .enec events => Sys2Proof.Machine.execEnec events s
  | .disec events => Sys2Proof.Machine.execDisec events s
  | .getpid => Sys2Proof.Machine.execGetpid s
  | .getbcr => Sys2Proof.Machine.execGetbcr s
  | .getdcr => Sys2Proof.Machine.execGetdcr s
  | .getstatus => Sys2Proof.Machine.execGetstatus s
  | .getmwl => Sys2Proof.Machine.execGetmwl s
  | .getmrl => Sys2Proof.Machine.execGetmrl s
  | .rstact => Sys2Proof.Machine.execRstact s
  | .i3cPrivateWrite data => Sys2Proof.Machine.execI3cPrivateWrite data s
  | .i3cPrivateRead count => Sys2Proof.Machine.execI3cPrivateRead count s
  | .inBandInterrupt accepted => Sys2Proof.Machine.execInBandInterrupt accepted s
  | .pegAcquire master ownerId n => Sys2Proof.Machine.execPegAcquire master ownerId n s
  | .pegAcquireWait st n rd => Sys2Proof.Machine.execPegAcquireWait st n rd s
  | .pegRelease master ownerId n => Sys2Proof.Machine.execPegRelease master ownerId n s
  | .partnerPegAcquire n => Sys2Proof.Machine.execPartnerPegAcquire n s
  | .partnerPegRead n => Sys2Proof.Machine.execPartnerPegRead n s
  | .partnerPegRelease n => Sys2Proof.Machine.execPartnerPegRelease n s
  | .partnerPegResult pegWord => Sys2Proof.Machine.execPartnerPegResult pegWord s
  | .tokenInject st => Sys2Proof.Machine.execTokenInject st s
  | .ctlMessageQueue lg => Sys2Proof.Machine.execCtlMessageQueue lg s
  | .ctlFifoPopRead lg meas => Sys2Proof.Machine.execCtlFifoPopRead lg meas s
  | .evrGo => Sys2Proof.Machine.execEvrGo s
  | .evrRdIdxWrite v => Sys2Proof.Machine.execEvrRdIdxWrite v s
  | .evrRdDataRead => Sys2Proof.Machine.execEvrRdDataRead s
  | .veIndAccess lane write => Sys2Proof.Machine.execVeIndAccess lane write s
  | .latchingRead space addr => Sys2Proof.Machine.execLatchingRead space addr s
  | .msCntClr pe => Sys2Proof.Machine.execMsCntClr pe s
  | .schedCntClr pe => Sys2Proof.Machine.execSchedCntClr pe s
  | .veCntClr lane => Sys2Proof.Machine.execVeCntClr lane s
  | .cuCntClr lane v => Sys2Proof.Machine.execCuCntClr lane v s
  | .cuFloodClr lane => Sys2Proof.Machine.execCuFloodClr lane s
  | .floodClr idx v => Sys2Proof.Machine.execFloodClr idx v s
  | .lpCntClr lane => Sys2Proof.Machine.execLpCntClr lane s
  | .laneRetrain lane => Sys2Proof.Machine.execLaneRetrain lane s
  | .laneForceDown lane => Sys2Proof.Machine.execLaneForceDown lane s
  | .traceArm => Sys2Proof.Machine.execTraceArm s
  | .traceTriggerNow => Sys2Proof.Machine.execTraceTriggerNow s
  | .traceStop => Sys2Proof.Machine.execTraceStop s
  | .traceCollectorWrite quad => Sys2Proof.Machine.execTraceCollectorWrite quad s
  | .outRdWrite outlet v => Sys2Proof.Machine.execOutRdWrite outlet v s
  | .jqCrHeadWrite v => Sys2Proof.Machine.execJqCrHeadWrite v s
  | .completionRingEnable v => Sys2Proof.Machine.execCompletionRingEnable v s
  | .cabCfgWrite v => Sys2Proof.Machine.execCabCfgWrite v s
  | .ddrShareWrite user v => Sys2Proof.Machine.execDdrShareWrite user v s
  | .dcCfgEnable chan v => Sys2Proof.Machine.execDcCfgEnable chan v s
  | .pwrAvsWrite v => Sys2Proof.Machine.execPwrAvsWrite v s
  | .tmpCfgWrite v => Sys2Proof.Machine.execTmpCfgWrite v s
  | .snKillHoldWrite v => Sys2Proof.Machine.execSnKillHoldWrite v s
  | .scCtlInvalidate st => Sys2Proof.Machine.execScCtlInvalidate st s
  | .dspFlagsSet st slot v => Sys2Proof.Machine.execDspFlagsSet st slot v s
  | .dspFlagsClr st slot v => Sys2Proof.Machine.execDspFlagsClr st slot v s
  | .dspXsig st slot v => Sys2Proof.Machine.execDspXsig st slot v s
  | .dspStart st slot => Sys2Proof.Machine.execDspStart st slot s
  | .dspStop st slot => Sys2Proof.Machine.execDspStop st slot s
  | .dspFree st slot => Sys2Proof.Machine.execDspFree st slot s
  | .dspCtlWrite st slot v => Sys2Proof.Machine.execDspCtlWrite st slot v s
  | .registerWrite space addr v => Sys2Proof.Machine.execRegisterWrite space addr v s
  | .stAdd st => Sys2Proof.Machine.execStAdd st s
  | .stSub st => Sys2Proof.Machine.execStSub st s
  | .stAnd st => Sys2Proof.Machine.execStAnd st s
  | .stOr st => Sys2Proof.Machine.execStOr st s
  | .stXor st => Sys2Proof.Machine.execStXor st s
  | .stAndn st => Sys2Proof.Machine.execStAndn st s
  | .stShl st => Sys2Proof.Machine.execStShl st s
  | .stShr st => Sys2Proof.Machine.execStShr st s
  | .stSar st => Sys2Proof.Machine.execStSar st s
  | .stRotl st => Sys2Proof.Machine.execStRotl st s
  | .slt st => Sys2Proof.Machine.execSlt st s
  | .sltu st => Sys2Proof.Machine.execSltu st s
  | .stMul st => Sys2Proof.Machine.execStMul st s
  | .stMulhu st => Sys2Proof.Machine.execStMulhu st s
  | .stMulhs st => Sys2Proof.Machine.execStMulhs st s
  | .stDivu st => Sys2Proof.Machine.execStDivu st s
  | .stRemu st => Sys2Proof.Machine.execStRemu st s
  | .stDivs st => Sys2Proof.Machine.execStDivs st s
  | .stRems st => Sys2Proof.Machine.execStRems st s
  | .addi st => Sys2Proof.Machine.execAddi st s
  | .slti st => Sys2Proof.Machine.execSlti st s
  | .sltiu st => Sys2Proof.Machine.execSltiu st s
  | .andi st => Sys2Proof.Machine.execAndi st s
  | .ori st => Sys2Proof.Machine.execOri st s
  | .xori st => Sys2Proof.Machine.execXori st s
  | .shiShl st => Sys2Proof.Machine.execShiShl st s
  | .shiShr st => Sys2Proof.Machine.execShiShr st s
  | .shiSar st => Sys2Proof.Machine.execShiSar st s
  | .shiRotl st => Sys2Proof.Machine.execShiRotl st s
  | .lui st => Sys2Proof.Machine.execLui st s
  | .lb st => Sys2Proof.Machine.execLb st s
  | .lbu st => Sys2Proof.Machine.execLbu st s
  | .lh st => Sys2Proof.Machine.execLh st s
  | .lhu st => Sys2Proof.Machine.execLhu st s
  | .lw st => Sys2Proof.Machine.execLw st s
  | .sb st => Sys2Proof.Machine.execSb st s
  | .sh st => Sys2Proof.Machine.execSh st s
  | .sw st => Sys2Proof.Machine.execSw st s
  | .storeResponse st => Sys2Proof.Machine.execStoreResponse st s
  | .beq st => Sys2Proof.Machine.execBeq st s
  | .bne st => Sys2Proof.Machine.execBne st s
  | .blt st => Sys2Proof.Machine.execBlt st s
  | .bge st => Sys2Proof.Machine.execBge st s
  | .bltu st => Sys2Proof.Machine.execBltu st s
  | .bgeu st => Sys2Proof.Machine.execBgeu st s
  | .jump st => Sys2Proof.Machine.execJump st s
  | .call st => Sys2Proof.Machine.execCall st s
  | .jr st => Sys2Proof.Machine.execJr st s
  | .callr st => Sys2Proof.Machine.execCallr st s
  | .ret st => Sys2Proof.Machine.execRet st s
  | .inPort st => Sys2Proof.Machine.execInPort st s
  | .outPort st => Sys2Proof.Machine.execOutPort st s
  | .atomSwap st => Sys2Proof.Machine.execAtomSwap st s
  | .atomCas st => Sys2Proof.Machine.execAtomCas st s
  | .atomFadd st => Sys2Proof.Machine.execAtomFadd st s
  | .atomFor st => Sys2Proof.Machine.execAtomFor st s
  | .atomFmaxu st => Sys2Proof.Machine.execAtomFmaxu st s
  | .syscall st => Sys2Proof.Machine.execSyscall st s
  | .breakpoint st => Sys2Proof.Machine.execBreakpoint st s
  | .rete st => Sys2Proof.Machine.execRete st s
  | .fence st => Sys2Proof.Machine.execFence st s
  | .waitany st => Sys2Proof.Machine.execWaitany st s
  | .waitall st => Sys2Proof.Machine.execWaitall st s
  | .yield st => Sys2Proof.Machine.execYield st s
  | .mfpsw st => Sys2Proof.Machine.execMfpsw st s
  | .mtpsw st => Sys2Proof.Machine.execMtpsw st s
  | .irdw st => Sys2Proof.Machine.execIrdw st s
  | .iwrw st => Sys2Proof.Machine.execIwrw st s
  | .rspush st => Sys2Proof.Machine.execRspush st s
  | .rspop st => Sys2Proof.Machine.execRspop st s
  | .rsdepth st => Sys2Proof.Machine.execRsdepth st s
  | .cinv st => Sys2Proof.Machine.execCinv st s
  | .stHalt st => Sys2Proof.Machine.execStHalt st s
  | .stewardAdoption st => Sys2Proof.Machine.execStewardAdoption st s
  | .stewardClusterRestart => Sys2Proof.Machine.execStewardClusterRestart s
  | .exit st => Sys2Proof.Machine.execExit st s
  | .event st => Sys2Proof.Machine.execEvent st s
  | .taskStart st => Sys2Proof.Machine.execTaskStart st s
  | .info st => Sys2Proof.Machine.execInfo st s
  | .trapNext st => Sys2Proof.Machine.execTrapNext st s
  | .trapReturn st => Sys2Proof.Machine.execTrapReturn st s
  | .eventRouted source => Sys2Proof.Machine.execEventRouted source s
  | .waitTimeout st slot => Sys2Proof.Machine.execWaitTimeout st slot s
  | .preemption st => Sys2Proof.Machine.execPreemption st s
  | .dspTimerExpiry => Sys2Proof.Machine.execDspTimerExpiry s
  | .cacheInvalidation st line => Sys2Proof.Machine.execCacheInvalidation st line s
  | .vectorStage site => Sys2Proof.Machine.execVectorStage site s
  | .fretWrite lane => Sys2Proof.Machine.execFretWrite lane s
  | .playbackRecordFetch reader => Sys2Proof.Machine.execPlaybackRecordFetch reader s
  | .flitSlotStart lane => Sys2Proof.Machine.execFlitSlotStart lane s
  | .captReceived lane ty field flags payload err => Sys2Proof.Machine.execCaptReceived lane ty field flags payload err s
  | .reflexStop site => Sys2Proof.Machine.execReflexStop site s
  | .fretDeadline lane err => Sys2Proof.Machine.execFretDeadline lane err s
  | .failTokenInject lg => Sys2Proof.Machine.execFailTokenInject lg s
  | .summaryIntervalEnd lane => Sys2Proof.Machine.execSummaryIntervalEnd lane s
  | .heldRecordWrite lane => Sys2Proof.Machine.execHeldRecordWrite lane s
  | .haltRptReceived lane seq payload => Sys2Proof.Machine.execHaltRptReceived lane seq payload s
  | .haltReportTimeout lane => Sys2Proof.Machine.execHaltReportTimeout lane s
  | .linkStatusReceived lane credit payload => Sys2Proof.Machine.execLinkStatusReceived lane credit payload s
  | .creditRefreshDue lane => Sys2Proof.Machine.execCreditRefreshDue lane s
  | .ctrlReceived lane payload => Sys2Proof.Machine.execCtrlReceived lane payload s
  | .ctrlRetransmit lane => Sys2Proof.Machine.execCtrlRetransmit lane s
  | .measReceived lane tag payload => Sys2Proof.Machine.execMeasReceived lane tag payload s
  | .trainReceived lane field done => Sys2Proof.Machine.execTrainReceived lane field done s
  | .noIntactFlitTimeout lane => Sys2Proof.Machine.execNoIntactFlitTimeout lane s
  | .stimCreditTimeout lane => Sys2Proof.Machine.execStimCreditTimeout lane s
  | .signalLost lane => Sys2Proof.Machine.execSignalLost lane s
  | .signalDetected lane => Sys2Proof.Machine.execSignalDetected lane s
  | .trainingPhaseTimeout lane => Sys2Proof.Machine.execTrainingPhaseTimeout lane s
  | .eqComplete lane => Sys2Proof.Machine.execEqComplete lane s
  | .helloReceived lane body => Sys2Proof.Machine.execHelloReceived lane body s
  | .helloResend lane => Sys2Proof.Machine.execHelloResend lane s
  | .outletBankSwap outlet => Sys2Proof.Machine.execOutletBankSwap outlet s
  | .outletRecordDrain outlet upset => Sys2Proof.Machine.execOutletRecordDrain outlet upset s
  | .outletReset outlet ptr m => Sys2Proof.Machine.execOutletReset outlet ptr m s
  | .packetForward net chan router inport linkOk => Sys2Proof.Machine.execPacketForward net chan router inport linkOk s
  | .noticeBroadcast => Sys2Proof.Machine.execNoticeBroadcast s
  | .domainTransitionDone d => Sys2Proof.Machine.execDomainTransitionDone d s
  | .domainIdleHoldoff d => Sys2Proof.Machine.execDomainIdleHoldoff d s
  | .policyApply => Sys2Proof.Machine.execPolicyApply s
  | .fabricSleepStep => Sys2Proof.Machine.execFabricSleepStep s
  | .fabricWake input => Sys2Proof.Machine.execFabricWake input s
  | .quadTraceFlush quad => Sys2Proof.Machine.execQuadTraceFlush quad s
  | .aoTick => Sys2Proof.Machine.execAoTick s
  | .railBad rail => Sys2Proof.Machine.execRailBad rail s
  | .railGood rail => Sys2Proof.Machine.execRailGood rail s
  | .frefLoss => Sys2Proof.Machine.execFrefLoss s
  | .lrefLoss k => Sys2Proof.Machine.execLrefLoss k s
  | .sentinelSample samples => Sys2Proof.Machine.execSentinelSample samples s
  | .dpfAssert k => Sys2Proof.Machine.execDpfAssert k s
  | .dpfReleaseTimer k => Sys2Proof.Machine.execDpfReleaseTimer k s
  | .resetAssert => Sys2Proof.Machine.execResetAssert s
  | .resetRelease bootSel => Sys2Proof.Machine.execResetRelease bootSel s
  | .bootStep fails => Sys2Proof.Machine.execBootStep fails s
  | .confirmationTimeout => Sys2Proof.Machine.execConfirmationTimeout s
  | .tamperAlarm source => Sys2Proof.Machine.execTamperAlarm source s
  | .entropyFailure => Sys2Proof.Machine.execEntropyFailure s
  | .pwrWarn => Sys2Proof.Machine.execPwrWarn s
  | .ledgerSnapshot => Sys2Proof.Machine.execLedgerSnapshot s
  | .patrolUnit failed upset => Sys2Proof.Machine.execPatrolUnit failed upset s
  | .peFailure pe cause => Sys2Proof.Machine.execPeFailure pe cause s
  | .spareInService spare => Sys2Proof.Machine.execSpareInService spare s
  | .eventRecordIntake => Sys2Proof.Machine.execEventRecordIntake s
  | .recordChangeApply => Sys2Proof.Machine.execRecordChangeApply s
  | .ddrScheduleWindow chan upset => Sys2Proof.Machine.execDdrScheduleWindow chan upset s
  | .ddrRequestServed chan err => Sys2Proof.Machine.execDdrRequestServed chan err s
  | .refreshDerate chan hot => Sys2Proof.Machine.execRefreshDerate chan hot s
  | .patrolScrub chan err => Sys2Proof.Machine.execPatrolScrub chan err s
  | .shelfAccess bank err => Sys2Proof.Machine.execShelfAccess bank err s
  | .epochBoundary => Sys2Proof.Machine.execEpochBoundary s
  | .journalRecordReceived rec => Sys2Proof.Machine.execJournalRecordReceived rec s
  | .epochAck epoch => Sys2Proof.Machine.execEpochAck epoch s
  | .heartbeatSend => Sys2Proof.Machine.execHeartbeatSend s
  | .heartbeatReceived hb => Sys2Proof.Machine.execHeartbeatReceived hb s
  | .suspicion => Sys2Proof.Machine.execSuspicion s
  | .confirmationExpiry => Sys2Proof.Machine.execConfirmationExpiry s
  | .takeover => Sys2Proof.Machine.execTakeover s
  | .primClaimInChange level => Sys2Proof.Machine.execPrimClaimInChange level s
  | .formationTimeout => Sys2Proof.Machine.execFormationTimeout s
  | .seatMessage term => Sys2Proof.Machine.execSeatMessage term s
  | .dualClaimCheck => Sys2Proof.Machine.execDualClaimCheck s
  | .bridgeTrained params => Sys2Proof.Machine.execBridgeTrained params s
  | .bridgeLaneLoss k => Sys2Proof.Machine.execBridgeLaneLoss k s
  | .mirrorWrite addr data => Sys2Proof.Machine.execMirrorWrite addr data s
  | .reseatCopyDone => Sys2Proof.Machine.execReseatCopyDone s
  | .seam term liveJobs cfg => Sys2Proof.Machine.execSeam term liveJobs cfg s
  | .reseatFailure => Sys2Proof.Machine.execReseatFailure s
  | .unprotectedJobEnd => Sys2Proof.Machine.execUnprotectedJobEnd s
  | .bridgeLossAtActive => Sys2Proof.Machine.execBridgeLossAtActive s
  | .trigRisingEdge pin => Sys2Proof.Machine.execTrigRisingEdge pin s
  | .frefReturn => Sys2Proof.Machine.execFrefReturn s
  | .uncorrectableCodeword lane flits symbols => Sys2Proof.Machine.execUncorrectableCodeword lane flits symbols s
  | .killSweepEnd pe => Sys2Proof.Machine.execKillSweepEnd pe s
  | .standbyFirmwareRunning => Sys2Proof.Machine.execStandbyFirmwareRunning s
  | .mbGoUndefinedId mb => Sys2Proof.Machine.execMbGoUndefinedId mb s

end Sys2Proof.Machine
end

