-- ==== Sys2Proof/Safety.lean ====
section
/-! DEFINITION. The terms that the statements use: what a unit holds before a command, what a command has sent, and the
invariant that every step keeps. -/

namespace Sys2Proof.Machine
open Sys2Proof

/-! ### Firings (chapter 05) -/

/-- An awake PE's fire half (0, 1) or iterative unit (2, 3) holds a firing of an opcode, whose block is resident. -/
abbrev State.has (s : State) (pe slot op : Nat) (f : Firing) : Prop :=
  s.domOn (quadDom pe) = true ∧ Tbl.find (s.pe pe).fire slot = some f ∧ wOpc f.word = op ∧
    (Tbl.find s.cm.blocks f.block).isSome = true

/-- The same, with room for the firing's two tokens in its pipe's output buffer (R114). -/
abbrev State.holds (s : State) (pe slot op : Nat) (f : Firing) : Prop :=
  s.has pe slot op f ∧ s.outRoom pe (slot % 2) f = true

/-- The tokens that a fire half has sent and that still wait at its PE or in the fabric. -/
def State.gone (s : State) (pe pipe : Nat) : List Tok :=
  Tbl.get [] (s.pe pe).outL (2 * pipe) ++ Tbl.get [] (s.pe pe).outL (2 * pipe + 1) ++
    s.net.transit.filterMap fun k =>
      match k.body with
      | .tok t => if k.net == 0 && k.src == 2 * pe + pipe then some t else none
      | _ => none

/-- The tokens that carry a value to the destinations of a firing whose port is not 3. -/
def Firing.results (f : Firing) (value : Nat) (poison : Bool) (iter flow : Nat) : List Tok :=
  ((List.range 2).filter fun i => wDstPort f.word i != 3).map fun i => f.token i value poison iter flow

/-- The token for one destination, if its port is not 3. -/
def Firing.result (f : Firing) (i value : Nat) (poison : Bool) (iter flow : Nat) : List Tok :=
  if wDstPort f.word i = 3 then [] else [f.token i value poison iter flow]

/-- The lanes of a, 8, 16 or 32 bits wide by modifier bits [1:0], lowest first (R185). -/
def Firing.lanes (f : Firing) (m : Nat) : List Nat :=
  (List.range (8 / 2 ^ (m % 4))).map fun i => f.va / 2 ^ (8 * 2 ^ (m % 4) * i) % 2 ^ (8 * 2 ^ (m % 4))

/-- The package is single: it journals nothing and follows no journal (R430). -/
abbrev State.alone (s : State) : Prop :=
  s.pair.state = 0 ∧ s.pair.values = [] ∧ s.pair.grants = [] ∧ s.pair.seqs = [] ∧ s.pair.branchPts = [] ∧
    s.pair.modes = [] ∧ s.pair.ctls = [] ∧ s.pair.capHeld = [] ∧ s.pair.unprotJobs = []

/-- A command takes a firing out of its slot and sends tokens; nothing else changes. -/
def Sends (s : State) (c : Instr) (pe pipe slot : Nat) (l : List Tok) : Prop :=
  ∃ t, exec c s = .next t ∧ Tbl.find (t.pe pe).fire slot = none ∧ (t.gone pe pipe).Perm (s.gone pe pipe ++ l) ∧
    (∀ q, q ≠ pe → t.pe q = s.pe q) ∧ t.pe pe = { s.pe pe with fire := (t.pe pe).fire, outL := (t.pe pe).outL } ∧
    t = { s with pes := t.pes, net := { s.net with transit := t.net.transit } }

/-- A command gives one value to both destinations, with the firing's CTX and ITER, the FLOW of R46 and the poison of
R47 (R148). -/
def Gives (s : State) (c : Instr) (pe pipe slot : Nat) (f : Firing) (v : Nat) : Prop :=
  Sends s c pe pipe slot (f.results v f.poisoned f.iter f.outFlow)

/-- The operand values as 64-bit words. -/
def Firing.xa (f : Firing) : BitVec 64 := BitVec.ofNat 64 f.va
def Firing.xb (f : Firing) : BitVec 64 := BitVec.ofNat 64 f.vb

/-- A command takes a firing out of its slot, puts it in service and sends one request, with the token that its receiver
checks (R53, R54); nothing else changes but the PE's count of memory requests. -/
def Asks (s : State) (c : Instr) (pe pipe : Nat) (f : Firing) (k : Slot) (dst : Ep) (b : Body) (chk : Option Tok)
    (reqs : Nat := 0) : Prop :=
  ∃ t, exec c s = .next t ∧ Tbl.find (t.pe pe).fire pipe = none ∧
    (t.pe pe).svc = (s.pe pe).svc ++ [{ f := f, slot := k, pipe := pipe }] ∧ (t.pe pe).reqs = (s.pe pe).reqs + reqs ∧
    t.net.transit = s.net.transit ++ [{ net := 1, router := routerOf (.pe pe), dst := dst, body := b, chk := chk }] ∧
    (∀ q, q ≠ pe → t.pe q = s.pe q) ∧
    t.pe pe = { s.pe pe with fire := (t.pe pe).fire, svc := (t.pe pe).svc, reqs := (t.pe pe).reqs } ∧
    t = { s with pes := t.pes, net := { s.net with transit := t.net.transit } }

/-- A memory request, numbered in its PE's order of issue (R167), in the lowest free response slot, to the Shelf or to the DDR5
channel of its address. -/
def AsksMem (s : State) (c : Instr) (pe pipe : Nat) (f : Firing) (op : MemOp) (shelf : Bool) (addr : Nat) : Prop :=
  Asks s c pe pipe f (.rsp (s.pe pe).rspSlot) (if shelf then .shelf else .dc (addr / 256 % s.nDc))
    (.mem { op := op, shelf := shelf, addr := addr, b := f.vb, c := f.vc, pe := pe, slot := (s.pe pe).rspSlot, ctx := f.ctx,
            prio := if f.grp = 0 then 15 else 8 - f.grp, since := s.time, seq := (s.pe pe).reqs }) none 1

/-- The memory and the address of an access of n bytes that lies in its job's window and is aligned (R166, R167), and touches
the peg alias only where `ok` says that the opcode may (R363); none for any other. -/
def State.window (s : State) (f : Firing) (a n : Nat) (ok : Bool) : Option (Bool × Nat) :=
  let j := s.job f.job
  let off := a % 2 ^ 62
  let sh := 0x400000 + j.shelfBase + off
  if off % n ≠ 0 then none
  else if a / 2 ^ 62 = 0 then (if off + n ≤ j.dataSize then some (false, j.dataBase + off) else none)
  else if a / 2 ^ 62 = 1 then
    (if off + n ≤ j.shelfSize ∧ (ok = true ∨ sh + n ≤ 0x7FE000 ∨ 0x800000 ≤ sh) then some (true, sh) else none)
  else none

/-- A selector names a site of the firing's job, or a cohort of its table (R170). -/
abbrev State.inGrant (s : State) (f : Firing) (sel : Nat) : Prop :=
  (sel < s.nLanes ∧ (s.job f.job).sites.testBit sel = true) ∨
    (256 ≤ sel ∧ sel < 512 ∧ sel - 256 < (s.job f.job).cohortCount)

/-- A lane token of a firing: its VALUE (Table 05-9), its tag (R171), its CRC (R53). -/
abbrev Tok.isLane (m : Tok) (f : Firing) (op payload sel : Nat) : Prop :=
  m.value.toNat = op + 4 * (sel / 256) + 8 * (sel % 256) + 2 ^ 11 * payload ∧
    m.tag = tagOf (f.ctx % 2 ^ 20) (wDst0 f.word) (f.iter % 2 ^ 28) + wPort0 f.word ∧ m.grp.toNat = wGrp f.word ∧ m.crcOk = true

/-- A lane opcode's firing sends its lane token, to the site's lane group or for the cohort's copying, and the selector to
DST1 (R171, R174). -/
def SendsLane (s : State) (c : Instr) (pe pipe : Nat) (f : Firing) (op payload sel : Nat) : Prop :=
  ∃ t k m, exec c s = .next t ∧ Tbl.find (t.pe pe).fire pipe = none ∧
    k.net = 0 ∧ k.chan = (if wGrp f.word = 0 then 0 else 1) ∧ m.isLane f op payload sel ∧
    (if sel < 256 then k ∈ t.net.transit ∧ k.dst = .lg (sel / 8) ∧ k.body = .lane m f.job pe none ∧
        t.net.cohortQ = s.net.cohortQ
      else t.net.cohortQ = s.net.cohortQ ++ [k] ∧
        k.body = .lane m f.job pe (some ((s.job f.job).cohortFirst + (sel - 256)))) ∧
    (t.gone pe pipe).Perm (s.gone pe pipe ++ f.result 1 sel false f.iter f.outFlow) ∧
    t = { s with pes := t.pes, net := { s.net with transit := t.net.transit, cohortQ := t.net.cohortQ } }

/-- The firing in service in a slot completes: the slot is free, and tokens are sent; nothing else changes but the trace, the
alert and the counters that its record may cause. -/
def Completes (s : State) (c : Instr) (pe : Nat) (v : Svc) (k : Slot) (l : List Tok) : Prop :=
  ∃ t, exec c s = .next t ∧ (t.pe pe).svc = (s.pe pe).svc.filter (fun x => x.slot != k) ∧
    (t.gone pe v.pipe).Perm (s.gone pe v.pipe ++ l) ∧
    t = { s with pes := t.pes, net := { s.net with transit := t.net.transit }, trace := t.trace, host := t.host,
                   i3c := t.i3c, fc := t.fc }

/-! ### Matching, scheduling, mailboxes -/

/-- A token that its PE neither traps, drops as stale nor faults, for an actor with a given word (R38 to R42, R56). -/
abbrev State.goodTok (s : State) (pe : Nat) (k : Tok) (w : Nat) : Prop :=
  k.kind ≠ 3 ∧ s.staleAt pe k.ctx.toNat = false ∧ s.wordOf k.ctx.toNat k.act.toNat = some w ∧ k.port.toNat ∈ waitSet w ∧
    ¬(k.ctx = 0 ∧ k.act = 0)

/-- A firing of a token's key and word with the given operand tokens, not of an FK actor (R44, R123). -/
abbrev Firing.isFrom (f : Firing) (k : Tok) (w : Nat) (l : List Tok) : Prop :=
  f.ctx = k.ctx.toNat ∧ f.act = k.act.toNat ∧ f.iter = k.iter.toNat ∧ f.word = w ∧ f.grp = k.grp.toNat ∧
    f.a = portTok l 0 ∧ f.b = portTok l 1 ∧ f.c = portTok l 2 ∧ f.flow = k.flow.toNat

/-- The ready list of a PE takes one more firing, enabled now (R94, R123). -/
abbrev Pe.takes (p : Pe) (now : Nat) : Prop :=
  p.ovf = [] ∧ p.ready.length + p.fk.length < 2048 ∧ ∀ g ∈ p.ready, g.at_ ≤ now

/-- A firing joins its group's queue by the time at which it was enabled (R123): no other firing leaves the list, and behind
firings enabled no later than it, it stands last. -/
abbrev Joins (old new : List Firing) (f : Firing) : Prop :=
  new.Perm (f :: old) ∧ ((∀ g ∈ old, g.grp = f.grp → g.at_ ≤ f.at_) → new = old ++ [f])

/-- Counters lo to hi have been reset: what they had counted in this fc stands, all else of them is gone (R110, R141). -/
abbrev State.Cleared (s : State) (fam : CntFam) (unit lo hi : Nat) (old new : Tbl Nat) : Prop :=
  ∀ c, Tbl.get 0 new c =
    if lo ≤ c ∧ c ≤ hi then (if (Tbl.find old c).isSome then s.noted (.cnt fam unit c) else 0) else Tbl.get 0 old c

/-- No line of DDR5 has taken an error or is poisoned (R351). -/
abbrev State.ddrClean (s : State) : Prop := s.ddrUpset = [] ∧ s.ddrPoison = []

/-- A command waits in a mailbox, R409 refuses nothing of it, firmware serves it, and it is no repetition (R407 to R409,
R453). -/
abbrev State.mbServes (s : State) (m id len : Nat) (named : List (Nat × Nat)) (a : List Byte) : Prop :=
  m < 16 ∧ (s.mb m).state = 1 ∧ (s.mb m).cmdId = id ∧ (s.mb m).args = a ∧ s.domOn 1 = true ∧
    s.mbCheck m len named true false = none ∧ (s.mb m).replay = none ∧ s.alone

/-- A mailbox is DONE with a status and a response for the command that it held (R408). -/
abbrev Mbox.doneWith (x : Mbox) (old : Mbox) (status : Nat) (rsp : List Byte) : Prop :=
  x.state = 3 ∧ x.status = status ∧ x.rspLen = rsp.length ∧ x.data = padTo 224 rsp ∧ x.tag = old.cmdTag ∧ x.id = old.cmdId

/-- The job of a lane operation that a site's lane group holds (R173). -/
def State.opJob (s : State) (k op : Nat) : Nat := (((s.lg (k / 8)).ops.find? fun o => o.id == op).map (·.job)).getD 0

/-- An outlet's answer is on its way to a PE (R133). -/
abbrev Answers (t : State) (o pe slot value fault : Nat) : Prop :=
  ∃ k ∈ t.net.transit, k.dst = .pe pe ∧ k.body = .answer o slot value fault

/-! ### Lanes (chapter 09) -/

/-- A counter of 32 bits has risen by n, saturating. -/
abbrev Rises (old new : Tbl Nat) (k n : Nat) : Prop := Tbl.get 0 new k = min 0xFFFFFFFF (Tbl.get 0 old k + n)

/-- A lane has sent a flit at its place in the superframe: its 132 bytes stand in the codewords, and a codeword that they fill
has been sent with its parity, in bypass mode the CRCs of the flits that end in it (R299 to R301). -/
abbrev Lane.codes (x y : Lane) : Prop :=
  y.slot = (x.slot + 1) % 1285 ∧ y.txTest = 0 ∧
    (let off := 1056 * x.slot % 5140
     let m := x.txMsg + leNat y.tx.bytes * 2 ^ off
     (off + 1056 < 5140 → y.txMsg = m ∧ y.txCrcs = x.txCrcs ++ [crc32 y.tx.bytes] ∧ y.txCw = x.txCw) ∧
     (5140 ≤ off + 1056 → y.txMsg = m / 2 ^ 5140 ∧ y.txCw.1 = m % 2 ^ 5140 ∧
       y.txCrcs = (if off + 1056 = 5140 then [] else [crc32 y.tx.bytes]) ∧
       (x.cfgNow.testBit 1 = true →
         y.txCw.2 = crcField (if off + 1056 = 5140 then x.txCrcs ++ [crc32 y.tx.bytes] else x.txCrcs)) ∧
       (x.cfgNow.testBit 1 = false → y.txCw.2 = Config.rs544 (m % 2 ^ 5140))))

/-- A lane is lost: its next state, the cause and the purged counts are latched, the loss is counted, the lane alert is set,
and the lane's site, if it is not quarantined yet, is quarantined, its other UP lanes going IDLE_HELD (R319, R320). -/
def Loses (s : State) (c : Instr) (l due cause dest : Nat) : Prop :=
  ∃ t, exec c s = .next t ∧ t.time = max s.time due ∧ (t.lane l).state = dest ∧ (t.lane l).cause = cause ∧
    Rises (s.lane l).lp (t.lane l).lp 0x0D 1 ∧
    (t.lane l).purgeStim = min 0xFFFF (s.stimStaged l) ∧
    (t.lane l).purgeCtrl = min 0xFF ((s.lane l).unacked.length + (s.lane l).ctrlQ.length) ∧ (t.lane l).unacked = [] ∧
    (t.lane l).ctrlQ = [] ∧ t.host.laneAlert.testBit l = true ∧ t.host.alert.testBit 1 = true ∧
    ∀ k, s.siteOfLane l = some k → (s.site k).quar = false →
      (t.site k).quar = true ∧ (∀ j ∈ (s.site k).laneList, j ≠ l → (s.lane j).state = 5 → (t.lane j).state = 4)

/-! ### Memories (chapter 10) -/

/-- A memory's response is on its way to a PE (R334, R341). -/
abbrev Replies (t : State) (pe slot v : Nat) (poison : Bool) (fault : Nat) : Prop :=
  ∃ p ∈ t.net.transit, p.net = 2 ∧ p.dst = .pe pe ∧ p.body = .rsp slot v poison fault

/-! ### Stewards (chapter 11) -/

/-- A steward's running task stands at an instruction word in loaded code (R372). -/
abbrev State.runs (s : State) (st w : Nat) : Prop := s.stAlive st = true ∧ (s.core st).fetch = some w

/-- An instruction gives a value to rd, g0 excepted, and the next instruction follows; nothing else changes (R370). -/
def Puts (s : State) (c : Instr) (st w v : Nat) : Prop :=
  exec c s = .next (s.updCore st fun k => { k with g := putG k.g (sRd w) v, pc := (k.pc + 4) % 2 ^ 32 })

/-- An instruction only moves the PC. -/
def Jumps (s : State) (c : Instr) (st pc : Nat) : Prop := exec c s = .next (s.updCore st fun k => { k with pc := pc })

/-- An instruction takes an exception (R382). -/
def Enters (s : State) (c : Instr) (st cause info : Nat) : Prop := exec c s = .next ((s.enter st cause info).keep s)

/-- The operands of a word as 32-bit words. -/
def State.xa (s : State) (st w : Nat) : BitVec 32 := BitVec.ofNat 32 ((s.core st).reg (sRa w))
def State.xb (s : State) (st w : Nat) : BitVec 32 := BitVec.ofNat 32 ((s.core st).reg (sRb w))
def State.xd (s : State) (st w : Nat) : BitVec 32 := BitVec.ofNat 32 ((s.core st).reg (sRd w))

/-- The target of an offset in words of n bits from the PC (R378). -/
def State.target (s : State) (st n w : Nat) : Nat :=
  (((s.core st).pc + 4 * (BitVec.ofNat n w).toInt) % 2 ^ 32 : Int).toNat

/-- A service call returns to the instruction after it with a status in g1 (R395). -/
abbrev SvcReturns (s t : State) (st status : Nat) : Prop :=
  (t.core st).pc = (s.frameWord st 0 + 4) % 2 ^ 32 ∧ (t.core st).reg 1 = status ∧
    (t.core st).psw = s.frameWord st 1 % 2 ^ 7

/-! ### Pairs (chapter 13) -/

/-- The package has become DETACHED with a cause: it holds no job, nothing runs on the journal, alert bit 7 is set (R433,
R448). -/
abbrev Detached (s t : State) (cause : Nat) : Prop :=
  t.pair.state = 3 ∧ t.pair.detach = cause ∧ t.pair.detachCnt = min 0xFFFFFFFF (s.pair.detachCnt + 1) ∧
    t.pair.running = false ∧ t.cm.jobs = [] ∧ t.cm.queue = [] ∧ t.host.alert.testBit 7 = true

/-! ### The memories -/

/-- Every byte memory is in its canonical form. -/
abbrev State.memsWf (s : State) : Prop :=
  s.ddr.wf 0 = true ∧ s.shelf.wf 0 = true ∧ s.host.mem.wf 0 = true ∧ s.boot.cs0.wf 0xFF = true ∧ s.boot.cs1.wf 0xFF = true

/-! ### What a command may change -/

/-- The parts of the state: `host` leaves out host memory and `boot` the flash contents, which stand apart. -/
inductive Part where
  | pes | cab | trace | tally | cm | net | sites | lanes | cus | lgs | cohorts | cohIdx | readers | maps | outlets | ddrs
  | ddr | ddrPoison | ddrUpset | shelf | shelfBad | shelfQ | shelfAtomics | istr | shares | pegs | st | mbs | host
  | hostMem | i3c | arb | pair | pwr | sn | boot | flash | sec | rcd | led | pat | regs | fc
  deriving DecidableEq, Repr

/-- A part is the same in two states. -/
def State.same (s t : State) : Part → Prop
  | .pes => t.pes = s.pes
  | .cab => t.cab = s.cab
  | .trace => t.trace = s.trace
  | .tally => t.tally = s.tally
  | .cm => t.cm = s.cm
  | .net => t.net = s.net
  | .sites => t.sites = s.sites
  | .lanes => t.lanes = s.lanes
  | .cus => t.cus = s.cus
  | .lgs => t.lgs = s.lgs
  | .cohorts => t.cohorts = s.cohorts
  | .cohIdx => t.cohIdx = s.cohIdx
  | .readers => t.readers = s.readers
  | .maps => t.maps = s.maps
  | .outlets => t.outlets = s.outlets
  | .ddrs => t.ddrs = s.ddrs
  | .ddr => t.ddr = s.ddr
  | .ddrPoison => t.ddrPoison = s.ddrPoison
  | .ddrUpset => t.ddrUpset = s.ddrUpset
  | .shelf => t.shelf = s.shelf
  | .shelfBad => t.shelfBad = s.shelfBad
  | .shelfQ => t.shelfQ = s.shelfQ
  | .shelfAtomics => t.shelfAtomics = s.shelfAtomics
  | .istr => t.istr = s.istr
  | .shares => t.shareWritten = s.shareWritten ∧ t.budgetRefused = s.budgetRefused
  | .pegs => t.pegs = s.pegs
  | .st => t.st = s.st
  | .mbs => t.mbs = s.mbs
  | .host => { t.host with mem := [] } = { s.host with mem := [] }
  | .hostMem => t.host.mem = s.host.mem
  | .i3c => t.i3c = s.i3c
  | .arb => t.arb = s.arb
  | .pair => t.pair = s.pair
  | .pwr => t.pwr = s.pwr
  | .sn => t.sn = s.sn
  | .boot => { t.boot with cs0 := [], cs1 := [] } = { s.boot with cs0 := [], cs1 := [] }
  | .flash => t.boot.cs0 = s.boot.cs0 ∧ t.boot.cs1 = s.boot.cs1
  | .sec => t.sec = s.sec
  | .rcd => t.rcd = s.rcd
  | .led => t.led = s.led
  | .pat => t.pat = s.pat
  | .regs => t.regs = s.regs
  | .fc => t.fc = s.fc

end Sys2Proof.Machine

namespace Sys2Proof
open Sys2Proof.Machine

/-- The parts that a command of chapters 02 to 10 may change; none for a command whose effects reach further. -/
def Instr.flowParts : Instr → Option (List Part)
  | .tokenEnqueue .. =>
    some [.pes, .trace, .cm, .host, .i3c, .rcd, .fc]
  | .matchDecision .. | .killSweepEnd .. =>
    some [.pes, .cab, .trace, .cm, .net, .ddrs, .ddr, .ddrPoison, .ddrUpset, .st, .host, .i3c, .pair, .rcd, .led, .pat, .fc]
  | .cabinetLookupReturn .. =>
    some [.pes, .cab, .trace, .cm, .net, .ddrs, .ddr, .ddrPoison, .ddrUpset, .st, .host, .i3c, .pair, .pwr, .rcd, .led, .fc]
  | .spillAck .. =>
    some [.pes, .cab, .trace, .net, .ddrs, .ddr, .ddrPoison, .ddrUpset, .st, .host, .i3c, .pair, .pwr, .rcd, .fc]
  | .cabinetSweepBucket .. =>
    some [.pes, .cab, .trace, .cm, .net, .ddrs, .ddr, .ddrPoison, .ddrUpset, .st, .host, .i3c, .pair, .rcd, .led, .fc]
  | .capacityAbort .. =>
    some [.cab, .cm, .pair, .rcd, .led]
  | .overflowRefill .. =>
    some [.pes, .cab, .trace, .net, .ddrs, .ddr, .ddrPoison, .ddrUpset, .st, .host, .i3c, .pair, .rcd, .fc]
  | .fkRelease .. =>
    some [.pes]
  | .firingIssue .. =>
    some [.pes, .trace, .host, .i3c, .fc]
  | .add .. | .sub .. | .and .. | .or .. | .xor .. | .andn .. | .shl .. | .shr .. | .sar .. | .rotl .. | .min .. | .max ..
  | .minu .. | .maxu .. | .mul .. | .mulhu .. | .mulhs .. | .divu .. | .divs .. | .remu .. | .rems .. | .ceq .. | .cne ..
  | .clt .. | .cle .. | .cltu .. | .cleu .. | .btst .. | .switch .. | .merge .. | .gate .. | .fan .. | .setflow ..
  | .gettag .. | .popc .. | .ffs .. | .bitscatter .. | .bitgather .. | .hsum .. | .hmaxu .. | .hminu .. | .hnz ..
  | .vaddsu .. | .reservedOpcodeTrap .. =>
    some [.pes, .net]
  | .rdtime .. =>
    some [.pes, .net, .pair]
  | .nextiter .. | .setiter .. | .newctx .. | .sendTag .. | .returnLink .. | .freectx .. | .iload .. | .istore ..
  | .resetElem .. | .ldMem .. | .stMem .. | .swapMem .. | .casMem .. | .faddMem .. | .farOr .. | .fmaxuMem ..
  | .burstSite .. | .haltSite .. | .branchSite .. | .sitectl .. | .appendRec .. | .commitRec .. | .unscramble ..
  | .tally .. =>
    some [.pes, .trace, .cm, .net, .host, .i3c, .rcd, .fc]
  | .istructRequest .. =>
    some [.pes, .net, .ddrs, .ddr, .ddrPoison, .ddrUpset, .istr, .st, .host, .i3c, .rcd, .led, .fc]
  | .atomicService .. =>
    some [.net, .ddrs, .ddr, .ddrPoison, .ddrUpset, .shelf, .shelfBad, .shelfAtomics, .pegs, .st, .host, .i3c, .pair, .rcd, .led, .pat, .regs, .fc]
  | .atomicAging .. =>
    some [.ddrs, .shelfAtomics, .pair]
  | .cohortCopy .. =>
    some [.net]
  | .laneBurst .. | .laneHalt .. =>
    some [.cm, .sites, .lanes, .lgs, .readers, .arb, .pair, .rcd, .fc]
  | .laneBranch .. | .pause .. | .resume .. | .rearm .. | .reflexOn .. | .reflexOff .. | .release .. | .vectorStage ..
  | .reflexStop .. =>
    some [.sites, .lanes, .lgs, .readers, .pair, .rcd, .fc]
  | .completionNotice .. =>
    some [.net, .lgs, .pair]
  | .outletAppendAccept .. | .poisonMark .. =>
    some [.net, .outlets]
  | .outletCommitAccept .. =>
    some [.net, .outlets, .pair]
  | .tallySetup .. | .tallyAdd .. | .tallyQryRow .. | .tallyQryCol .. | .tallyScan .. | .tallyClear .. =>
    some [.tally, .net]
  | .trapReturnArrival .. | .memoryResponse .. | .contextReply .. | .outletAnswer .. =>
    some [.pes, .trace, .cm, .net, .host, .i3c, .pair, .rcd, .fc]
  | .contextGrant .. =>
    some [.cm, .net, .ddrs, .ddr, .ddrPoison, .ddrUpset, .st, .host, .i3c, .pair, .rcd, .led, .fc]
  | .contextTableMissFill .. =>
    some [.cm, .net, .ddrs, .ddr, .ddrPoison, .ddrUpset, .st, .host, .i3c, .rcd, .led, .fc]
  | .unloadBlock .. | .jobAbortByJob .. | .jobAbortByCookie .. =>
    some [.cm, .mbs, .host, .i3c, .pair, .pwr]
  | .siteMapImage .. =>
    some [.sites, .lanes, .cus, .maps, .outlets, .ddrs, .ddrPoison, .ddrUpset, .st, .mbs, .host, .i3c, .pair, .pwr, .rcd, .led, .fc]
  | .siteMapCohort .. =>
    some [.cohorts, .mbs, .host, .i3c, .pair, .pwr]
  | .siteRejoin .. =>
    some [.sites, .lanes, .cus, .mbs, .host, .i3c, .arb, .pair, .pwr, .rcd]
  | .siteRetire .. =>
    some [.sites, .lanes, .cus, .lgs, .readers, .outlets, .mbs, .host, .i3c, .arb, .pair, .pwr, .rcd, .fc]
  | .jobSubmit .. =>
    some [.cm, .ddrs, .ddrPoison, .ddrUpset, .st, .mbs, .host, .i3c, .pair, .pwr, .rcd, .led, .fc]
  | .doorbellSubmit .. =>
    some [.cm, .net, .host, .i3c, .pair, .pwr, .fc]
  | .descriptorFetchDone .. =>
    some [.cm, .ddrs, .ddrPoison, .ddrUpset, .st, .host, .i3c, .pwr, .rcd, .led, .fc]
  | .jobAdmission .. =>
    some [.cm, .net, .sites, .lanes, .cus, .outlets, .ddrs, .ddr, .ddrPoison, .ddrUpset, .st, .host, .i3c, .pair, .rcd, .led, .fc]
  | .runLimitExpiry .. =>
    some [.cm, .pair]
  | .killNotice .. =>
    some [.pes, .cm, .net, .lgs, .ddrs, .ddr, .ddrPoison, .ddrUpset, .istr]
  | .killAck .. =>
    some [.cm, .net, .ddrs, .ddr, .ddrPoison, .ddrUpset, .pegs, .st, .host, .i3c, .pair, .rcd, .led, .regs, .fc]
  | .completionPost .. =>
    some [.cm, .net, .sites, .cus, .outlets, .ddrs, .ddr, .ddrPoison, .ddrUpset, .host, .hostMem, .pair, .pwr, .fc]
  | .fenceToken .. =>
    some [.pes, .cm, .lgs]
  | .fenceBatchStart .. =>
    some [.cm]
  | .contextFreed .. =>
    some [.cm, .net, .ddrs, .ddr, .ddrPoison, .ddrUpset, .st, .host, .i3c, .sec, .rcd, .led, .fc]
  | .pegAcquire .. =>
    some [.net, .pegs, .st, .pair, .pwr, .regs]
  | .pegRelease .. =>
    some [.cm, .net, .pegs, .st, .pair, .pwr, .regs, .fc]
  | .tokenInject .. =>
    some [.net, .st]
  | .ctlMessageQueue .. | .ctlFifoPopRead .. =>
    some [.net, .lanes, .lgs, .pwr]
  | .veIndAccess .. =>
    some [.net, .lanes, .pwr, .regs]
  | .latchingRead .. =>
    some [.net, .lanes, .cus, .lgs, .st, .host, .i3c, .pair, .pwr, .rcd, .regs]
  | .msCntClr .. | .schedCntClr .. =>
    some [.pes, .net, .pwr]
  | .veCntClr .. | .lpCntClr .. =>
    some [.net, .lanes, .pwr]
  | .cuCntClr .. =>
    some [.net, .cus, .pwr]
  | .cuFloodClr .. =>
    some [.net, .sites, .pwr]
  | .floodClr .. =>
    some [.cm, .sites, .pair]
  | .traceArm .. =>
    some [.pes, .trace, .net, .ddrs, .ddr, .ddrPoison, .ddrUpset, .host, .i3c, .fc]
  | .traceTriggerNow .. | .traceCollectorWrite .. | .trigRisingEdge .. =>
    some [.trace, .net, .ddrs, .ddr, .ddrPoison, .ddrUpset, .host, .i3c, .fc]
  | .traceStop .. =>
    some [.trace, .ddr, .ddrPoison, .ddrUpset, .host, .i3c, .fc]
  | .outRdWrite .. =>
    some [.cm, .net, .outlets, .pair, .pwr, .fc]
  | .jqCrHeadWrite .. =>
    some [.cm, .net, .pair, .pwr]
  | .completionRingEnable .. =>
    some [.cm, .net, .pwr, .regs]
  | .cabCfgWrite .. =>
    some [.cab, .net, .pwr, .regs]
  | .ddrShareWrite .. =>
    some [.shares, .regs, .fc]
  | .cacheInvalidation .. =>
    some [.net, .ddrs, .st]
  | .fretWrite .. =>
    some [.sites, .lanes, .cus, .lgs, .readers, .outlets, .ddrs, .ddrPoison, .ddrUpset, .st, .host, .i3c, .pair, .rcd, .led, .pat, .fc]
  | .playbackRecordFetch .. =>
    some [.readers, .ddrs, .ddrPoison, .ddrUpset, .st, .host, .i3c, .rcd, .led, .fc]
  | .flitSlotStart .. =>
    some [.sites, .lanes, .lgs, .fc]
  | .fretDeadline .. =>
    some [.sites, .cus, .outlets, .host, .i3c, .pair, .rcd, .led, .pat, .fc]
  | .failTokenInject .. =>
    some [.net, .cus, .lgs, .pair, .fc]
  | .summaryIntervalEnd .. | .heldRecordWrite .. =>
    some [.cus, .outlets, .pair, .fc]
  | .haltRptReceived .. =>
    some [.sites, .lanes, .cus, .lgs, .readers, .outlets, .host, .i3c, .pair, .rcd, .led, .pat, .fc]
  | .linkStatusReceived .. =>
    some [.lanes, .lgs, .mbs, .host, .i3c]
  | .creditRefreshDue .. | .helloResend .. =>
    some [.lanes, .pair]
  | .measReceived .. =>
    some [.lanes, .lgs]
  | .signalDetected .. =>
    some [.lanes, .pwr]
  | .trainingPhaseTimeout .. =>
    some [.lanes, .pair, .led, .fc]
  | .eqComplete .. =>
    some [.lanes]
  | .helloReceived .. =>
    some [.lanes, .led, .fc]
  | .outletBankSwap .. =>
    some [.outlets]
  | .outletRecordDrain .. =>
    some [.net, .outlets, .ddrs, .ddr, .ddrPoison, .ddrUpset, .host, .hostMem, .i3c, .rcd, .fc]
  | .outletReset .. =>
    some [.outlets, .host, .i3c, .rcd, .fc]
  | .noticeBroadcast .. =>
    some [.cm, .net, .pwr]
  | .ddrScheduleWindow .. =>
    some [.ddrs, .ddrUpset, .pair]
  | .ddrRequestServed .. =>
    some [.net, .ddrs, .ddr, .ddrPoison, .ddrUpset, .st, .host, .i3c, .rcd, .led, .fc]
  | .refreshDerate .. =>
    some [.ddrs, .host, .i3c, .rcd, .fc]
  | .patrolScrub .. =>
    some [.ddrs, .ddrPoison, .ddrUpset, .st, .host, .i3c, .pair, .rcd, .led, .fc]
  | .shelfAccess .. =>
    some [.net, .shelf, .shelfBad, .shelfQ, .pegs, .st, .pair, .rcd, .led, .pat, .regs, .fc]
  | _ => none

/-- The parts that a command of chapters 11 to 16 may change; none for a command whose effects reach further. -/
def Instr.controlParts : Instr → Option (List Part)
  | .loadBlock .. =>
    some [.cm, .ddrs, .ddrPoison, .ddrUpset, .st, .mbs, .host, .i3c, .pair, .pwr, .rcd, .led, .fc]
  | .laneSend .. =>
    some [.lanes, .mbs, .host, .i3c, .pair, .pwr]
  | .laneRecv .. =>
    some [.lanes, .lgs, .mbs, .host, .i3c, .pair, .pwr]
  | .outletConfigOutlet .. | .outletConfigCompare .. =>
    some [.mbs, .host, .i3c, .pair, .pwr, .regs]
  | .pairStatus .. | .pairReseat .. | .ledgerRead .. | .eventsRead .. | .sentinelRulesRead .. | .getInfo .. | .getCaps .. =>
    some [.mbs, .host, .i3c, .pair, .pwr]
  | .fwStage .. | .flashProgram .. =>
    some [.ddrs, .ddrPoison, .ddrUpset, .st, .mbs, .host, .i3c, .pair, .pwr, .boot, .rcd, .led, .fc]
  | .fwActivate .. =>
    some [.st, .mbs, .host, .i3c, .pair, .pwr, .boot, .rcd]
  | .fwConfirm .. | .flashErase .. | .flashRead .. =>
    some [.mbs, .host, .i3c, .pair, .pwr, .boot]
  | .fwRevert .. =>
    some [.st, .mbs, .host, .i3c, .pair, .pwr, .boot]
  | .tamperClearChallenge .. | .keyLoad .. =>
    some [.mbs, .host, .i3c, .pair, .pwr, .sec]
  | .tamperClearAnswer .. =>
    some [.mbs, .host, .i3c, .pair, .pwr, .boot, .sec]
  | .extLoad .. =>
    some [.ddrs, .ddrPoison, .ddrUpset, .st, .mbs, .host, .i3c, .pair, .pwr, .rcd, .led, .fc]
  | .extUnload .. =>
    some [.net, .pegs, .st, .mbs, .host, .i3c, .pair, .pwr, .rcd, .regs, .fc]
  | .powerPolicyDomain .. =>
    some [.lanes, .mbs, .host, .i3c, .arb, .pair, .pwr]
  | .powerPolicyInsertions .. =>
    some [.mbs, .host, .i3c, .pair, .pwr, .boot, .regs]
  | .powerPolicyThrottle .. | .sentinelRulesDisable .. =>
    some [.mbs, .host, .i3c, .arb, .pair, .pwr]
  | .sentinelRulesWrite .. =>
    some [.mbs, .host, .i3c, .arb, .pair, .pwr, .sn]
  | .snRuleCopy .. =>
    some [.regs]
  | .traceConfig .. =>
    some [.pes, .trace, .net, .ddrs, .ddr, .ddrPoison, .ddrUpset, .mbs, .host, .i3c, .pair, .pwr, .regs, .fc]
  | .flashUnitStep .. =>
    some [.st, .mbs, .host, .i3c, .boot, .flash]
  | .msixPendingSend .. =>
    some [.host]
  | .pf0Reset .. =>
    some [.cm, .net, .pegs, .st, .mbs, .host, .pair, .rcd, .regs, .fc]
  | .pf1Reset .. =>
    some [.st, .host, .regs]
  | .pf1ModerationTimer .. =>
    some [.outlets, .host, .pair]
  | .bar2Write .. =>
    some [.cm, .net, .ddr, .ddrPoison, .ddrUpset, .host, .pwr]
  | .entdaa .. | .rstdaa .. | .enec .. | .disec .. | .getpid .. | .getbcr .. | .getdcr .. | .getstatus .. | .getmwl ..
  | .getmrl .. | .inBandInterrupt .. =>
    some [.i3c]
  | .rstact .. =>
    some [.net, .pegs, .st, .mbs, .i3c, .pair, .rcd, .regs, .fc]
  | .i3cPrivateWrite .. =>
    some [.net, .pegs, .st, .mbs, .host, .i3c, .pair, .pwr, .regs, .fc]
  | .i3cPrivateRead .. =>
    some [.net, .pegs, .st, .i3c, .pair, .pwr, .regs]
  | .pegAcquireWait .. =>
    some [.net, .pegs, .st, .pair, .regs]
  | .partnerPegAcquire .. | .partnerPegRead .. | .partnerPegRelease .. =>
    some [.net, .pair, .pwr]
  | .partnerPegResult .. | .heartbeatSend .. | .suspicion .. | .primClaimInChange .. | .reseatCopyDone ..
  | .standbyFirmwareRunning .. =>
    some [.pair]
  | .evrGo .. | .evrRdIdxWrite .. | .evrRdDataRead .. =>
    some [.rcd]
  | .dcCfgEnable .. =>
    some [.net, .ddrs, .pwr, .regs]
  | .pwrAvsWrite .. =>
    some [.pwr]
  | .tmpCfgWrite .. =>
    some [.sec]
  | .snKillHoldWrite .. =>
    some [.sn]
  | .scCtlInvalidate .. | .dspFlagsClr .. | .dspStart .. | .dspFree .. | .dspCtlWrite .. | .preemption .. =>
    some [.st]
  | .dspFlagsSet .. | .dspXsig .. | .storeResponse .. =>
    some [.st, .fc]
  | .dspStop .. =>
    some [.net, .pegs, .st, .pair, .fc]
  | .stAdd .. | .stSub .. | .stAnd .. | .stOr .. | .stXor .. | .stAndn .. | .stShl .. | .stShr .. | .stSar .. | .stRotl ..
  | .slt .. | .sltu .. | .stMul .. | .stMulhu .. | .stMulhs .. | .stDivu .. | .stRemu .. | .stDivs .. | .stRems ..
  | .addi .. | .slti .. | .sltiu .. | .andi .. | .ori .. | .xori .. | .shiShl .. | .shiShr .. | .shiSar .. | .shiRotl ..
  | .lui .. | .beq .. | .bne .. | .blt .. | .bge .. | .bltu .. | .bgeu .. | .jump .. | .call .. | .jr .. | .callr ..
  | .ret .. | .syscall .. | .breakpoint .. | .fence .. | .waitany .. | .waitall .. | .yield .. | .mfpsw .. | .mtpsw ..
  | .irdw .. | .iwrw .. | .rspush .. | .rspop .. | .rsdepth .. | .cinv .. | .stHalt .. =>
    some [.net, .ddrs, .ddr, .ddrPoison, .ddrUpset, .shelfQ, .pegs, .st, .host, .i3c, .pair, .rcd, .led, .regs, .fc]
  | .lb .. | .lbu .. | .lh .. | .lhu .. | .lw .. | .sb .. | .sh .. | .sw .. | .rete .. =>
    some [.net, .ddrs, .ddr, .ddrPoison, .ddrUpset, .shelfQ, .pegs, .st, .host, .i3c, .pair, .pwr, .rcd, .led, .regs, .fc]
  | .inPort .. =>
    some [.net, .lanes, .cus, .lgs, .ddrs, .ddr, .ddrPoison, .ddrUpset, .shelfQ, .pegs, .st, .host, .i3c, .pair, .pwr, .rcd, .led, .regs, .fc]
  | .atomSwap .. | .atomCas .. | .atomFadd .. | .atomFor .. | .atomFmaxu .. =>
    some [.net, .ddrs, .ddr, .ddrPoison, .ddrUpset, .shelf, .shelfBad, .shelfQ, .pegs, .st, .host, .i3c, .pair, .pwr, .rcd, .led, .regs, .fc]
  | .stewardAdoption .. =>
    some [.cm, .net, .lanes, .pegs, .st, .mbs, .host, .i3c, .arb, .pair, .pwr, .boot, .rcd, .regs, .fc]
  | .stewardClusterRestart .. =>
    some [.cm, .net, .lanes, .pegs, .st, .mbs, .host, .i3c, .arb, .pair, .pwr, .boot, .rcd, .led, .regs, .fc]
  | .exit .. | .event .. | .taskStart .. | .info .. =>
    some [.ddrs, .ddrPoison, .ddrUpset, .st, .host, .i3c, .rcd, .led, .fc]
  | .trapNext .. =>
    some [.ddrs, .ddr, .ddrPoison, .ddrUpset, .shelfQ, .st, .host, .i3c, .rcd, .led, .fc]
  | .trapReturn .. =>
    some [.net, .ddrs, .ddrPoison, .ddrUpset, .st, .host, .i3c, .rcd, .led, .fc]
  | .eventRouted .. =>
    some [.net, .st, .fc]
  | .waitTimeout .. =>
    some [.st, .pair]
  | .dspTimerExpiry .. =>
    some [.st, .pair, .pwr]
  | .domainIdleHoldoff .. | .policyApply .. =>
    some [.lanes, .pair, .pwr]
  | .fabricSleepStep .. =>
    some [.lanes, .pwr, .rcd]
  | .quadTraceFlush .. =>
    some [.trace, .net, .ddrs, .ddr, .ddrPoison, .ddrUpset, .host, .i3c, .pwr, .fc]
  | .railGood .. | .resetRelease .. | .frefReturn .. =>
    some [.lanes, .pwr, .boot]
  | .dpfAssert .. =>
    some [.sn, .rcd, .led]
  | .dpfReleaseTimer .. =>
    some [.pair, .sn]
  | .confirmationTimeout .. =>
    some [.st, .pair, .boot]
  | .tamperAlarm .. =>
    some [.cm, .sites, .lanes, .lgs, .readers, .st, .mbs, .host, .i3c, .pair, .boot, .sec, .rcd, .led, .fc]
  | .entropyFailure .. =>
    some [.sec, .rcd]
  | .pwrWarn .. =>
    some [.boot, .led]
  | .ledgerSnapshot .. =>
    some [.pair, .boot, .led]
  | .eventRecordIntake .. =>
    some [.host, .i3c, .pair, .rcd, .fc]
  | .recordChangeApply .. | .bridgeLaneLoss .. =>
    some [.pair, .rcd]
  | .epochBoundary .. =>
    some [.net, .host, .i3c, .pair, .fc]
  | .epochAck .. =>
    some [.st, .mbs, .host, .i3c, .pair]
  | .takeover .. =>
    some [.cm, .lanes, .host, .i3c, .pair, .rcd, .led, .fc]
  | .formationTimeout .. =>
    some [.lanes, .host, .i3c, .pair, .rcd, .fc]
  | .seatMessage .. =>
    some [.arb]
  | .mirrorWrite .. =>
    some [.net, .ddrs, .ddr, .ddrPoison, .ddrUpset]
  | .seam .. =>
    some [.cm, .sites, .lanes, .cus, .cohorts, .maps, .outlets, .host, .i3c, .pair, .pwr, .regs, .fc]
  | .reseatFailure .. =>
    some [.host, .i3c, .pair, .fc]
  | .unprotectedJobEnd .. =>
    some [.cm, .sites, .cus, .outlets, .host, .i3c, .pair, .pwr, .fc]
  | .bridgeLossAtActive .. =>
    some [.net, .pegs, .st, .mbs, .host, .i3c, .pair, .rcd, .regs, .fc]
  | .mbGoUndefinedId .. =>
    some [.mbs, .host, .i3c, .pwr]
  | _ => none

/-- The memories that a command may write. -/
def Instr.stores : Instr → List Part
  | .matchDecision .. | .cabinetLookupReturn .. | .spillAck .. | .cabinetSweepBucket .. | .overflowRefill ..
  | .istructRequest .. | .arbiterWindowClose .. | .contextGrant .. | .contextTableMissFill .. | .doorbellHeldRelease ..
  | .jobAdmission .. | .contextKill .. | .killNotice .. | .killAck .. | .contextFreed .. | .pairSwap .. | .traceConfig ..
  | .bar2Write .. | .laneRetrain .. | .laneForceDown .. | .traceArm .. | .traceTriggerNow .. | .traceStop ..
  | .traceCollectorWrite .. | .registerWrite .. | .stAdd .. | .stSub .. | .stAnd .. | .stOr .. | .stXor .. | .stAndn ..
  | .stShl .. | .stShr .. | .stSar .. | .stRotl .. | .slt .. | .sltu .. | .stMul .. | .stMulhu .. | .stMulhs ..
  | .stDivu .. | .stRemu .. | .stDivs .. | .stRems .. | .addi .. | .slti .. | .sltiu .. | .andi .. | .ori .. | .xori ..
  | .shiShl .. | .shiShr .. | .shiSar .. | .shiRotl .. | .lui .. | .lb .. | .lbu .. | .lh .. | .lhu .. | .lw .. | .sb ..
  | .sh .. | .sw .. | .beq .. | .bne .. | .blt .. | .bge .. | .bltu .. | .bgeu .. | .jump .. | .call .. | .jr ..
  | .callr .. | .ret .. | .inPort .. | .outPort .. | .syscall .. | .breakpoint .. | .rete .. | .fence .. | .waitany ..
  | .waitall .. | .yield .. | .mfpsw .. | .mtpsw .. | .irdw .. | .iwrw .. | .rspush .. | .rspop .. | .rsdepth .. | .cinv ..
  | .stHalt .. | .trapNext .. | .captReceived .. | .haltReportTimeout .. | .ctrlReceived .. | .ctrlRetransmit ..
  | .trainReceived .. | .noIntactFlitTimeout .. | .stimCreditTimeout .. | .signalLost .. | .packetForward ..
  | .domainTransitionDone .. | .fabricWake .. | .quadTraceFlush .. | .aoTick .. | .lrefLoss .. | .bootStep ..
  | .patrolUnit .. | .peFailure .. | .spareInService .. | .ddrRequestServed .. | .journalRecordReceived ..
  | .heartbeatReceived .. | .confirmationExpiry .. | .dualClaimCheck .. | .bridgeTrained .. | .mirrorWrite ..
  | .trigRisingEdge .. | .uncorrectableCodeword .. | .killSweepEnd .. =>
    [.ddr, .ddrPoison, .ddrUpset]
  | .atomicService .. | .atomSwap .. | .atomCas .. | .atomFadd .. | .atomFor .. | .atomFmaxu .. | .railBad ..
  | .frefLoss .. | .sentinelSample .. | .resetAssert .. =>
    [.ddr, .ddrPoison, .ddrUpset, .shelf, .shelfBad]
  | .loadBlock .. | .siteMapImage .. | .jobSubmit .. | .descriptorFetchDone .. | .fwStage .. | .extLoad ..
  | .flashProgram .. | .exit .. | .event .. | .taskStart .. | .info .. | .trapReturn .. | .fretWrite ..
  | .playbackRecordFetch .. | .patrolScrub .. =>
    [.ddrPoison, .ddrUpset]
  | .completionPost .. | .outletRecordDrain .. =>
    [.ddr, .ddrPoison, .ddrUpset, .hostMem]
  | .flashUnitStep .. =>
    [.flash]
  | .ddrScheduleWindow .. =>
    [.ddrUpset]
  | .shelfAccess .. =>
    [.shelf, .shelfBad]
  | _ => []

end Sys2Proof
end

