-- ==== Sys2Proof/Certificates/Slice0/Obligations.lean ====
section
/-! DEFINITION. The statements for the provers. -/

open Sys2Proof Sys2Proof.Machine

/-! ### Actor opcodes (chapter 05) -/

/-- R148, R150, R151: each integer opcode that a fire half (an iterative unit for the divisions) holds leaves it and sends
its result, with the firing's CTX and ITER, to both destinations; nothing else changes. -/
def Obligations.IntegerOpcodeResults : Prop :=
  ∀ (s : State) (pe pipe : Nat) (f : Firing),
    (s.holds pe pipe 0x01 f → Gives s (.add pe pipe) pe pipe pipe f (f.xa + f.xb).toNat) ∧
    (s.holds pe pipe 0x02 f → Gives s (.sub pe pipe) pe pipe pipe f (f.xa - f.xb).toNat) ∧
    (s.holds pe pipe 0x03 f → Gives s (.and pe pipe) pe pipe pipe f (f.xa &&& f.xb).toNat) ∧
    (s.holds pe pipe 0x04 f → Gives s (.or pe pipe) pe pipe pipe f (f.xa ||| f.xb).toNat) ∧
    (s.holds pe pipe 0x05 f → Gives s (.xor pe pipe) pe pipe pipe f (f.xa ^^^ f.xb).toNat) ∧
    (s.holds pe pipe 0x06 f → Gives s (.andn pe pipe) pe pipe pipe f (f.xa &&& ~~~f.xb).toNat) ∧
    (s.holds pe pipe 0x07 f → Gives s (.shl pe pipe) pe pipe pipe f (f.xa <<< (f.vb % 64)).toNat) ∧
    (s.holds pe pipe 0x08 f → Gives s (.shr pe pipe) pe pipe pipe f (f.xa >>> (f.vb % 64)).toNat) ∧
    (s.holds pe pipe 0x09 f → Gives s (.sar pe pipe) pe pipe pipe f (f.xa.sshiftRight (f.vb % 64)).toNat) ∧
    (s.holds pe pipe 0x0A f → Gives s (.rotl pe pipe) pe pipe pipe f (f.xa.rotateLeft (f.vb % 64)).toNat) ∧
    (s.holds pe pipe 0x0B f → Gives s (.min pe pipe) pe pipe pipe f (if f.xb.slt f.xa then f.vb else f.va)) ∧
    (s.holds pe pipe 0x0C f → Gives s (.max pe pipe) pe pipe pipe f (if f.xa.slt f.xb then f.vb else f.va)) ∧
    (s.holds pe pipe 0x0D f → Gives s (.minu pe pipe) pe pipe pipe f (Nat.min f.va f.vb)) ∧
    (s.holds pe pipe 0x0E f → Gives s (.maxu pe pipe) pe pipe pipe f (Nat.max f.va f.vb)) ∧
    (s.holds pe pipe 0x10 f → Gives s (.mul pe pipe) pe pipe pipe f (f.xa * f.xb).toNat) ∧
    (s.holds pe pipe 0x11 f → Gives s (.mulhu pe pipe) pe pipe pipe f (f.va * f.vb / 2 ^ 64)) ∧
    (s.holds pe pipe 0x12 f → Gives s (.mulhs pe pipe) pe pipe pipe f
      (BitVec.ofInt 64 (f.xa.toInt * f.xb.toInt / 2 ^ 64)).toNat) ∧
    (s.holds pe (2 + pipe) 0x14 f → Gives s (.divu pe pipe) pe pipe (2 + pipe) f
      (if f.vb = 0 then 0xFFFFFFFFFFFFFFFF else f.va / f.vb)) ∧
    (s.holds pe (2 + pipe) 0x15 f → Gives s (.divs pe pipe) pe pipe (2 + pipe) f
      (if f.vb = 0 then 0xFFFFFFFFFFFFFFFF else (BitVec.ofInt 64 (f.xa.toInt.tdiv f.xb.toInt)).toNat)) ∧
    (s.holds pe (2 + pipe) 0x16 f → Gives s (.remu pe pipe) pe pipe (2 + pipe) f
      (if f.vb = 0 then f.va else f.va % f.vb)) ∧
    (s.holds pe (2 + pipe) 0x17 f → Gives s (.rems pe pipe) pe pipe (2 + pipe) f
      (if f.vb = 0 then f.va else (BitVec.ofInt 64 (f.xa.toInt.tmod f.xb.toInt)).toNat))

/-- R148, R153 to R155: the comparisons give 1 or 0; SWITCH sends a to one destination by bit r mod 64 of c, MERGE gives a or
r, GATE sends a or nothing, FAN gives a, SETFLOW gives a with FLOW b[9:0]; nothing else changes. -/
def Obligations.CompareAndSteerResults : Prop :=
  ∀ (s : State) (pe pipe : Nat) (f : Firing),
    (s.holds pe pipe 0x20 f → Gives s (.ceq pe pipe) pe pipe pipe f (if f.va = f.vb then 1 else 0)) ∧
    (s.holds pe pipe 0x21 f → Gives s (.cne pe pipe) pe pipe pipe f (if f.va = f.vb then 0 else 1)) ∧
    (s.holds pe pipe 0x22 f → Gives s (.clt pe pipe) pe pipe pipe f (if f.xa.toInt < f.xb.toInt then 1 else 0)) ∧
    (s.holds pe pipe 0x23 f → Gives s (.cle pe pipe) pe pipe pipe f (if f.xa.toInt ≤ f.xb.toInt then 1 else 0)) ∧
    (s.holds pe pipe 0x24 f → Gives s (.cltu pe pipe) pe pipe pipe f (if f.va < f.vb then 1 else 0)) ∧
    (s.holds pe pipe 0x25 f → Gives s (.cleu pe pipe) pe pipe pipe f (if f.va ≤ f.vb then 1 else 0)) ∧
    (s.holds pe pipe 0x26 f → Gives s (.btst pe pipe) pe pipe pipe f (f.va / 2 ^ (f.vb % 64) % 2)) ∧
    (s.holds pe pipe 0x28 f → Sends s (.switch pe pipe) pe pipe pipe
      (f.result (if f.vc.testBit (f.vb % 64) then 0 else 1) f.va f.poisoned f.iter f.outFlow)) ∧
    (s.holds pe pipe 0x29 f → Gives s (.merge pe pipe) pe pipe pipe f (if f.vc.testBit 0 then f.va else f.vb)) ∧
    (s.holds pe pipe 0x2A f → Sends s (.gate pe pipe) pe pipe pipe
      (if f.vc.testBit (f.vb % 64) then f.results f.va f.poisoned f.iter f.outFlow else [])) ∧
    (s.holds pe pipe 0x2B f → Gives s (.fan pe pipe) pe pipe pipe f f.va) ∧
    (s.holds pe pipe 0x2C f → Sends s (.setflow pe pipe) pe pipe pipe
      (f.results f.va f.poisoned f.iter (f.vb % 1024)))

/-- R148, R157, R161, R180, R181, R185: NEXTITER and SETITER send a with the new ITER while it lies in 28 bits, and raise
firing fault 0x21 and send nothing when it does not; GETTAG makes a tag; POPC, FFS, BITSCATTER, BITGATHER and the
reductions give their values; UNSCRAMBLE replaces a field through a loaded map; RDTIME gives TIME in the fc of issue. -/
def Obligations.TagAndBitResults : Prop :=
  ∀ (s : State) (pe pipe : Nat) (f : Firing),
    (∀ (c : Instr) (i : Int),
      (c = .nextiter pe pipe ∧ s.holds pe pipe 0x30 f ∧
          i = f.iter + (if wImm16 f.word = 0 then 1 else (BitVec.ofNat 16 (wImm16 f.word)).toInt)) ∨
        (c = .setiter pe pipe ∧ s.holds pe pipe 0x31 f ∧ i = f.vb) →
      (∀ n : Nat, i = n → n ≤ 0xFFFFFFF → Sends s c pe pipe pipe (f.results f.va f.poisoned n f.outFlow)) ∧
      (i < 0 ∨ 0xFFFFFFF < i → s.rcd.intake.length < 64 → ∃ t e, exec c s = .next t ∧ Tbl.find (t.pe pe).fire pipe = none ∧
        t.gone pe pipe = s.gone pe pipe ∧ t.net = s.net ∧ t.rcd.intake = intakeAdd s.rcd.intake e ∧ e.code = 0x8121 ∧ e.cls = 4 ∧
        e.inst = pe ∧ (f.ctx ≠ 0 → s.ctxLive f.ctx = true → (Tbl.find s.cm.jobs (s.ctx f.ctx).job).isSome = true →
          ∃ k, t.cm.killQ = s.cm.killQ ++ [k] ∧ k.job = (s.ctx f.ctx).job ∧ k.end_ = 3 ∧ k.cause = 0x21 ∧ k.fault = [f.ctx]))) ∧
    (s.holds pe pipe 0x36 f → Gives s (.gettag pe pipe) pe pipe pipe f
      (f.ctx * 2 ^ 44 + wMod f.word % 2 ^ 14 * 2 ^ 30 + f.iter * 4 + wMod f.word / 2 ^ 14)) ∧
    (s.holds pe pipe 0x80 f → Gives s (.popc pe pipe) pe pipe pipe f ((List.range 64).countP f.va.testBit)) ∧
    (s.holds pe pipe 0x81 f → f.va = 0 → Gives s (.ffs pe pipe) pe pipe pipe f 64) ∧
    (s.holds pe pipe 0x81 f → f.va ≠ 0 → ∃ v, f.va.testBit v = true ∧
      (∀ j, f.va.testBit j = true → if wMod f.word % 2 = 0 then v ≤ j else j ≤ v) ∧
      Gives s (.ffs pe pipe) pe pipe pipe f v) ∧
    (s.holds pe pipe 0x82 f → Gives s (.bitscatter pe pipe) pe pipe pipe f
      ((((List.range 64).filter f.vb.testBit).mapIdx fun k i => if f.va.testBit k then 2 ^ i else 0).sum)) ∧
    (s.holds pe pipe 0x83 f → Gives s (.bitgather pe pipe) pe pipe pipe f
      ((((List.range 64).filter f.vb.testBit).mapIdx fun k i => if f.va.testBit i then 2 ^ k else 0).sum)) ∧
    (∀ sh tab, s.holds pe pipe 0x84 f → f.vb < 16 → Tbl.find s.maps f.vb = some (sh, tab) →
      Gives s (.unscramble pe pipe) pe pipe pipe f (setBits f.va (sh + 11) sh (Tbl.get 0 tab (f.va / 2 ^ sh % 4096)))) ∧
    (s.holds pe pipe 0x90 f → Gives s (.hsum pe pipe) pe pipe pipe f (f.lanes (wMod f.word)).sum) ∧
    (s.holds pe pipe 0x91 f → ∃ v, v ∈ f.lanes (wMod f.word) ∧ (∀ x ∈ f.lanes (wMod f.word), x ≤ v) ∧
      Gives s (.hmaxu pe pipe) pe pipe pipe f v) ∧
    (s.holds pe pipe 0x92 f → ∃ v, v ∈ f.lanes (wMod f.word) ∧ (∀ x ∈ f.lanes (wMod f.word), v ≤ x) ∧
      Gives s (.hminu pe pipe) pe pipe pipe f v) ∧
    (s.holds pe pipe 0x93 f → Gives s (.hnz pe pipe) pe pipe pipe f
      ((f.lanes (wMod f.word)).mapIdx fun i x => if x = 0 then 0 else 2 ^ i).sum) ∧
    (s.holds pe pipe 0x94 f → Gives s (.vaddsu pe pipe) pe pipe pipe f
      ((List.range (8 / 2 ^ (wMod f.word % 4))).map fun i =>
        let w := 8 * 2 ^ (wMod f.word % 4)
        min (2 ^ w - 1) (f.va / 2 ^ (w * i) % 2 ^ w + f.vb / 2 ^ (w * i) % 2 ^ w) * 2 ^ (w * i)).sum) ∧
    (s.holds pe pipe 0x18 f → s.alone → Gives s (.rdtime pe pipe) pe pipe pipe f f.issued)

/-- R133, R162, R166 to R168, R182, R186: a memory or tally opcode whose operands are not poisoned (ILOAD and LD: whatever
their poison) and whose address lies in its window puts its firing in service in a response slot and sends its request;
nothing else changes. R186: a poisoned ST, ISTORE, RESET, far atomic or TALLY sends no request; each destination receives
a poisoned token with VALUE 0, one event record with code 0x8013 is asked for, and no response slot is held. -/
def Obligations.MemoryOpcodeRequests : Prop :=
  (∀ (s : State) (pe pipe : Nat) (f : Firing) (sh : Bool) (addr : Nat),
     (∀ i, s.holds pe pipe 0x40 f → i = (if wArity f.word = 0 then f.va else (f.xa + f.xb).toNat) →
       i < (s.job f.job).istrElems →
       AsksMem s (.iload pe pipe) pe pipe f .iload false ((s.job f.job).istrBase + 16 * i)) ∧
     (s.holds pe pipe 0x41 f → f.poisoned = false → f.va < (s.job f.job).istrElems →
       AsksMem s (.istore pe pipe) pe pipe f .istore false ((s.job f.job).istrBase + 16 * f.va)) ∧
     (s.holds pe pipe 0x42 f → f.poisoned = false → f.va < (s.job f.job).istrElems →
       AsksMem s (.resetElem pe pipe) pe pipe f .ireset false ((s.job f.job).istrBase + 16 * f.va)) ∧
     (∀ n, s.holds pe pipe 0x50 f → wArity f.word = 0 → n = 8 / 2 ^ (wMod f.word % 4) →
       s.window f f.va n (n == 8) = some (sh, addr) →
       AsksMem s (.ldMem pe pipe) pe pipe f (.ld n (bit (wMod f.word) 2)) sh addr) ∧
     (s.holds pe pipe 0x50 f → wArity f.word = 1 → s.window f (f.xa + f.xb).toNat 8 true = some (sh, addr) →
       AsksMem s (.ldMem pe pipe) pe pipe f (.ld 8 false) sh addr) ∧
     (∀ n, s.holds pe pipe 0x51 f → f.poisoned = false → n = (if wImmSel f.word = 0 then 8 / 2 ^ (wMod f.word % 4) else 8) →
       s.window f f.va n (n == 8 && f.vb == 0) = some (sh, addr) → AsksMem s (.stMem pe pipe) pe pipe f (.st n) sh addr) ∧
     (s.holds pe pipe 0x52 f → f.poisoned = false → s.window f f.va 8 (f.vb == 1) = some (sh, addr) →
       AsksMem s (.swapMem pe pipe) pe pipe f .swap sh addr) ∧
     (s.holds pe pipe 0x53 f → f.poisoned = false → s.window f f.va 8 false = some (sh, addr) →
       AsksMem s (.casMem pe pipe) pe pipe f .cas sh addr) ∧
     (s.holds pe pipe 0x54 f → f.poisoned = false → s.window f f.va 8 false = some (sh, addr) →
       AsksMem s (.faddMem pe pipe) pe pipe f .fadd sh addr) ∧
     (s.holds pe pipe 0x55 f → f.poisoned = false → s.window f f.va 8 false = some (sh, addr) →
       AsksMem s (.farOr pe pipe) pe pipe f .for_ sh addr) ∧
     (s.holds pe pipe 0x56 f → f.poisoned = false → s.window f f.va 8 false = some (sh, addr) →
       AsksMem s (.fmaxuMem pe pipe) pe pipe f .fmaxu sh addr) ∧
     (s.holds pe pipe 0x85 f → f.poisoned = false → f.vb % 4 < s.nTu → f.vb < 2 ^ 12 → f.vb / 4 % 8 < 6 →
       Asks s (.tally pe pipe) pe pipe f (.rsp (s.pe pe).rspSlot) (.tu (f.vb % 4))
         (.tally { pe := pe, slot := (s.pe pe).rspSlot, ctx := f.ctx, a := f.va, op := f.vb / 4 % 8,
                   space := f.vb / 32 % 128 }) (some (f.carry f.ctx f.act f.iter 0)))) ∧
  (∀ (s : State) (pe pipe : Nat) (f : Firing) (c : Instr) (op : Nat),
     (c, op) ∈ [(Instr.istore pe pipe, 0x41), (.resetElem pe pipe, 0x42), (.stMem pe pipe, 0x51), (.swapMem pe pipe, 0x52),
       (.casMem pe pipe, 0x53), (.faddMem pe pipe, 0x54), (.farOr pe pipe, 0x55), (.fmaxuMem pe pipe, 0x56),
       (.tally pe pipe, 0x85)] →
     s.holds pe pipe op f → f.poisoned = true → s.rcd.intake.length < 64 →
     ∃ t, exec c s = .next t ∧ Tbl.find (t.pe pe).fire pipe = none ∧
       (t.gone pe pipe).Perm (s.gone pe pipe ++ f.results 0 true f.iter f.outFlow) ∧ (t.pe pe).svc = (s.pe pe).svc ∧
       (∃ e, t.rcd.intake = intakeAdd s.rcd.intake e ∧ e.code = 0x8013 ∧ e.cls = 4 ∧ e.inst = pe) ∧
       t = { s with pes := t.pes, net := { s.net with transit := t.net.transit }, rcd := { s.rcd with intake := t.rcd.intake },
                    trace := t.trace, host := t.host, i3c := t.i3c, fc := t.fc })

/-- R158 to R160, R169 to R172, R177, R178, R188: the opcodes that ask the context manager, the lane groups, the outlets and
the stewards send their message and (but for lane opcodes) enter service; a lane opcode sends its selector to DST1. The
model's choices in it: log entry 15. -/
def Obligations.OtherOpcodeRequests : Prop :=
  ∀ (s : State) (pe pipe : Nat) (f : Firing),
    (∀ k w, s.holds pe pipe 0x32 f → f.vb < 2 ^ 27 → s.blockOk (f.vb % 1024) = some k →
      k.words[f.vb / 2 ^ 10 % 2 ^ 14]? = some w → f.vb / 2 ^ 24 % 4 ∈ waitSet w →
      Asks s (.newctx pe pipe) pe pipe f (.ctx (s.pe pe).ctxSlot) .cm (.ctx pe (s.pe pe).ctxSlot f.ctx
        (.newctx (f.vb % 1024) (if f.vb.testBit 26 then some (tagOf f.ctx (wDst1 f.word) f.iter + wPort1 f.word) else none)
          (f.carry f.ctx (f.vb / 2 ^ 10 % 2 ^ 14) 0 (f.vb / 2 ^ 24 % 4))))
        (some (f.carry f.ctx (f.vb / 2 ^ 10 % 2 ^ 14) 0 (f.vb / 2 ^ 24 % 4)))) ∧
    (s.holds pe pipe 0x33 f → f.vb % 4 ≠ 3 →
      Asks s (.sendTag pe pipe) pe pipe f (.ctx (s.pe pe).ctxSlot) .cm (.ctx pe (s.pe pe).ctxSlot f.ctx
        (.send (f.carry (f.vb / 2 ^ 44) (f.vb / 2 ^ 30 % 2 ^ 14) (f.vb / 4 % 2 ^ 28) (f.vb % 4)) f.job))
        (some (f.carry (f.vb / 2 ^ 44) (f.vb / 2 ^ 30 % 2 ^ 14) (f.vb / 4 % 2 ^ 28) (f.vb % 4)))) ∧
    (s.holds pe pipe 0x34 f → f.ctx ≠ 0 →
      Asks s (.returnLink pe pipe) pe pipe f (.ctx (s.pe pe).ctxSlot) .cm (.ctx pe (s.pe pe).ctxSlot f.ctx
        (.ret (f.carry f.ctx f.act f.iter 0) (bit (wMod f.word) 0))) (some (f.carry f.ctx f.act f.iter 0))) ∧
    (s.holds pe pipe 0x35 f → f.ctx ≠ 0 →
      Asks s (.freectx pe pipe) pe pipe f (.ctx (s.pe pe).ctxSlot) .cm (.ctx pe (s.pe pe).ctxSlot f.ctx .free) none) ∧
    (s.holds pe pipe 0x60 f → f.poisoned = false → s.inGrant f f.va → f.vb < 2 ^ 53 →
      SendsLane s (.burstSite pe pipe) pe pipe f 0 f.vb f.va) ∧
    (s.holds pe pipe 0x61 f → f.poisoned = false → (∀ k, f.a = some k → k.kind ≠ 1) → s.inGrant f f.va →
      SendsLane s (.haltSite pe pipe) pe pipe f 1 0 f.va) ∧
    (∀ k, s.holds pe pipe 0x61 f → f.poisoned = false → f.a = some k → k.kind = 1 →
      SendsLane s (.haltSite pe pipe) pe pipe f 1 0 (k.flow.toNat / 8)) ∧
    (s.holds pe pipe 0x62 f → f.poisoned = false → s.inGrant f f.va → f.vb < 2 ^ 53 →
      SendsLane s (.branchSite pe pipe) pe pipe f 2 f.vb f.va) ∧
    (s.holds pe pipe 0x63 f → f.poisoned = false → s.inGrant f f.va →
      1 ≤ f.vb → f.vb ≤ 6 → SendsLane s (.sitectl pe pipe) pe pipe f 3 f.vb f.va) ∧
    (s.holds pe pipe 0x70 f → f.ctlPoisoned = false → f.ctl < 2 ^ 13 → f.ctl / 2 % 16 ≤ 8 →
      Asks s (.appendRec pe pipe) pe pipe f (.writer (s.pe pe).wrSlot) (.outlet (f.ctl % 2) (quadOf pe % 4))
        (.out pe (s.pe pe).wrSlot f.ctx f.outFlow (.append f.ctl f.va (f.a.any fun k => k.poison)))
        (some (f.carry f.ctx f.act f.iter 0))) ∧
    (s.holds pe pipe 0x71 f → f.ctlPoisoned = false → f.ctl < 4 →
      Asks s (.commitRec pe pipe) pe pipe f (.writer (s.pe pe).wrSlot) (.outlet (f.ctl % 2) (quadOf pe % 4))
        (.out pe (s.pe pe).wrSlot f.ctx f.outFlow (.commit f.ctl)) (some (f.carry f.ctx f.act f.iter 0))) ∧
    (∀ (c : Instr) (op : Nat) (k : OutAsk), (c, op, k) ∈
        [(Instr.appendRec pe pipe, 0x70, OutAsk.mark), (.commitRec pe pipe, 0x71, .commitPoisoned)] →
      s.holds pe pipe op f → f.ctlPoisoned = true → ∃ t n, exec c s = .next t ∧ Tbl.find (t.pe pe).fire pipe = none ∧
      n ≠ (s.pe pe).wrSlot ∧
      (∀ v ∈ (s.pe pe).svc, v.slot ≠ .writer (s.pe pe).wrSlot ∧ v.slot ≠ .writer n) ∧
      (t.pe pe).svc = (s.pe pe).svc ++
        (if op = 0x70 then [{ f := f, slot := .writer (s.pe pe).wrSlot, pipe := pipe },
            { f := f, slot := .writer n, pipe := pipe, dead := true }]
          else [{ f := f, slot := .writer (s.pe pe).wrSlot, pipe := pipe, twin := some n },
            { f := f, slot := .writer n, pipe := pipe, twin := some (s.pe pe).wrSlot }]) ∧
      t.net.transit = s.net.transit ++ ([(0, (s.pe pe).wrSlot), (1, n)].map fun o =>
        { net := 1, router := routerOf (.pe pe), dst := .outlet o.1 (quadOf pe % 4), body := .out pe o.2 f.ctx f.outFlow k,
          chk := some (f.carry f.ctx f.act f.iter 0) }) ∧
      t = { s with pes := t.pes, net := { s.net with transit := t.net.transit } }) ∧
    (s.has pe pipe (wOpc f.word) f → opReserved (wOpc f.word) = true →
      Asks s (.reservedOpcodeTrap pe pipe) pe pipe f (.trap (s.pe pe).trapSlot) .stew
        (.trap (trapMsg pe (s.pe pe).trapSlot f)) none)

/-- R114, R133, R178, R179, R189: a response, reply, answer or final trap return that names a firing in service completes it
where the output buffers have room: its slot is free, and its result goes to its destinations. Of the two answers to a
poisoned COMMIT the first is kept and the second completes the firing with one result word. The model's choices in it:
log entry 48. -/
def Obligations.CompletionsSendResults : Prop :=
  ∀ (s : State) (pe : Nat) (v : Svc) (r : List Body),
    s.alone → s.domOn (quadDom pe) = true → v.dead = false → (Tbl.find s.cm.blocks v.f.block).isSome = true →
    s.outRoom pe v.pipe v.f = true →
    (∀ k value poison, (s.pe pe).rsp = .rsp k value poison 0 :: r → (s.pe pe).inSlot (.rsp k) = some v →
      Completes s (.memoryResponse pe) pe v (.rsp k)
        (v.f.results (if wOpc v.f.word = 0x51 ∨ wOpc v.f.word = 0x41 ∨ wOpc v.f.word = 0x42 then v.f.va else value)
          (poison || v.f.poisoned) v.f.iter v.f.outFlow)) ∧
    (∀ k value, (s.pe pe).rsp = .reply k value 0 :: r → (s.pe pe).inSlot (.ctx k) = some v →
      Completes s (.contextReply pe) pe v (.ctx k)
        (if wOpc v.f.word = 0x32 then v.f.result 0 value v.f.poisoned v.f.iter v.f.outFlow else [])) ∧
    (∀ o k value, (s.pe pe).rsp = .answer o k value 0 :: r → (s.pe pe).inSlot (.writer k) = some v → v.twin = none →
      Completes s (.outletAnswer pe) pe v (.writer k)
        (v.f.results (if wOpc v.f.word = 0x70 then v.f.ctl else match v.part with | none => value | some y => commitBoth y value)
          v.f.poisoned v.f.iter v.f.outFlow)) ∧
    (∀ o k j value, (s.pe pe).rsp = .answer o k value 0 :: r → (s.pe pe).inSlot (.writer k) = some v → v.twin = some j →
      ∃ t, exec (.outletAnswer pe) s = .next t ∧ t.gone pe v.pipe = s.gone pe v.pipe ∧
        (t.pe pe).svc = ((s.pe pe).svc.filter fun x => x.slot != .writer k).map (fun x =>
          if x.slot = .writer j then { x with twin := none, part := some value } else x) ∧
        t = { s with pes := t.pes }) ∧
    (∀ k ts, (s.pe pe).trapIn = k :: ts → s.staleAt pe k.ctx.toNat = false →
      (s.pe pe).inSlot (.trap (k.flow.toNat % 32)) = some v → v.f.tag = tagOf k.ctx.toNat k.act.toNat k.iter.toNat →
      k.flow.toNat.testBit 7 = true → k.flow.toNat.testBit 8 = false →
      Completes s (.trapReturnArrival pe) pe v (.trap (k.flow.toNat % 32))
        ((if k.flow.toNat.testBit 5 then v.f.result 0 k.value.toNat (k.poison || v.f.poisoned) v.f.iter v.f.outFlow else []) ++
         (if k.flow.toNat.testBit 6 then v.f.result 1 k.value.toNat (k.poison || v.f.poisoned) v.f.iter v.f.outFlow else []))) ∧
    (∀ k ts, (s.pe pe).trapIn = k :: ts → s.staleAt pe k.ctx.toNat = false →
      (s.pe pe).inSlot (.trap (k.flow.toNat % 32)) = some v → v.f.tag = tagOf k.ctx.toNat k.act.toNat k.iter.toNat →
      k.flow.toNat.testBit 8 = true → s.rcd.intake.length < 64 →
      ∃ t e, exec (.trapReturnArrival pe) s = .next t ∧ t.gone pe v.pipe = s.gone pe v.pipe ∧
        (t.pe pe).svc = (s.pe pe).svc.filter (fun x => x.slot != .trap (k.flow.toNat % 32)) ∧
        t.rcd.intake = intakeAdd s.rcd.intake e ∧ e.code = 0x812B ∧ e.inst = pe ∧ e.extra = (wOpc v.f.word, k.value.toNat % 2 ^ 16))

/-! ### Matching store, Cabinet, scheduler, trace, code blocks (chapters 03, 04, 06) -/

/-- R117, R118: the oldest token of a router channel or of a fire half's output buffer that finds room and has a right CRC
enters the sub-queue of its group with the next arrival number, modulo 2^24. -/
def Obligations.TokenEnqueueTakesArrivalNumber : Prop :=
  ∀ (s : State) (pe : Nat) (k : Tok) (r : List Tok), s.domOn (quadDom pe) = true → k.crcOk = true →
    ((s.pe pe).outL = [] → (s.pe pe).inU = k :: r → k.grp = 0 → (s.pe pe).qU.length < 64 →
      ∃ t, exec (.tokenEnqueue pe) s = .next t ∧ (t.pe pe).qU = (s.pe pe).qU ++ [((s.pe pe).arr, k)] ∧
        (t.pe pe).qG = (s.pe pe).qG ∧ (t.pe pe).inU = r ∧ (t.pe pe).arr = ((s.pe pe).arr + 1) % 2 ^ 24) ∧
    ((s.pe pe).outL = [] → (s.pe pe).inU = [] → (s.pe pe).inG = k :: r → k.grp ≠ 0 → (s.pe pe).qG.length < 448 →
      ∃ t, exec (.tokenEnqueue pe) s = .next t ∧ (t.pe pe).qG = (s.pe pe).qG ++ [((s.pe pe).arr, k)] ∧
        (t.pe pe).qU = (s.pe pe).qU ∧ (t.pe pe).inG = r ∧ (t.pe pe).arr = ((s.pe pe).arr + 1) % 2 ^ 24) ∧
    ((s.pe pe).outL = [(0, k :: r)] → k.grp = 0 → (s.pe pe).qU.length < 64 →
      ∃ t, exec (.tokenEnqueue pe) s = .next t ∧ (t.pe pe).qU = (s.pe pe).qU ++ [((s.pe pe).arr, k)] ∧
        (t.pe pe).outL = [(0, r)] ∧ (t.pe pe).inU = (s.pe pe).inU ∧ (t.pe pe).arr = ((s.pe pe).arr + 1) % 2 ^ 24)

/-- R44, R77, R123: one queued token whose actor waits for its port alone fires at once; one whose partner waits on die fires
with it, and the partner leaves the drawer; one with neither partner nor Cabinet entry is stored in the lowest free way
of its set. -/
def Obligations.MatchDecisions : Prop :=
  ∀ (s : State) (pe arr w : Nat) (k : Tok) (up : Option (Nat × EntErr)), s.domOn (quadDom pe) = true → s.goodTok pe k w →
    wFk w = false → (s.pe pe).half = [] → (s.pe pe).qU = [(arr, k)] → (s.pe pe).qG = [] → (s.pe pe).takes s.time →
    ((waitSet w).length = 1 → (∀ q ∈ (s.pe pe).park, q.ret = none) →
      ∃ t f, exec (.matchDecision pe up) s = .next t ∧ (t.pe pe).qU = [] ∧ (t.pe pe).half = [] ∧
      (t.pe pe).ready = (s.pe pe).ready ++ [f] ∧ f.isFrom k w [k] ∧ (t.pe pe).ents = ((s.upsetWay pe up).pe pe).ents) ∧
    (∀ i e, waitSet w = [k.port.toNat, e.tok.port.toNat] ∨ waitSet w = [e.tok.port.toNat, k.port.toNat] → up = none →
      (s.pe pe).park = [] → (s.pe pe).spill = [] → (s.pe pe).ents = [(i, e)] → i / 8 = k.set → e.err = .none →
      e.tok.key = k.key → e.tok.crcOk = true →
      ∃ t f, exec (.matchDecision pe up) s = .next t ∧ (t.pe pe).qU = [] ∧ (t.pe pe).half = [] ∧
        (t.pe pe).ready = (s.pe pe).ready ++ [f] ∧ f.isFrom k w [k, e.tok] ∧ (t.pe pe).ents = []) ∧
    (1 < (waitSet w).length → (s.pe pe).park = [] → (s.pe pe).spill = [] → (s.pe pe).ents = [] →
      k.set ∉ (s.pe pe).retired → Tbl.get 0 (s.pe pe).summary k.cell = 0 →
      ∃ t, exec (.matchDecision pe up) s = .next t ∧ (t.pe pe).qU = [] ∧ (t.pe pe).half = [] ∧
        (t.pe pe).ready = (s.pe pe).ready ∧ (t.pe pe).ents = [(8 * k.set, { tok := k, age := s.time / 64 % 65536 })])

/-- R78, R85, R90, R95, R101, R110: a lookup's return takes the partner out of the Cabinet, and the fc that follows decides
the parked token with it; a spilled entry is written to the first free place of its home bucket and to that place's bytes
of DDR5; a sweep visit removes the entries whose context is not live and moves on; a capacity abort asks for the youngest
job's kill; MS_CNT_CLR clears its counters. The model's choices in it: log entries 13, 34, 35 and 105. -/
def Obligations.CabinetCommands : Prop :=
  ∀ (s : State) (pe l : Nat),
    (∀ (k : Park) (i : Nat) (e : Ent), s.domOn (quadDom pe) = true → s.domOn 49 = true → s.logOf pe = some l →
      (s.pe pe).park = [k] → k.ret = none → (s.region l).ents = [(i, e)] → (s.region l).through = [] → s.ddrClean →
      i / 8 = homeBucket s.cabLog k.tok.key → 8 ≤ s.nCab → e.tok.key = k.tok.key → e.err = .none →
      ∃ t, exec (.cabinetLookupReturn pe none) s = .next t ∧ (t.region l).ents = [] ∧
        (t.pe pe).park = [{ k with ret := some [e] }] ∧ (t.pe pe).ready = (s.pe pe).ready) ∧
    (∀ (k : Park) (e : Ent) w, s.domOn (quadDom pe) = true → s.goodTok pe k.tok w → wFk w = false →
      (s.pe pe).takes s.time → (s.pe pe).park = [{ k with chain := [], ret := some [e], tokDone := false }] → k.pipe < 2 →
      (s.pe pe).ents = [] → (s.pe pe).spill = [] → (s.pe pe).half = [] → (s.pe pe).qU = [] → (s.pe pe).qG = [] →
      e.tok.key = k.tok.key → e.tok.crcOk = true →
      waitSet w = [k.tok.port.toNat, e.tok.port.toNat] ∨ waitSet w = [e.tok.port.toNat, k.tok.port.toNat] →
      ∃ t f, exec (.matchDecision pe none) s = .next t ∧ (t.pe pe).park = [] ∧
        (t.pe pe).ready = (s.pe pe).ready ++ [f] ∧ f.isFrom k.tok w [k.tok, e.tok]) ∧
    (∀ (x : Spill) r i, s.domOn (quadDom pe) = true → s.domOn 49 = true → s.logOf pe = some l → (s.pe pe).spill = x :: r →
      8 ≤ s.nCab → s.inUse l < s.nCab → (s.region l).freeIn (homeBucket s.cabLog x.ent.tok.key) = some i →
      ∃ t, exec (.spillAck pe) s = .next t ∧ (t.pe pe).spill = r ∧ (t.region l).ents = (s.region l).ents.put i x.ent) ∧
    (s.cabOn = true → s.domOn 49 = true → s.cab.exh = [] → s.cab.bgBucket + 1 < s.nBuckets →
      ∃ t, exec .cabinetSweepBucket s = .next t ∧ t.cab.bgBucket = s.cab.bgBucket + 1 ∧
        ∀ e ∈ (t.region s.cab.bgRegion).ents, e.1 / 8 = s.cab.bgBucket → s.ctxLive e.2.tok.ctx.toNat = true) ∧
    (∀ j, s.cab.devStage = 3 → s.cab.abortWait = false → s.alone → s.youngest = some j →
      ∃ t, exec .capacityAbort s = .next t ∧ t.cm.killQ = s.cm.killQ ++ [{ job := j, end_ := 3, cause := 0x40 }] ∧
        t.cab.abortWait = true ∧ Tbl.get 0 t.led.tot 10 = Tbl.get 0 s.led.tot 10 + 1) ∧
    (s.domOn (quadDom pe) = true → ∃ t, exec (.msCntClr pe) s = .next t ∧
      s.Cleared .pe pe 0x03 0x0C (s.pe pe).cnt (t.pe pe).cnt)

/-- R114, R122 to R125, R127, R130, R141: an overflowed firing refills the ready list below its low-water mark; a flow-keep
firing whose conditions hold is released, by the time of its enable; the one offered firing is issued with the present
time, and while G0 holds an offered one no firing of another group is; a firing whose output buffer lacks room for two
tokens stays; SCHED_CNT_CLR clears its counters. The model's choices in it: log entry 9. -/
def Obligations.SchedulerCommands : Prop :=
  ∀ (s : State) (pe pipe : Nat) (f : Firing), s.domOn (quadDom pe) = true →
    (∀ n r, (s.pe pe).ovf = (n, f) :: r → (s.pe pe).ready.length + (s.pe pe).fk.length < s.refillLwm pe →
      wFk f.word = false → ∃ t, exec (.overflowRefill pe) s = .next t ∧ (t.pe pe).ovf = r ∧
        Joins (s.pe pe).ready (t.pe pe).ready f) ∧
    (∀ r, (s.pe pe).fk = f :: r → s.fkFree pe f = true →
      ∃ t, exec (.fkRelease pe) s = .next t ∧ (t.pe pe).fk = r ∧ Joins (s.pe pe).ready (t.pe pe).ready f) ∧
    ((s.pe pe).ready = [f] → f.grp < 8 → f.dead = false → f.ctx ∉ (s.pe pe).dying → s.hasRes pe pipe f = true →
      s.halfFree pe pipe f = true → s.pair.swapAt = none →
      ∃ t, exec (.firingIssue pe pipe) s = .next t ∧ (t.pe pe).ready = [] ∧
        Tbl.find (t.pe pe).fire (if opClass (wOpc f.word) = .x then 2 + pipe else pipe) =
          some { f with issued := s.time, held := false, pipe := pipe }) ∧
    ((s.pe pe).ready = [f] → f.grp < 8 → f.dead = true ∨ f.ctx ∈ (s.pe pe).dying → s.halfFree pe pipe f = true →
      s.pair.swapAt = none → ∃ t, exec (.firingIssue pe pipe) s = .next t ∧ (t.pe pe).ready = [] ∧
        (t.pe pe).fire = (s.pe pe).fire) ∧
    (∃ t, exec (.schedCntClr pe) s = .next t ∧ s.Cleared .pe pe 0x17 0x1D (s.pe pe).cnt (t.pe pe).cnt) ∧
    (∀ t g h, exec (.firingIssue pe pipe) s = .next t → h ∈ (s.pe pe).ready → h.grp = 0 → s.ready? pe pipe h = true →
      g ∈ (s.pe pe).ready → g.grp ≠ 0 → ∃ x ∈ (t.pe pe).ready, x = { g with held := x.held }) ∧
    (∀ c op, (c, op) ∈ [(Instr.add pe pipe, 0x01), (.fan pe pipe, 0x2B), (.newctx pe pipe, 0x32), (.ldMem pe pipe, 0x50),
        (.burstSite pe pipe, 0x60), (.appendRec pe pipe, 0x70)] →
      s.has pe pipe op f → s.outRoom pe (pipe % 2) f = false → exec c s = .next s)

/-- R135, R139, R140: arming clears the ring's state; a trigger latches TIME and its origin; a stop ends recording; a
collector's oldest record goes to the ring's next place, and after drops a LOSS record with their number goes first; an
edge on the selected pin triggers. The model's choices in it: log entries 27, 63, 96 and 97. -/
def Obligations.TraceCommands : Prop :=
  ∀ (s : State),
    (s.trRingOn = true → bits s.trTrigCfg 2 0 ≠ 3 → bits s.trTrigCfg 2 0 ≠ 4 → (∀ c, s.trace.cond = some c → c.at_ ≠ s.time) →
      ∃ t, exec .traceArm s = .next t ∧ t.trace.armed = true ∧ t.trace.triggered = false ∧
      t.trace.stopped = false ∧ t.trace.wrIdx = 0 ∧ t.trace.lossCnt = 0) ∧
    (s.canTrigger = true → ∃ t, exec .traceTriggerNow s = .next t ∧ t.trace.triggered = true ∧ t.trace.trigTime = s.time ∧
      t.trace.origin = 0xFF ∧ t.host.alert.testBit 14 = true) ∧
    ((∀ c, s.trace.cond = some c → c.at_ ≠ s.time) →
      ∃ t, exec .traceStop s = .next t ∧ t.trace.stopped = true ∧ t.trace.wrIdx = s.trace.wrIdx) ∧
    (∀ quad r rest lost, Tbl.get [] s.trace.coll quad = r :: rest → Tbl.get 0 s.trace.lost quad = lost →
      rest.length < 127 → s.trRingOn = true → s.trace.armed = true → s.trace.stopped = false → s.ddr.wf 0 = true →
      ∃ t, exec (.traceCollectorWrite quad) s = .next t ∧
        Tbl.get [] t.trace.coll quad = (if lost = 0 then rest else r :: rest) ∧ Tbl.get 0 t.trace.lost quad = 0 ∧
        t.trace.wrIdx = (s.trace.wrIdx + 1) % 2 ^ 28 ∧
        t.ddrBytes (s.trBase + 32 * (s.trace.wrIdx % s.trSize)) 32 = (if lost = 0 then r else
          { time := s.time, ty := 0x11, origin := 0x80 + quad, data := lost, flags := b2n s.coarse : TraceRec }).bytes ∧
        ∀ a, a < s.trBase + 32 * (s.trace.wrIdx % s.trSize) ∨ s.trBase + 32 * (s.trace.wrIdx % s.trSize) + 32 ≤ a →
          Mem.read 0 t.ddr a = Mem.read 0 s.ddr a) ∧
    (∀ pin, s.canTrigger = true → bits s.trTrigCfg 2 0 = 2 → bits s.trTrigCfg 5 3 = pin →
      ∃ t, exec (.trigRisingEdge pin) s = .next t ∧ t.trace.triggered = true ∧ t.trace.trigTime = s.time)

/-- R195, R196, R564: LOAD_BLOCK of an image that passes every check, with its quads on, makes the block resident and usable
and completes OK; UNLOAD_BLOCK of a resident block that nothing uses removes it and completes OK. The model's choices in
it: log entries 5 and 78. -/
def Obligations.BlockCommands : Prop :=
  ∀ (s : State) (m n : Nat) (a : List Byte),
    (∀ img b, s.mbServes m 0x10 16 [(0, 2), (2, 1), (4, 4), (8, 8)] a → fld a 0 2 = n → n < 1024 → fld a 2 1 ≤ 1 →
      s.image (fld a 2 1) (fld a 8 8) (fld a 4 4) = .ok img → s.checkBlock img (fld a 4 4) = .ok b →
      Tbl.find s.cm.blocks n = none → s.offQuads b = [] → s.ddrUpset = [] → fld ((s.mb m).data) 0 2 = n →
      (∀ k < 32, k ≠ m → (s.mb k).state ≠ 2) →
      ∃ t, exec (.loadBlock m) s = .next t ∧ (t.mb m).doneWith (s.mb m) OK [0xFF] ∧
        Tbl.find t.cm.blocks n = some { b with loading := false }) ∧
    (∀ b, s.mbServes m 0x11 2 [(0, 2)] a → fld a 0 2 = n → n < 1024 → Tbl.find s.cm.blocks n = some b → b.loading = false →
      (∀ p ∈ s.cm.ctxs, s.ctxLive p.1 = true → p.2.block ≠ n) → (∀ j ∈ s.cm.queue, j.block ≠ n) →
      ∃ t, exec (.unloadBlock m) s = .next t ∧ (t.mb m).doneWith (s.mb m) OK [] ∧ Tbl.find t.cm.blocks n = none)

/-! ### Jobs, contexts, kills and fences (chapter 06) -/

/-- R199 to R203, R217: a checked descriptor is queued and JOB_SUBMIT answers ACCEPTED; one that fails a check, or meets a
full queue, is not queued and its status is answered; a doorbell is fetched, refused or held by the queue's room, and a
later one waits behind a held one; its descriptor is queued, ahead of the jobs that JOB_SUBMIT queued in its fc, or a
completion record says why not; an abort answers OK and asks for the kill, or takes queued jobs out. The model's choices
in it: log entry 77. -/
def Obligations.JobSubmissionAndAbort : Prop :=
  ∀ (s : State) (m : Nat) (a d : List Byte), d = a.take 160 → s.ddrUpset = [] →
    (s.mbServes m 0x30 160 [(0, 160)] a → s.cookieUsed (fld d 4 4) = false → s.descFault d = none →
      s.cm.queue.length < s.jqDepth → ∃ t j, exec (.jobSubmit m) s = .next t ∧ (t.mb m).doneWith (s.mb m) ACCEPTED [1] ∧
        t.cm.queue = s.cm.queue ++ [j] ∧ j.cookie = fld d 4 4 ∧ j.block = fld d 8 2 % 1024 ∧ j.sites = fld d 0x20 16 ∧
        j.runLimit = fld d 0x18 4 ∧ j.ended = false) ∧
    (∀ c, s.mbServes m 0x30 160 [(0, 160)] a → s.cookieUsed (fld d 4 4) = false → s.descFault d = some c →
      ∃ t, exec (.jobSubmit m) s = .next t ∧ (t.mb m).doneWith (s.mb m) c [0] ∧ t.cm = s.cm) ∧
    (s.mbServes m 0x30 160 [(0, 160)] a → s.cookieUsed (fld d 4 4) = false → s.descFault d = none →
      s.jqDepth ≤ s.cm.queue.length →
      ∃ t, exec (.jobSubmit m) s = .next t ∧ (t.mb m).doneWith (s.mb m) QUEUE_FULL [0] ∧ t.cm = s.cm) ∧
    (∀ hi : Word, s.domOn 6 = true → s.alone → s.cm.db.held = none →
      ∃ t, exec (.doorbellSubmit hi) s = .next t ∧
        (if s.cm.queue.length < s.jqDepth then
          t.cm.db = { s.cm.db with fetching := s.cm.db.fetching ++ [(s.cm.db.lo + hi.toNat * 2 ^ 32, false, s.time)] }
        else if s.otp.part = 0 then
          t.cm.refused = true ∧ t.cm.refusedCnt = min 0xFFFFFFFF (s.cm.refusedCnt + 1) ∧
            t.cm.db.fetching = s.cm.db.fetching ++ [(s.cm.db.lo + hi.toNat * 2 ^ 32, true, s.time)]
        else t.cm.db.held = some (s.cm.db.lo + hi.toNat * 2 ^ 32)) ∧ t.cm.queue = s.cm.queue) ∧
    (∀ (hi : Word) x, s.cm.db.held = some x →
      ∃ t, exec (.doorbellSubmit hi) s = .next t ∧ t.cm.db = { s.cm.db with posted := s.cm.db.posted ++ [.doorbellSubmit hi] } ∧
        t = { s with cm := t.cm }) ∧
    (∀ x, s.cm.db.held = some x → s.cm.queue.length < s.jqDepth → s.cm.db.posted = [] →
      ∃ t, exec .doorbellHeldRelease s = .next t ∧
        t.cm.db = { s.cm.db with held := none, fetching := s.cm.db.fetching ++ [(x, false, s.time)] } ∧ t = { s with cm := t.cm }) ∧
    (∀ x at_ r q q', s.cm.db.fetching = (x, false, at_) :: r → s.descAt x false = some d → s.cookieUsed (fld d 4 4) = false →
      s.alone → s.cm.queue.length < s.jqDepth → s.cm.queue = q ++ q' → (∀ j ∈ q, j.sub ≠ at_ + 1) → (∀ j ∈ q', j.sub = at_ + 1) →
      ∃ t, exec (.descriptorFetchDone false) s = .next t ∧ t.cm.db.fetching = r ∧
        (match s.descFault d with
         | none => ∃ j, t.cm.queue = q ++ j :: q' ∧ j.cookie = fld d 4 4 ∧ t.cm.waiting = s.cm.waiting
         | some c => t.cm.queue = s.cm.queue ∧ t.cm.waiting = s.cm.waiting ++
            [{ status := c, end_ := 5, cookie := fld d 4 4, quiet := bit (fld d 2 2) 1 }])) ∧
    (∀ j, s.mbServes m 0x31 8 [(0, 1), (2, 2), (4, 4)] a → fld a 0 1 = 0 → Tbl.find s.cm.jobs (fld a 2 2) = some j →
      j.ended = false → s.endDecided (fld a 2 2) = false →
      ∃ t, exec (.jobAbortByJob m) s = .next t ∧ (t.mb m).doneWith (s.mb m) OK [] ∧
        t.cm.killQ = s.cm.killQ ++ [{ job := fld a 2 2, end_ := 1 }]) ∧
    (∀ j, s.mbServes m 0x31 8 [(0, 1), (2, 2), (4, 4)] a → fld a 0 1 = 1 → s.cm.jobs = [] → s.cm.queue = [j] →
      j.cookie = fld a 4 4 →
      ∃ t, exec (.jobAbortByCookie m) s = .next t ∧ (t.mb m).doneWith (s.mb m) OK [] ∧ t.cm.queue = [] ∧
        t.cm.waiting = s.cm.waiting ++ [{ end_ := 1, cookie := j.cookie, quiet := bit j.flags 1 }])

/-- R204, R205, R208, R209, R215: the head job that can be admitted takes the lowest free number and a root context, and its
sites; a grant request takes the first free context number and its reply carries the base tag; a miss is filled and its
operation answered; the run-time limit asks for the job's kill. R218, R219: the first completion that is due is written
at the ring's tail, which moves on, and its job is gone; its MSI-X message 16 follows; JQ_CR_HEAD takes a value up to the
tail; setting enable starts the ring again. The model's choices in it: log entry 85. -/
def Obligations.AdmissionAndGrants : Prop :=
  (∀ (s : State), s.alone →
     (∀ j q n root, s.cm.queue = j :: q → s.freeJob = some n → s.freeCtx = some root → s.canAdmit j = true →
       ∃ t j', exec .jobAdmission s = .next t ∧ t.cm.queue = q ∧ Tbl.find t.cm.jobs n = some j' ∧ j'.root = root ∧
         j'.start = s.time ∧ j'.cookie = j.cookie ∧ (t.ctx root).state = 1 ∧ (t.ctx root).job = n ∧
         (t.ctx root).block = j.block ∧ (t.ctx root).linkValid = false ∧
         ∀ k < 128, j.sites.testBit k = true → (t.site k).job = some n) ∧
     (∀ g n, s.cm.grantQ.find? s.grantable = some g → s.freeCtx = some n →
       ∃ t, exec .contextGrant s = .next t ∧ (t.ctx n).state = 1 ∧ (t.ctx n).job = g.job ∧ (t.ctx n).block = g.b ∧
         (t.ctx n).linkValid = g.link.isSome ∧ t.cm.grantQ = s.cm.grantQ.erase g ∧
         ∃ k ∈ t.net.transit, k.dst = .pe g.pe ∧ k.body = .reply g.slot (n * 2 ^ 44) 0) ∧
     (∀ pe slot ctx k r, s.cm.missQ = (pe, slot, ctx, k) :: r →
       (∀ tok job, k = .send tok job → tok.ctx ≠ 0 → ctx ≠ 0 → (s.ctx tok.ctx.toNat).state = 1 →
         (s.ctx tok.ctx.toNat).job = (s.ctx ctx).job →
         ∃ t, exec .contextTableMissFill s = .next t ∧ t.cm.missQ = r ∧ t.ctxHit tok.ctx.toNat = true ∧
           ∃ p ∈ t.net.transit, p.dst = .pe pe ∧ p.body = .reply slot 0 0) ∧
       (∀ tok free, k = .ret tok free → (s.ctx ctx).linkValid = true →
         ∃ t, exec .contextTableMissFill s = .next t ∧ t.cm.missQ = r ∧ t.ctxHit ctx = true ∧
           t.cm.killQ = s.cm.killQ ++ (if free then [{ job := (s.ctx ctx).job, whole := false, ctxs := [ctx] }] else []) ∧
           ∃ p ∈ t.net.transit, p.dst = .pe pe ∧ p.body = .reply slot 0 0)) ∧
     (∀ n j, Tbl.find s.cm.jobs n = some j → j.runLimit ≠ 0 → j.ended = false →
       ∃ t, exec (.runLimitExpiry n) s = .next t ∧ t.cm.killQ = s.cm.killQ ++ [{ job := n, end_ := 2 }] ∧
         j.start + j.runLimit * 2000 ≤ t.time)) ∧
  (∀ (s : State),
     (∀ c r, s.alone → s.cm.waiting = c :: r → (c.job = 0xFFFF ∨ (s.outletsReport c.job = true ∧ c.cause ≠ 0x41)) → c.lostAddr = 0 →
       s.crOn = true → (s.cm.tail + 1) % s.crSize ≠ s.cm.head → s.host.pf0.bme = true → s.host.mem.wf 0 = true →
       ∃ t, exec .completionPost s = .next t ∧ t.cm.waiting = r ∧ t.cm.tail = (s.cm.tail + 1) % s.crSize ∧
         t.hostBytes (s.crBase + 32 * s.cm.tail) 32 = c.bytes s.time s.cm.phase ∧
         (∀ a, a < s.crBase + 32 * s.cm.tail ∨ s.crBase + 32 * s.cm.tail + 32 ≤ a →
           Mem.read 0 t.host.mem a = Mem.read 0 s.host.mem a) ∧ t.ddr = s.ddr ∧
         (c.job ≠ 0xFFFF → Tbl.find t.cm.jobs c.job = none) ∧
         (c.quiet = false → 16 ∈ t.host.pf0.sent ∨ 16 ∈ t.host.pf0.pend)) ∧
     (∀ v : Word, s.domOn 6 = true → s.cm.db.held = none → s.alone → v.toNat < s.crSize → v.toNat < 2 ^ 16 →
       (v.toNat + s.crSize - s.cm.head) % s.crSize ≤ (s.cm.tail + s.crSize - s.cm.head) % s.crSize →
       ∃ t, exec (.jqCrHeadWrite v) s = .next t ∧ t.cm.head = v.toNat ∧ t.cm.tail = s.cm.tail) ∧
     (∀ v : Word, s.domOn 6 = true → s.cm.db.held = none → s.crOn = false → v.toNat.testBit 8 = true → 6 ≤ v.toNat % 32 → v.toNat % 32 ≤ 16 →
       ∃ t, exec (.completionRingEnable v) s = .next t ∧ t.cm.head = 0 ∧ t.cm.tail = 0 ∧ t.cm.phase = true ∧
         t.crOn = true ∧ t.crSize = 2 ^ (v.toNat % 32)))

/-- R211, R212: a kill's contexts become dying and a notice of each waits for broadcast; the notice reaches the endpoints
that are on; a PE marks the context and sweeps, removing its entries and marking its firings to be dropped at issue, and
acknowledges; a lane group acknowledges; with the last acknowledgement the contexts are dead and a job's completion falls
due. R214: a fence batch covers the dead contexts that no batch has covered; each fence is counted at its endpoint; with
the last one the PEs clear the dying marks and the batch ends; a fenced context with no Cabinet entry and no open record
returns its number to the free list. The model's choices in it: log entry 85. -/
def Obligations.KillSteps : Prop :=
  (∀ (s : State),
     (∀ r q j, s.cm.killQ = r :: q → s.cm.kills = [] → r.whole = true → Tbl.find s.cm.jobs r.job = some j → j.ended = false →
       ∃ t j', exec .contextKill s = .next t ∧ Tbl.find t.cm.jobs r.job = some j' ∧ j'.ended = true ∧
         (∀ g ∈ t.cm.grantQ, g.job ≠ r.job) ∧
         ∀ n ∈ s.jobCtxs r.job, (t.ctx n).state = 2 ∧ .kill s.cm.killId n ∈ t.net.notices) ∧
     (∀ r q, s.cm.killQ = r :: q → s.cm.kills = [] → r.whole = false →
       ∃ t, exec .contextKill s = .next t ∧
         ∀ n ∈ r.ctxs, n ≠ 0 → s.ctxLive n = true → (t.ctx n).state = 2 ∧ .kill s.cm.killId n ∈ t.net.notices) ∧
     (∀ e id ctx r k, s.alone → s.cm.acks = (e, id, ctx) :: r → s.cm.kills = [k] → k.id = id → k.await = [(e, ctx)] →
       ∃ t, exec .killAck s = .next t ∧ t.cm.acks = r ∧ t.cm.kills = [] ∧
         (∀ n ∈ k.ctxs, (t.ctx n).state = 3 ∧ (t.ctx n).dead = true) ∧
         t.cm.waiting = s.cm.waiting ++ (if k.whole then [{ k.comp with heldEpoch := none }] else [])) ∧
     (∀ id ctx r, s.net.notices = .kill id ctx :: r →
       ∃ t, exec .noticeBroadcast s = .next t ∧ t.net.notices = r ∧ (KillEnd.istr, id, ctx) ∈ t.net.killIn ∧
         (∀ g < s.nLg, s.domOn (lgDom g) = true → (KillEnd.lg g, id, ctx) ∈ t.net.killIn) ∧
         ∀ p ∈ s.pesIn, s.domOn (quadDom p) = true → (s.pe p).failed = false → s.pat.awaiting = [] →
           (KillEnd.pe p, id, ctx) ∈ t.net.killIn) ∧
     (∀ e id ctx r, s.net.killIn = (e, id, ctx) :: r →
       ∃ t, exec (.killNotice e) s = .next t ∧ t.net.killIn = r ∧
         (∀ p, e = .pe p → ctx ∈ (t.pe p).dying ∧ { id := id, ctx := ctx } ∈ (t.pe p).sweeps) ∧
         (∀ g, e = .lg g → t.cm.acks = s.cm.acks ++ [(e, id, ctx)] ∧
           ∀ o ∈ (t.lg g).ops, o.tok.ctx.toNat = ctx → o.killed = true)) ∧
     (∀ pe w, s.domOn (quadDom pe) = true → (s.pe pe).sweeps = [w] → w.swept = false → (s.pe pe).svc = [] →
       ∃ t, exec (.killSweepEnd pe) s = .next t ∧ (t.pe pe).sweeps = [] ∧ t.cm.acks = s.cm.acks ++ [(.pe pe, w.id, w.ctx)] ∧
         (∀ e ∈ (t.pe pe).ents, e.2.tok.ctx.toNat ≠ w.ctx) ∧
         (∀ f ∈ (t.pe pe).ready ++ (t.pe pe).fk ++ (t.pe pe).ovf.map (·.2), f.ctx = w.ctx → f.dead = true))) ∧
  (∀ (s : State),
     (s.cm.fence = none → s.unfenced ≠ [] →
       ∃ t f, exec .fenceBatchStart s = .next t ∧ t.cm.fence = some f ∧ f.ctxs = s.unfenced) ∧
     (∀ f p, s.cm.fence = some f → p ∈ s.pesIn → 2 ≤ awaits f.wave1 (.pe p) → s.fenceBlocked f (.pe p) false = false →
       ∃ t, exec (.fenceToken (.pe p)) s = .next t ∧ t.cm.fence = some { f with wave1 := countFence f.wave1 (.pe p) }) ∧
     (∀ f p, s.cm.fence = some f → s.pesIn = [p] → (∀ g < s.nLg, awaits f.wave1 (.lg g) = 0) → awaits f.wave1 (.pe p) = 0 →
       awaits f.wave2 (.pe p) = 1 → s.fenceBlocked f (.pe p) true = false →
       ∃ t, exec (.fenceToken (.pe p)) s = .next t ∧ t.cm.fence = none ∧ t.cm.fenced = s.cm.fenced ++ f.ctxs ∧
         ∀ c ∈ f.ctxs, c ∉ (t.pe p).dying) ∧
     (∀ ctx, ctx ∈ s.cm.fenced → Tbl.get 0 s.cab.ctxCnt ctx = 0 → s.noOpenRec ctx = true →
       ∃ t, exec (.contextFreed ctx) s = .next t ∧ Tbl.find t.cm.ctxs ctx = none ∧ t.cm.freed = s.cm.freed ++ [ctx] ∧
         ctx ∉ t.cm.fenced))


/-! ### Sites, vector engines (chapter 07) -/

/-- R173, R174, R238, R248: a BURST is queued at a site of its job that is UP, neither halted nor released, and delivered; a
HALT halts such a site, drops its bursts and sends halt flits on its lanes, and one that finds its site halted, with the
halt flits gone, finishes there at once; another job's site is skipped; an operation whose sites have all finished is
answered with its notice. R174: an operation whose target sites have all finished leaves its lane group, and its notice,
with the lane token's tag, GRP and FLOW, KIND 10 and the VALUE of Table 05-10, goes to the PE of its tag. The model's
choices in it: log entries 10 and 14. -/
def Obligations.LaneOperations : Prop :=
  (∀ (s : State) (g k job pe : Nat) (p : Pkt) (m : Tok), s.domOn (lgDom g) = true → k / 8 = g → k < 128 →
     (s.lg g).inbox = [p] → p.body = .lane m job pe none → p.chan < 2 → m.crcOk = true → m.value.toNat / 8 % 256 = k →
     (s.site k).ctl = [] → s.closing k = false → (s.lg g).ops = [] → (∀ i ∈ (s.site k).inHand, i ≤ (s.lg g).opId) →
     (m.value.toNat % 4 = 0 → s.siteOpen k job = true → (s.site k).halted = false →
       s.burstOk k (m.value.toNat / 2 ^ 11) = true → (s.site k).queue.length < 64 →
       ∃ t b o, exec (.laneBurst g) s = .next t ∧ (t.lg g).inbox = [] ∧ (t.site k).queue = (s.site k).queue ++ [b] ∧
         b.desc = m.value.toNat / 2 ^ 11 % 1024 ∧ (t.lg g).ops = [o] ∧ o.req = 2 ^ (k % 8) ∧ o.del = 2 ^ (k % 8) ∧
         o.wait = 2 ^ (k % 8) ∧ b.op = o.id) ∧
     (m.value.toNat % 4 = 0 → (s.site k).job ≠ some job →
       ∃ t o, exec (.laneBurst g) s = .next t ∧ (t.lg g).inbox = [] ∧ (t.site k).queue = (s.site k).queue ∧
         (t.lg g).ops = [o] ∧ o.req = 2 ^ (k % 8) ∧ o.del = 0 ∧ o.wait = 0 ∧ o.status = SITE_SKIPPED) ∧
     (m.value.toNat % 4 = 1 → s.siteOpen k job = true → (s.site k).halted = false →
       ∃ t o, exec (.laneHalt g) s = .next t ∧ (t.lg g).inbox = [] ∧ (t.site k).halted = true ∧ (t.site k).queue = [] ∧
         (t.site k).cur = none ∧ (t.site k).haltCause = 1 ∧ (∀ l ∈ (s.site k).laneList, (t.lane l).halt.isSome = true) ∧
         (t.lg g).ops = [o] ∧ o.del = 2 ^ (k % 8)) ∧
     (m.value.toNat % 4 = 1 → s.siteOpen k job = true → (s.site k).halted = true → (s.site k).haltFlit = true →
       (∀ l ∈ (s.site k).laneList, (s.lane l).halt = none) →
       ∃ t o, exec (.laneHalt g) s = .next t ∧ (t.lg g).inbox = [] ∧ (t.site k).halted = true ∧ (t.lg g).ops = [o] ∧
         o.del = 2 ^ (k % 8) ∧ o.hlt = 2 ^ (k % 8) ∧ o.wait = 0)) ∧
  (∀ (s : State) (g : Nat) (o : LaneOp) (r : List LaneOp), s.domOn (lgDom g) = true → s.alone →
     (s.lg g).ops = o :: r → o.wait = 0 →
     ∃ t, exec (.completionNotice g) s = .next t ∧ (t.lg g).ops = r.filter (fun p => p.id != o.id) ∧
       (∀ p, o.quiet = false → o.killed = false → s.peFor o.tok.ctx.toNat o.tok.act.toNat o.tok.iter.toNat = some p →
         ∃ k ∈ t.net.transit, ∃ n : Tok, k.dst = .pe p ∧ k.body = .tok n ∧ n.ctx = o.tok.ctx ∧ n.act = o.tok.act ∧
           n.iter = o.tok.iter ∧ n.port = o.tok.port ∧ n.grp = o.tok.grp ∧ n.flow = o.tok.flow ∧ n.kind = 2 ∧
           n.poison = false ∧ n.crcOk = true ∧ n.value = BitVec.ofNat 64 (o.value g)) ∧
       (o.quiet = true ∨ o.killed = true → t.net = s.net))

/-- R23, R175, R248 to R252, R272, R417: the arbiter's SITECTL commands act on a site of their job that is UP and not
released; a branch that has passed the arbiter becomes the site's pending branch, of two that landed in one fc the one
from the lower-numbered PE; a reflex trigger halts its site, and where a HALT of the same fc has halted it the cause
becomes reflex. The model's choices in it: log entries 10, 18 and 127. -/
def Obligations.SiteControls : Prop :=
  ∀ (s : State) (k op job : Nat) (r : List (Nat × Nat)), s.standby = false →
    (s.opJob k op = job → s.siteOpen k job = true → (∀ x, (s.site k).haltIn = some x → x.1 ≠ s.time) →
      ((s.site k).ctl = (op, 1) :: r → ∃ t, exec (.pause k) s = .next t ∧ (t.site k).ctl = r ∧ (t.site k).paused = true) ∧
      ((s.site k).ctl = (op, 2) :: r → ∃ t, exec (.resume k) s = .next t ∧ (t.site k).ctl = r ∧ (t.site k).paused = false) ∧
      ((s.site k).ctl = (op, 3) :: r → (s.site k).halted = true → (s.site k).bad = true →
        ∃ t, exec (.rearm k) s = .next t ∧ (t.site k).ctl = r ∧ (t.site k).halted = true ∧
          (t.site k).rearm = (s.site k).rearm) ∧
      ((s.site k).ctl = (op, 3) :: r → (s.site k).haltDue = none → (s.site k).halted = true → (s.site k).bad = false →
        ∃ t, exec (.rearm k) s = .next t ∧ (t.site k).ctl = r ∧ (t.site k).halted = false ∧ (t.site k).rearm = [] ∧
          (t.site k).next = ((s.site k).high + 1) % 2 ^ 48) ∧
      ((s.site k).ctl = (op, 3) :: r → (s.site k).haltDue ≠ none → (s.site k).halted = true → (s.site k).bad = false →
        ∃ t, exec (.rearm k) s = .next t ∧ (t.site k).ctl = r ∧ (t.site k).halted = true ∧
          (t.site k).rearm = (s.site k).rearm ++ [op]) ∧
      ((s.site k).ctl = (op, 3) :: r → (s.site k).halted = false →
        ∃ t, exec (.rearm k) s = .next t ∧ (t.site k).ctl = r ∧ (t.site k).halted = false ∧
          (t.site k).rearm = (s.site k).rearm) ∧
      ((s.site k).ctl = (op, 4) :: r → ∃ t, exec (.reflexOn k) s = .next t ∧ (t.site k).ctl = r ∧ (t.site k).reflex = true) ∧
      ((s.site k).ctl = (op, 5) :: r → ∃ t, exec (.reflexOff k) s = .next t ∧ (t.site k).ctl = r ∧ (t.site k).reflex = false) ∧
      ((s.site k).ctl = (op, 6) :: r → ∃ t, exec (.release k) s = .next t ∧ (t.site k).ctl = r ∧ (t.site k).released = true ∧
        (t.site k).queue = [] ∧ (t.site k).cur = (s.site k).cur)) ∧
    (∀ p q, (s.site k).brq = p :: q → (s.site k).ctl = [] → s.opJob k p.op = job → s.siteOpen k job = true →
      (s.site k).halted = false → s.branchOk k p.word = true →
      ((s.site k).branch = none →
        ∃ t, exec (.laneBranch k) s = .next t ∧ (t.site k).brq = q ∧ (t.site k).branch = some p) ∧
      (∀ o, (s.site k).branch = some o → o.at_ = p.at_ → o.land = p.land →
        ∃ t, exec (.laneBranch k) s = .next t ∧ (t.site k).brq = q ∧
          (t.site k).branch = some (if p.pe < o.pe then p else o) ∧ (t.site k).queue = (s.site k).queue) ∧
      (∀ o, (s.site k).branch = some o → o.at_ ≠ p.at_ ∨ o.land ≠ p.land →
        ∃ t, exec (.laneBranch k) s = .next t ∧ (t.site k).brq = q ∧ (t.site k).branch = some p)) ∧
    ((s.site k).trig = true → (s.site k).reflex = true → (s.site k).halted = false →
      ∃ t, exec (.reflexStop k) s = .next t ∧ (t.site k).halted = true ∧ (t.site k).trig = false ∧
        (t.site k).haltCause = 0 ∧ (t.site k).reflex = true) ∧
    (∀ x, (s.site k).trig = true → (s.site k).reflex = true → (s.site k).halted = true → (s.site k).haltIn = some x →
      x.1 = s.time → (s.site k).haltedAt = s.time → (s.site k).haltCause = 1 →
      ∃ t, exec (.reflexStop k) s = .next t ∧ (t.site k).halted = true ∧ (t.site k).trig = false ∧ (t.site k).haltCause = 0)

/-- R240, R245, R255, R256, R258, R339: a site that is UP, not halted and due stages its next vector, with the next index and
a send slot no earlier than 32 fc ahead and exactly T_v, in 1/32 fc, after the one before; each lane's stored record
becomes its vector unchanged; a reader takes its next record from DDR5; a cohort's copies go to the lane groups of its
entry; the vector-engine registers act, a reserved bit reading as zero. The model's choices in it: log entries 19, 117
and 127. -/
def Obligations.StagingAndPlayback : Prop :=
  ∀ (s : State) (k : Nat), s.alone →
    (∀ b q, s.siteUp k = true → (s.site k).halted = false → s.stageDue k = true → (s.site k).branch = none →
      (s.site k).cur = none → (s.site k).paused = false → (s.site k).queue = b :: q →
      ((s.lane (s.site k).first).desc b.desc).mode ≠ 1 →
      ∃ t v, exec (.vectorStage k) s = .next t ∧ (t.site k).staged = (s.site k).staged ++ [v] ∧ v.idx = (s.site k).next ∧
        v.vecs.length = (s.site k).lanes ∧
        v.slot = max (32 * (s.time + 32)) ((s.site k).lastSlot + 512 * (s.site k).cycU / (s.site k).w) ∧
        v.at_ = (v.slot + 31) / 32 ∧ (t.site k).lastSlot = v.slot ∧ (t.site k).next = ((s.site k).next + 1) % 2 ^ 48) ∧
    (∀ b (bs : Nat → List Byte), s.siteUp k = true → (s.site k).halted = false → s.stageDue k = true →
      (s.site k).branch = none → (s.site k).cur = some b → ((s.lane (s.site k).first).desc b.desc).mode = 1 →
      (∀ i < (s.site k).lanes, ∃ rd, s.readerOf ((s.site k).first + i) = some rd ∧
        (Tbl.get {} s.readers rd).recs.find? (fun q => q.1 == b.k) = some (b.k, bs i)) →
      ∃ t v, exec (.vectorStage k) s = .next t ∧ (t.site k).staged = (s.site k).staged ++ [v] ∧ v.idx = (s.site k).next ∧
        ∀ i < (s.site k).lanes, ∃ x, v.vecs[i]? = some x ∧ x.stim = leNat ((bs i).take 128) ∧
          x.en = leNat (slice (bs i) 128 128)) ∧
    (∀ rd x a, Tbl.get {} s.readers rd = x → x.lanes ≠ [] → (∀ l ∈ x.lanes, ∀ n, s.playPos l = some n → x.nextRec < n + 256) →
      x.nextRec < x.last → x.recs.length < 256 → a = x.base + 256 * (x.nextRec % max 1 x.count) → s.ddrClean →
      ∃ t, exec (.playbackRecordFetch rd) s = .next t ∧ (Tbl.get {} t.readers rd).nextRec = x.nextRec + 1 ∧
        (Tbl.get {} t.readers rd).recs = x.recs ++ [(x.nextRec, s.ddrBytes a 256)]) ∧
    (∀ quad p m job pe e r, s.net.cohortQ = p :: r → p.router = (1 + quad % 4) + 6 * (1 + quad / 4) →
      p.body = .lane m job pe (some e) →
      ∃ t, exec (.cohortCopy quad) s = .next t ∧ t.net.cohortQ = r ∧
        ∀ g < 16, (∃ q ∈ t.net.transit.drop s.net.transit.length, q.dst = .lg g ∧ q.body = p.body) ↔
          Tbl.get 0 s.cohorts e / 2 ^ (8 * g) % 2 ^ 8 ≠ 0) ∧
    (∀ l, s.domOn (lgDom (l / 8)) = true → ∃ t ve, exec (.veCntClr l) s = .next t ∧
      s.Cleared .ve l 0x08 0x0D (s.lane l).ve ve ∧ s.Cleared .ve l 0x1B 0x1B ve (t.lane l).ve) ∧
    (∀ l (w : Word), s.domOn (lgDom (l / 8)) = true → s.siteOfLane l = none → indListed (s.ioReg (veBase l + 6) 0 % 2 ^ 17) = true →
      ∃ t, exec (.veIndAccess l (some w)) s = .next t ∧
        (t.lane l).word (s.ioReg (veBase l + 6) 0 % 2 ^ 17) = w.toNat &&& indMask (s.ioReg (veBase l + 6) 0 % 2 ^ 17) ∧
        t.ioReg (veBase l + 6) 0 % 2 ^ 17 = (s.ioReg (veBase l + 6) 0 + (s.ioReg (veBase l + 6) 0 / 2 ^ 31 % 2)) % 2 ^ 17)

/-- R226 to R229, R242, R277, R278, R290, R292, R411: SITE_MAP of an image that passes every check binds the site, writes its
lanes' tables and answers OK; the cohort form writes its entry; OUTLET_CONFIG writes the outlet's and the compare units'
registers; SITE_REJOIN and SITE_RETIRE land at their site's arbiter. The model's choices in it: log entry 86. -/
def Obligations.SiteAndOutletCommands : Prop :=
  ∀ (s : State) (m : Nat) (a : List Byte),
    (∀ img ls, s.mbServes m 0x20 16 [(0, 1), (1, 1), (4, 4), (8, 8)] a → fld a 0 1 = 0 → fld a 1 1 < 2 →
      s.image (fld a 1 1) (fld a 8 8) (fld a 4 4) = .ok img → 64 ≤ fld a 4 4 → fld a 4 4 = 64 + fld img 0x14 4 →
      s.siteCheck img = .ok ls → s.ddrUpset = [] →
      ∃ t, exec (.siteMapImage m) s = .next t ∧ (t.mb m).doneWith (s.mb m) OK [0xFF, 0xFF] ∧
        (let x := t.site (fld img 6 1)
         x.bound = true ∧ x.first = fld img 7 1 ∧ x.lanes = fld img 8 1 ∧ x.cycU = fld img 0xA 2 ∧ x.lead = fld img 0xC 4 ∧
          x.next = 0 ∧ x.queue = [] ∧ x.halted = false ∧ x.bad = false ∧ x.paused = false ∧ x.released = false ∧ x.flooded = false) ∧
        ∀ i y, ls[i]? = some y → (t.lane (fld img 7 1 + i)).ind = y.ind ∧
          (t.cu (fld img 7 1 + i)).pass = s.noted (.cnt .cu (fld img 7 1 + i) passKey)) ∧
    (∀ e, s.mbServes m 0x20 24 [(0, 1), (2, 2), (8, 16)] a → fld a 0 1 = 1 → fld a 2 2 = e → e < 1024 →
      fld a 8 16 < 2 ^ s.nLanes → s.cm.queue = [] →
      (∀ p ∈ s.cm.jobs, ¬(p.2.cohortFirst ≤ e ∧ e < p.2.cohortFirst + p.2.cohortCount)) →
      ∃ t, exec (.siteMapCohort m) s = .next t ∧ (t.mb m).doneWith (s.mb m) OK [] ∧ Tbl.get 0 t.cohorts e = fld a 8 16 ∧
        ∀ q, q ≠ e → Tbl.get 0 t.cohorts q = Tbl.get 0 s.cohorts q) ∧
    (∀ o, s.mbServes m 0x40 16 [(0, 1), (1, 1), (2, 1), (3, 1), (4, 1), (8, 8)] a → fld a 0 1 = 0 → fld a 1 1 = o →
      outArgsOk a = true → s.outEn o = false →
      ∃ t, exec (.outletConfigOutlet m) s = .next t ∧ (t.mb m).doneWith (s.mb m) OK [] ∧
        (t.outEn o = true ↔ fld a 2 1 = 1) ∧ t.outDest o = fld a 3 1 ∧ t.outSize o = 2 ^ fld a 4 1 ∧ t.outBase o = fld a 8 8) ∧
    (s.mbServes m 0x40 16 [(0, 1), (1, 1), (2, 1), (4, 4), (8, 4), (12, 4)] a → fld a 0 1 = 1 → cuArgsOk a = true →
      fld a 1 1 + fld a 2 1 ≤ s.nLanes → (∀ l, s.siteOfLane l = none) →
      ∃ t, exec (.outletConfigCompare m) s = .next t ∧ (t.mb m).doneWith (s.mb m) OK [] ∧
        ∀ i < fld a 2 1, t.cuWin (fld a 1 1 + i) = fld a 4 4 ∧ t.cuFlood (fld a 1 1 + i) = fld a 8 4 ∧
          t.cuReg (fld a 1 1 + i) 2 10 = fld a 12 4) ∧
    (s.mbServes m 0x21 8 [(0, 1), (2, 6)] a → fld a 0 1 < s.nLanes →
      ∃ t w, exec (.siteRejoin m) s = .next t ∧ (t.mb m).state = 2 ∧ w ∈ t.arb ∧ w.obj = .site (fld a 0 1) ∧
        { rank := 2, at_ := s.time, what := .rejoin m (fld a 2 6) } ∈ w.cmds) ∧
    (s.mbServes m 0x22 1 [(0, 1)] a → fld a 0 1 < s.nLanes →
      ∃ t w, exec (.siteRetire m) s = .next t ∧ (t.mb m).state = 2 ∧ w ∈ t.arb ∧ w.obj = .site (fld a 0 1) ∧
        { rank := if m = 15 then 1 else 2, at_ := s.time, what := .retire m } ∈ w.cmds)

/-! ### Compare units and outlets (chapter 08) -/

/-- R246, R261, R265, R271, R275 to R278: the follower arms the fret of the next vector 32 ns before its application; a fret
whose deadline passes is resolved and counted as MISSING_CAPTURE; fail tokens leave in FIFO order; a summary record
covers up to the last index; a held record goes when there is room; a halt report ends its halt and the frets from its
index onward, a capture of its fc at or above the index coming late (R279); a break report halts the site and a repeated
one changes nothing; the clears act, and keep what this fc has counted. The model's choices in it: log entries 10, 19,
87, 118 and 119. -/
def Obligations.CompareUnitCommands : Prop :=
  ∀ (s : State) (l k : Nat), s.alone → s.siteOfLane l = some k →
    (∀ v, (s.site k).nextFollow (l - (s.site k).first) = some v → v.stream = [] →
      ∃ t f, exec (.fretWrite l) s = .next t ∧ t.time = max s.time (v.at_ + (s.site k).lead * 2 - 64) ∧
        (t.cu l).frets = (s.cu l).frets ++ [f] ∧ f.idx = v.idx ∧ f.at_ = t.time ∧ f.deferred = false ∧
        f.exp = (v.vecs.getD (l - (s.site k).first) {}).exp ∧ f.en = (v.vecs.getD (l - (s.site k).first) {}).en ∧
        (t.cu l).high = v.idx) ∧
    (∀ f err, (s.cu l).nextDue = some f → s.reportDue k = false → err < 2 →
      ∃ t, exec (.fretDeadline l err) s = .next t ∧ f.at_ + 64 + s.rtMax l < t.time ∧
        (∀ g ∈ (t.cu l).frets, g.idx ≠ f.idx) ∧
        Tbl.get 0 (t.cu l).cnt 0x0E = min 0xFFFFFFFF (Tbl.get 0 (s.cu l).cnt 0x0E + 1)) ∧
    (∀ f err, (s.cu l).nextDue = some f → s.reportDue k = true →
      ∃ t, exec (.fretDeadline l err) s = .next t ∧ (t.cu l).frets.length = (s.cu l).frets.length ∧
        ∀ g ∈ (t.cu l).frets, g.idx = f.idx → g.deferred = true ∧ g.err = err) ∧
    (∀ x r, (s.cu l).fifo = x :: r → (∀ i < 8, 8 * (l / 8) + i ≠ l → (s.cu (8 * (l / 8) + i)).fifo = []) →
      s.srcRoom 0 (chanOf x.grp.toNat) (routerOf (.lg (l / 8))) = true →
      ∃ t, exec (.failTokenInject (l / 8)) s = .next t ∧ (t.cu l).fifo = r ∧ (t.cu l).lastOut = some t.time ∧
        (∀ u, (s.cu l).lastOut = some u → u + 8 ≤ t.time) ∧ (∀ u, (s.lg (l / 8)).injAt = some u → u < t.time) ∧
        ∀ p, s.peFor x.ctx.toNat x.act.toNat x.iter.toNat = some p →
          ∃ q ∈ t.net.transit, q.dst = .pe p ∧ q.body = .tok x) ∧
    ((s.cu l).summary = true → (s.cu l).acc.any = true → (s.cu l).heldAcc = none → (s.cu l).held = [] →
      s.outEn (s.recOutlet l) = true → s.cuRecRoom (s.sumRec l k (s.cu l).acc false) = true →
      ∃ t r, exec (.summaryIntervalEnd l) s = .next t ∧ t.time = max s.time (s.cu l).sumAt ∧
        (t.outlet (s.recOutlet l)).done = (s.outlet (s.recOutlet l)).done ++ [r] ∧ r.ty = 0xF1 ∧
        r.words = (s.sumRec l k (s.cu l).acc false).words ∧ r.seq = (s.outlet (s.recOutlet l)).seq ∧
        (t.cu l).acc.first = some ((s.sumLast l k (s.cu l).acc + 1) % 2 ^ 48) ∧ (t.cu l).summary = true ∧
        (t.cu l).sumAt = (s.cu l).sumAt + s.sumLen l) ∧
    (∀ r q, (s.cu l).held = r :: q → s.cuRecRoom r = true → s.outEn r.outlet = true →
      ∃ t x, exec (.heldRecordWrite l) s = .next t ∧ (t.cu l).held = q ∧
        (t.outlet r.outlet).done = (s.outlet r.outlet).done ++ [x] ∧ x.words = r.words ∧ x.ty = r.ty ∧ x.device = true) ∧
    (∀ seq idx pl, (s.site k).haltDue = some seq → seq ≠ 0 → (s.site k).quar = false → (s.site k).rearm = [] →
      fld pl 0 6 = idx →
      ∃ t, exec (.haltRptReceived l seq pl) s = .next t ∧ (t.site k).haltDue = none ∧
        ∀ j ∈ (s.site k).laneList, ∀ f ∈ (t.cu j).frets, idxLt f.idx idx = true ∧ f.deferred = false) ∧
    (∀ seq pl v c, (s.site k).haltDue = some seq → seq ≠ 0 → (s.site k).quar = false → (s.site k).rearm = [] →
      s.capsOf k = [(l, v, c)] → idxLt v (fld pl 0 6) = false → idxLt (s.cu l).high v = false →
      ∃ t, exec (.haltRptReceived l seq pl) s = .next t ∧ Rises c.cnt (t.cu l).cnt 0x0D 1) ∧
    (∀ pl, (s.site k).halted = false → (s.site k).quar = false → (s.site k).repeats s.time (fld pl 0 6) = false →
      ∃ t, exec (.haltRptReceived l 0 pl) s = .next t ∧ (t.site k).halted = true ∧ (t.site k).haltCause = 4) ∧
    (∀ pl, (s.site k).halted = true ∨ (s.site k).repeats s.time (fld pl 0 6) = true → (s.site k).quar = false →
      ∃ t, exec (.haltRptReceived l 0 pl) s = .next t ∧ t.site k = s.site k ∧ t.rcd = s.rcd) ∧
    (∀ v : Word, s.domOn (lgDom (l / 8)) = true → ∃ t c, exec (.cuCntClr l v) s = .next t ∧
      s.Cleared .cu l 0x0C 0x12 (s.cu l).cnt c ∧ s.Cleared .cu l 0x22 0x22 c (t.cu l).cnt ∧
      (t.cu l).pass = (if v.toNat.testBit 0 then s.noted (.cnt .cu l passKey) else (s.cu l).pass) ∧
      (∀ i < 32, Tbl.get 0 (t.cu l).pins i = if v.toNat.testBit 0 then
        (if (Tbl.find (s.cu l).pins i).isSome then s.noted (.cnt .cu l (pinKey + i)) else 0)
        else Tbl.get 0 (s.cu l).pins i) ∧ (t.cu l).frets = (s.cu l).frets) ∧
    (s.domOn (lgDom (l / 8)) = true → ∃ t, exec (.cuFloodClr l) s = .next t ∧
      (t.site k).flooded = ((s.site k).flooded && s.noted (.w1c .flood k) != 0)) ∧
    (∀ i (v : Word), s.cm.db.held = none → ∃ t, exec (.floodClr i v) s = .next t ∧
      ∀ j < 32, (t.site (32 * i + j)).flooded =
        ((s.site (32 * i + j)).flooded && (!v.toNat.testBit j || s.noted (.w1c .flood (32 * i + j)) != 0)))

/-- R178, R281, R282, R290: at its writer port, the first word of a key opens a record in the filling bank and a later word
joins it; a word after a partial word or beyond 512 rewinds the record and answers fault 0x2A; a COMMIT gives the record
the next sequence number, or rewinds it, or finds none; a poison mark marks the key's record. R283 to R285, R288, R289:
the banks swap when the draining one is empty and the filling one holds a record; the next record is written whole at the
ring's write index, or at index 0 behind a pad record, and the index moves past it; one whose body fails its CRC is
dropped; two copies of a pointer that disagree reset the outlet, which drops every open and unwritten record, keeps the
open keys as dead and reloads the indices from their checkpoints. The model's choices in it: log entries 12, 17, 47 and
48. -/
def Obligations.OutletWrites : Prop :=
  (∀ (s : State) (o port pe slot ctx flow ctl v : Nat) (pz : Bool) (p : Pkt) (r : List Pkt), s.domOn (outDom o) = true →
     s.alone → (s.outlet o).port port = p :: r → (ctx, flow) ∉ (s.outlet o).dead → o < 2 →
     (p.body = .out pe slot ctx flow (.append ctl v pz) → s.ctxLive ctx = true → (s.outlet o).find ctx flow = none →
       (s.outlet o).open_.length < 256 → s.outEn o = true → 0 < (s.outlet o).free (s.outlet o).fill →
       ∃ t x, exec (.outletAppendAccept o port) s = .next t ∧ (t.outlet o).port port = r ∧
         (t.outlet o).find ctx flow = some x ∧ x.words.length = 1 ∧ x.ty = ctl / 2 ^ 5 % 2 ^ 8 ∧ x.poisoned = pz ∧
         x.bank = (s.outlet o).fill ∧ Answers t o pe slot ctl 0) ∧
     (∀ x, p.body = .out pe slot ctx flow (.append ctl v pz) → s.ctxLive ctx = true → (s.outlet o).find ctx flow = some x →
       x.partialN = 0 → x.words.length < 512 → x.words.length % 64 ≠ 0 → x.discard = false → ctl / 2 % 16 = 0 →
       ∃ t y, exec (.outletAppendAccept o port) s = .next t ∧ (t.outlet o).port port = r ∧
         (t.outlet o).find ctx flow = some y ∧ y.words = x.words ++ [v % 2 ^ 64] ∧ y.poisoned = (x.poisoned || pz) ∧
         Answers t o pe slot ctl 0) ∧
     (∀ x, p.body = .out pe slot ctx flow (.append ctl v pz) → s.ctxLive ctx = true → (s.outlet o).find ctx flow = some x →
       x.partialN ≠ 0 ∨ x.words.length = 512 →
       ∃ t, exec (.outletAppendAccept o port) s = .next t ∧ (t.outlet o).port port = r ∧
         (t.outlet o).find ctx flow = none ∧ Answers t o pe slot ctl 0x2A) ∧
     (∀ x, p.body = .out pe slot ctx flow (.commit ctl) → (s.outlet o).find ctx flow = some x → x.poisoned = false →
       x.discard = false → ctl.testBit 1 = false → s.outEn o = true →
       ∃ t y, exec (.outletCommitAccept o port) s = .next t ∧ (t.outlet o).port port = r ∧
         (t.outlet o).find ctx flow = none ∧ (t.outlet o).done = (s.outlet o).done ++ [y] ∧ y.words = x.words ∧
         y.seq = (s.outlet o).seq ∧ (t.outlet o).seq = ((s.outlet o).seq + 1) % 2 ^ 32 ∧ y.time = s.time ∧
         Answers t o pe slot (OK + x.words.length * 2 ^ 32) 0) ∧
     (∀ x, p.body = .out pe slot ctx flow (.commit ctl) → (s.outlet o).find ctx flow = some x → x.poisoned = true →
       x.discard = false → s.outEn o = true →
       ∃ t, exec (.outletCommitAccept o port) s = .next t ∧ (t.outlet o).find ctx flow = none ∧
         (t.outlet o).done = (s.outlet o).done ∧ Answers t o pe slot (DENIED + 2 ^ 16 + x.words.length * 2 ^ 32) 0) ∧
     (p.body = .out pe slot ctx flow (.commit ctl) → (s.outlet o).find ctx flow = none → s.outEn o = true →
       ∃ t, exec (.outletCommitAccept o port) s = .next t ∧ (t.outlet o).done = (s.outlet o).done ∧
         Answers t o pe slot BAD_ARG 0) ∧
     (∀ x, p.body = .out pe slot ctx flow .commitPoisoned → (s.outlet o).find ctx flow = some x → x.discard = false →
       s.outEn o = true →
       ∃ t, exec (.outletCommitAccept o port) s = .next t ∧ (t.outlet o).port port = r ∧ (t.outlet o).find ctx flow = none ∧
         (t.outlet o).done = (s.outlet o).done ∧ Answers t o pe slot (DENIED + 2 ^ 16) 0) ∧
     (p.body = .out pe slot ctx flow .mark → (s.outlet o).open_.length < 256 → s.ctxLive ctx = true →
       ∃ t x, exec (.poisonMark o port) s = .next t ∧ (t.outlet o).port port = r ∧
         (t.outlet o).find ctx flow = some x ∧ x.poisoned = true ∧ Answers t o pe slot 0 0) ∧
     (p.body = .out pe slot ctx flow .mark → s.ctxLive ctx = false →
       ∃ t, exec (.poisonMark o port) s = .next t ∧ (t.outlet o).port port = r ∧ (t.outlet o).open_ = (s.outlet o).open_ ∧
         Answers t o pe slot 0 0)) ∧
  (∀ (s : State) (o : Nat), s.domOn (outDom o) = true → o < 2 →
     ((∀ x ∈ (s.outlet o).done, x.bank = (s.outlet o).fill) → (s.outlet o).done ≠ [] → (s.outlet o).fill < 2 →
       ∃ t, exec (.outletBankSwap o) s = .next t ∧ (t.outlet o).fill = 1 - (s.outlet o).fill ∧
         (t.outlet o).done = (s.outlet o).done) ∧
     (∀ r w pad, s.alone → (s.outlet o).nextDone = some r → r.crc = r.acc → s.outDest o = 0 → s.ddr.wf 0 = true →
       (s.outlet o).wr < s.outSize o → (pad, w) = (if (s.outlet o).wr + r.span ≤ s.outSize o then (0, (s.outlet o).wr)
         else (s.outSize o - (s.outlet o).wr, 0)) →
       pad + r.span ≤ (s.rdSeen o + s.outSize o - (s.outlet o).wr - 1) % s.outSize o →
       ∃ t, exec (.outletRecordDrain o none) s = .next t ∧
         t.ddrBytes (s.outBase o + 64 * w) (64 * r.span) =
           r.bytes (if pad = 0 then (s.outlet o).phase else !(s.outlet o).phase) ∧
         (t.outlet o).wr = (w + r.span) % s.outSize o ∧ (t.outlet o).done = (s.outlet o).done.filter (fun q => q.seq != r.seq) ∧
         ∀ a, a < s.outBase o + 64 * w ∨ s.outBase o + 64 * w + 64 * r.span ≤ a →
           a < s.outBase o + 64 * (s.outlet o).wr ∨ s.outBase o + 64 * (s.outlet o).wr + 64 * pad ≤ a →
           Mem.read 0 t.ddr a = Mem.read 0 s.ddr a) ∧
     (∀ r up, (s.outlet o).nextDone = some r → (r.flip up).crc ≠ r.acc →
       ∃ t, exec (.outletRecordDrain o up) s = .next t ∧ (t.outlet o).dropped = true ∧ t.ddr = s.ddr ∧
         (t.outlet o).dropCnt = min 0xFFFFFFFF ((s.outlet o).dropCnt + 1) ∧
         (t.outlet o).done = (s.outlet o).done.filter (fun q => q.seq != r.seq)) ∧
     (∀ ptr m, ((s.outlet o).upset ptr m).agree = false →
       ∃ t, exec (.outletReset o ptr m) s = .next t ∧ (t.outlet o).open_ = [] ∧ (t.outlet o).done = [] ∧
       (∀ x ∈ (s.outlet o).open_, x.device = false → (x.ctx, x.flow) ∈ (t.outlet o).dead) ∧
       (t.outlet o).wr = (s.outlet o).ckWr ∧ (t.outlet o).rd = (s.outlet o).ckRd ∧ (t.outlet o).agree = true ∧
       (t.outlet o).reset_ = true))

/-! ### Lanes (chapter 09) -/

/-- R299 to R301, R303 to R310, R316, R320, R331, R332: a flit slot of a lane in service takes the first entry of the
device's list: HALT, MARK, STIM at its send slot once every lane of the site that has still to send it has credit, CREDIT
when due, CTRL within the far end's window, else IDLE; a STIM without credit is late, and departs as its own new send
slot, which the later ones keep T_v away from; a lane in phase EQ or LOCK or down after a signal loss sends TRAIN, one in
PARAM its HELLO, its messages and then TRAIN, and one under test its pattern; every flit sent enters the codewords, with
their parity; a status flit falls due 2 µs after the last; messages unacknowledged for 4 µs go again; a HELLO goes again
after 4 µs until it is acknowledged. The model's choices in it: log entries 5, 88 and 120. -/
def Obligations.LaneTransmission : Prop :=
  ∀ (s : State) (l : Nat),
    ((s.lane l).inService = true →
      (∀ q, (s.lane l).halt = some q → ∃ t, exec (.flitSlotStart l) s = .next t ∧ (t.lane l).tx.ty = 3 ∧
        (t.lane l).tx.field = q ∧ (t.lane l).halt = none ∧ (t.lane l).rpt = some (q, s.time)) ∧
      (∀ k r, (s.lane l).halt = none → (s.lane l).state = 5 → s.siteOfLane l = some k → (s.lane l).mark = some r →
        ∃ t, exec (.flitSlotStart l) s = .next t ∧ (t.lane l).tx.ty = 8 ∧ (t.lane l).mark = none ∧
          fld (t.lane l).tx.payload 0 6 = s.nextStim l k % 2 ^ 48 ∧ fld (t.lane l).tx.payload 6 1 = r % 256) ∧
      (∀ k v, (s.lane l).halt = none → (s.lane l).state = 5 → s.siteOfLane l = some k → (s.lane l).mark = none →
        (s.site k).nextSend (l - (s.site k).first) = some v → v.at_ ≤ s.time →
        (s.siteCredit k v = true →
          ∃ t, exec (.flitSlotStart l) s = .next t ∧ (t.lane l).tx.ty = 1 ∧ (t.lane l).tx.field = v.idx % 2 ^ 24 ∧
            (t.lane l).tx.payload = leBytes 128 (v.vecs.getD (l - (s.site k).first) {}).stim ∧
            (t.lane l).stimSent = ((s.lane l).stimSent + 1) % 2 ^ 32 ∧ (t.site k).high = idxMax (s.site k).high v.idx ∧
            ∀ r, v.late = true → v.toSend = maskOf (List.range (s.site k).lanes) → (s.site k).staged = v :: r →
              (∀ w ∈ r, w.idx ≠ v.idx) →
              (∀ w ∈ (t.site k).staged, w.idx = v.idx → w.at_ = s.time ∧ w.slot = 32 * s.time) ∧
              (∀ w ∈ (t.site k).staged, w.idx ≠ v.idx → 32 * s.time + (s.site k).tv ≤ w.slot)) ∧
        (s.siteCredit k v = false →
          ∃ t, exec (.flitSlotStart l) s = .next t ∧ (t.lane l).tx.ty ≠ 1 ∧ (t.lane l).stimSent = (s.lane l).stimSent ∧
            (∀ w ∈ (t.site k).staged, w.idx = v.idx → w.late = true) ∧
            ((s.lane l).stimCredit = false → (t.lane l).stimWait = some ((s.lane l).stimWait.getD s.time)))) ∧
      ((s.lane l).halt = none → (s.lane l).state = 4 →
        (s.lane l).creditDue = true ∨ (s.lane l).lastStatus ≠ s.linkStatus l →
        ∃ t, exec (.flitSlotStart l) s = .next t ∧ (t.lane l).tx.ty = 6 ∧ (t.lane l).tx.payload = s.linkStatus l ∧
          (t.lane l).creditDue = false ∧ (t.lane l).lastStatus = s.linkStatus l ∧ (t.lane l).statusAt = s.time) ∧
      ((s.lane l).halt = none → (s.lane l).state = 4 → (s.lane l).creditDue = false →
        (s.lane l).lastStatus = s.linkStatus l → (∀ m ∈ (s.lane l).unacked, m.again = false) →
        (∀ m r, (s.lane l).ctrlQ = m :: r → (s.lane l).unacked.length < (s.lane l).feWindow →
          ∃ t, exec (.flitSlotStart l) s = .next t ∧ (t.lane l).tx.ty = 4 ∧ (t.lane l).tx.payload = m.data ∧
            (t.lane l).ctrlQ = r ∧
            (t.lane l).unacked = (s.lane l).unacked ++ [{ m with sends := 1, at_ := s.time }]) ∧
        ((s.lane l).ctrlQ = [] ∨ (s.lane l).feWindow ≤ (s.lane l).unacked.length →
          ∃ t, exec (.flitSlotStart l) s = .next t ∧ (t.lane l).tx.ty = 0 ∧ (t.lane l).tx.payload = s.linkStatus l))) ∧
    ((s.lane l).state ≠ 0 → ¬((s.lane l).state = 2 ∧ (s.lane l).forced = true) →
      ¬((s.lane l).state = 3 ∧ (s.lane l).testing = true) →
      ∃ t, exec (.flitSlotStart l) s = .next t ∧ (s.lane l).codes (t.lane l)) ∧
    (((s.lane l).state = 3 ∧ (s.lane l).phase < 2 ∧ (s.lane l).testing = false) ∨
        ((s.lane l).state = 2 ∧ (s.lane l).forced = false) →
      ∃ t, exec (.flitSlotStart l) s = .next t ∧ (t.lane l).tx = { ty := 7, field := (s.lane l).slot, payload := zeros 128 }) ∧
    ((s.lane l).state = 3 → (s.lane l).phase = 2 → (s.lane l).testing = false →
      ((s.lane l).helloAt = none → (s.lane l).helloAck = false →
        ∃ t, exec (.flitSlotStart l) s = .next t ∧ (t.lane l).tx.ty = 4 ∧
          (t.lane l).tx.payload = ctrlData 1 0 (s.helloBody l) ∧ (t.lane l).helloAt = some s.time) ∧
      ((s.lane l).helloAt ≠ none ∨ (s.lane l).helloAck = true →
        (∀ m r, (s.lane l).ctrlQ = m :: r →
          ∃ t, exec (.flitSlotStart l) s = .next t ∧ (t.lane l).tx.ty = 4 ∧ (t.lane l).tx.payload = m.data ∧
            (t.lane l).ctrlQ = r) ∧
        ((s.lane l).ctrlQ = [] → ∃ t, exec (.flitSlotStart l) s = .next t ∧
          (t.lane l).tx = { ty := 7, field := (s.lane l).slot, payload := zeros 128,
                            flags := if (s.lane l).helloIn.isSome && (s.lane l).helloAck then 1 else 0 }))) ∧
    ((s.lane l).state = 3 → (s.lane l).testing = true →
      ∃ t, exec (.flitSlotStart l) s = .next t ∧ (t.lane l).txTest = bits (s.lane l).cfgNow 5 4 ∧
        (t.lane l).tx = (s.lane l).tx) ∧
    ((s.lane l).inService = true →
      ∃ t, exec (.creditRefreshDue l) s = .next t ∧ t.time = max s.time ((s.lane l).statusAt + 4000) ∧
        (t.lane l).creditDue = true) ∧
    (∀ m r, (s.lane l).inService = true → (s.lane l).unacked = m :: r → m.again = false → m.sends < 4 →
      ∃ t, exec (.ctrlRetransmit l) s = .next t ∧ t.time = max s.time (m.at_ + 8000) ∧
        (t.lane l).unacked = (m :: r).map fun n => { n with again := true }) ∧
    (∀ u, (s.lane l).state = 3 → (s.lane l).phase = 2 → (s.lane l).helloAck = false → (s.lane l).helloAt = some u →
      ∃ t, exec (.helloResend l) s = .next t ∧ t.time = max s.time (u + 8000) ∧ (t.lane l).helloAt = none)

/-- R260 to R264, R270, R299, R302, R304 to R306, R309, R310, R316: a capture frees and is compared with its armed fret, or
is a LATE_CAPTURE with its reason; one of a lane whose site is not UP is discarded; a link status gives credit and
acknowledges messages, in PARAM the HELLO; a control message in sequence is accepted; a MEAS flit under credit enters its
group's FIFO; a flit of a reserved type is errored; a codeword with up to 15 symbols in error is corrected, and one
beyond, or one that fails in bypass mode, is counted with its flits. The model's choices in it: log entries 118 and 120.
-/
def Obligations.LaneReception : Prop :=
  ∀ (s : State) (l k : Nat), s.alone →
    (∀ field flags pl err f v mism, s.siteOfLane l = some k → (s.lane l).state = 5 → s.siteUp k = true →
      (s.site k).quar = false → (∀ d, s.fretDue l = some d → s.time < d) → err < 2 → f.err < 2 →
      v = extIdx (s.cu l).high (field % 2 ^ 24) → (s.cu l).frets.find? (fun g => g.idx == v) = some f →
      mism = ((pl % 2 ^ 1024) ^^^ f.exp) &&& f.en → (s.cu l).destSet = true → (s.cu l).summary = false →
      (s.cu l).fifo.length < 3840 → s.floodCount l < s.floodT l →
      ∃ t, exec (.captReceived l 2 field flags pl err) s = .next t ∧
        (t.cu l).frets = (s.cu l).frets.filter (fun g => g.idx != v) ∧
        (t.cu l).fifo = (s.cu l).fifo ++ (mismatchValues (s.site k).w f.side mism).map (fun x => s.failTok l k f.idx x) ∧
        (t.cu l).pass = (if f.en ≠ 0 ∧ mism = 0 then min (2 ^ 48 - 1) ((s.cu l).pass + 1) else (s.cu l).pass)) ∧
    (∀ field flags pl err v r, s.siteOfLane l = some k → (s.lane l).state = 5 → s.siteUp k = true → (s.site k).quar = false →
      (∀ d, s.fretDue l = some d → s.time < d) → err < 3 → v = extIdx (s.cu l).high (field % 2 ^ 24) →
      (s.cu l).frets.find? (fun g => g.idx == v) = none →
      r = (if s.afterReport k v = true ∧ idxLt (s.cu l).high v = false then 2 else if idxLt v (s.lowFret l k) = true then 1
        else if idxLt (s.cu l).high v = true then 3 else 2) →
      ∃ t, exec (.captReceived l 2 field flags pl err) s = .next t ∧ (t.cu l).frets = (s.cu l).frets ∧
        Rises (s.cu l).cnt (t.cu l).cnt 0x0D 1 ∧
        ((s.cu l).destSet = true → (s.cu l).summary = false → (s.cu l).fifo.length < 3840 → s.floodCount l < s.floodT l →
          (t.cu l).fifo = (s.cu l).fifo ++ [s.failTok l k v (v + r * 2 ^ 48)])) ∧
    (∀ field flags pl err, (s.lane l).state ≠ 0 → (s.lane l).state ≠ 2 → (∀ d, s.fretDue l = some d → s.time < d) → err < 3 →
      s.siteOfLane l = none ∨ (s.siteOfLane l = some k ∧ (s.siteUp k = false ∨ (s.site k).quar = true)) →
      ∃ t, exec (.captReceived l 2 field flags pl err) s = .next t ∧ t.cus = s.cus) ∧
    (∀ ty field flags pl err, (s.lane l).state ≠ 0 → (s.lane l).state ≠ 2 → err < 3 → ty = 1 ∨ 8 ≤ ty →
      ∃ t, exec (.captReceived l ty field flags pl err) s = .next t ∧ Rises (s.lane l).lp (t.lane l).lp 0x0C 1) ∧
    (∀ cr pl, (s.lane l).linked = true →
      ∃ t, exec (.linkStatusReceived l cr pl) s = .next t ∧ (t.lane l).stimLimit = fld pl 0 4 ∧
        (t.lane l).feErr = fld pl 16 4 ∧ (t.lane l).intactAt = s.time ∧
        ∀ m r, (s.lane l).unacked = m :: r → (fld pl 8 1 + 256 - m.seq) % 256 ≤ (s.lane l).unacked.length →
          (t.lane l).unacked = (s.lane l).unacked.drop ((fld pl 8 1 + 256 - m.seq) % 256)) ∧
    (∀ pl, (s.lane l).inService = true → fld pl 1 1 = (s.lane l).rxSeq →
      (fld pl 0 1 = 0x20 ∨ fld pl 0 1 = 0x31 → (s.lg (l / 8)).rx.length < 16 →
        ∃ t, exec (.ctrlReceived l pl) s = .next t ∧ (t.lg (l / 8)).rx = (s.lg (l / 8)).rx ++ [(l, padTo 128 pl)] ∧
          (t.lane l).rxSeq = ((s.lane l).rxSeq + 1) % 256) ∧
      (fld pl 0 1 = 0x21 → ∃ t, exec (.ctrlReceived l pl) s = .next t ∧ Rises (s.lane l).lp (t.lane l).lp 0x13 1 ∧
        (t.lane l).rxSeq = ((s.lane l).rxSeq + 1) % 256) ∧
      (fld pl 0 1 ∉ [0x20, 0x21, 0x31] → ∃ t, exec (.ctrlReceived l pl) s = .next t ∧
        (t.lg (l / 8)).rx = (s.lg (l / 8)).rx ∧ (t.lane l).rxSeq = ((s.lane l).rxSeq + 1) % 256 ∧
        (t.lg (l / 8)).rejected = min 0xFFFFFFFF ((s.lg (l / 8)).rejected + 1))) ∧
    (∀ tag pl, (s.lane l).inService = true → (s.lg (l / 8)).meas.length < 64 →
      ((s.lane l).measLimit + 2 ^ 32 - (s.lane l).measSeen) % 2 ^ 32 ≠ 0 →
      ∃ t, exec (.measReceived l tag pl) s = .next t ∧
        (t.lg (l / 8)).meas = (s.lg (l / 8)).meas ++ [(l, tag % 2 ^ 24, padTo 128 pl)] ∧
        (t.lane l).measSeen = ((s.lane l).measSeen + 1) % 2 ^ 32) ∧
    (∀ cr pl, (s.lane l).state = 3 → (s.lane l).phase = 2 → fld pl 8 1 ≠ 0 → (s.lane l).helloSent = true →
      ∃ t, exec (.linkStatusReceived l cr pl) s = .next t ∧ (t.lane l).helloAck = true) ∧
    (∀ n y, (s.lane l).state = 3 → 16 ≤ y ∨ (s.lane l).cfgNow.testBit 1 = true →
      ∃ t, exec (.uncorrectableCodeword l n y) s = .next t ∧
        Rises (s.lane l).lp (t.lane l).lp (if (s.lane l).cfgNow.testBit 1 then 0x0B else 0x0A) 1 ∧
        Rises (s.lane l).lp (t.lane l).lp 0x0C n ∧ (t.lane l).state = 3) ∧
    (∀ n y, (s.lane l).state ≠ 0 → (s.lane l).state ≠ 2 → (s.lane l).cfgNow.testBit 1 = false → 1 ≤ y → y ≤ 15 →
      ∃ t, exec (.uncorrectableCodeword l n y) s = .next t ∧ Rises (s.lane l).lp (t.lane l).lp 0x08 1 ∧
        Rises (s.lane l).lp (t.lane l).lp 0x09 y ∧ (t.lane l).errRun = 0 ∧ (t.lane l).rxBad = (s.lane l).rxBad)

/-- R310, R315 to R317: training goes from phase EQ to LOCK, after eight consecutive TRAIN flits in place to PARAM, where a
HELLO that passes every check is taken and SITE_SET is queued for a bound lane; with the HELLOs taken at both ends,
nothing left to send, and flag [28] sent and received, the lane goes to UP with a MARK for a bound one, or to IDLE_HELD
when the lane's site is quarantined; a failing HELLO or a phase's timeout returns it to EQ; a signal brings a DOWN lane
back, unless it is forced down. The model's choices in it: log entries 46, 88 and 120. -/
def Obligations.LaneTraining : Prop :=
  ∀ (s : State) (l : Nat),
    ((s.lane l).state = 3 → (s.lane l).phase = 0 → (s.lane l).testing = false →
      ∃ t, exec (.eqComplete l) s = .next t ∧ (t.lane l).state = 3 ∧ (t.lane l).phase = 1) ∧
    (∀ n d, (s.lane l).state = 3 → (s.lane l).phase = 1 → (s.lane l).trainOk = 7 → (s.lane l).trainNext = n →
      ∃ t, exec (.trainReceived l n d) s = .next t ∧ (t.lane l).state = 3 ∧ (t.lane l).phase = 2) ∧
    (∀ b, (s.lane l).state = 3 → (s.lane l).phase = 2 → s.helloFail l b = 0 → (s.lane l).helloIn = none →
      (s.lane l).flagged = false →
      ∃ t, exec (.helloReceived l b) s = .next t ∧ (t.lane l).helloIn = some b ∧ (t.lane l).state = 3 ∧
        ∀ k, s.siteOfLane l = some k →
          ∃ m, (t.lane l).ctrlQ = (s.lane l).ctrlQ ++ [m] ∧ m.data.length = 128 ∧ fld m.data 0 1 = 0x10 ∧
            slice m.data 4 10 = (s.site k).setBody k) ∧
    (∀ b n, (s.lane l).state = 3 → (s.lane l).phase = 2 → (s.lane l).helloIn = some b →
      (s.lane l).helloAck = true ∨ (s.lane l).helloSent = true → (s.lane l).ctrlQ = [] →
      ∃ t, exec (.trainReceived l n true) s = .next t ∧ (t.lane l).farDone = true ∧ (t.lane l).helloAck = true ∧
        ((s.lane l).flagged = false → (t.lane l).state = 3) ∧
        ((s.lane l).flagged = true → (t.lane l).feHold = some (fld b 8 4) ∧ (t.lane l).feId = fld b 0 8 ∧
          (t.lane l).feWindow = fld b 12 1 ∧ (s.siteOfLane l = none → (t.lane l).state = 5 ∧ (t.lane l).mark = none) ∧
          ∀ k, s.siteOfLane l = some k → (t.lane l).state = (if (s.site k).quar then 4 else 5) ∧
            (t.lane l).mark = (if (s.site k).quar then none else some 1))) ∧
    (∀ b, (s.lane l).state = 3 → (s.lane l).phase = 2 → (s.lane l).testing = false → (s.lane l).helloIn = some b →
      (s.lane l).helloAck = true → (s.lane l).ctrlQ = [] → (s.lane l).farDone = true →
      ∃ t, exec (.flitSlotStart l) s = .next t ∧ (t.lane l).flagged = true ∧
        ((s.siteOfLane l = none ∨ ∃ k, s.siteOfLane l = some k ∧ (s.site k).quar = false) → (t.lane l).state = 5)) ∧
    (∀ b, (s.lane l).state = 3 → (s.lane l).phase = 2 → s.helloFail l b ≠ 0 →
      ∃ t, exec (.helloReceived l b) s = .next t ∧ (t.lane l).state = 3 ∧ (t.lane l).phase = 0 ∧
        (t.lane l).fail = s.helloFail l b ∧ (t.lane l).failPhase = some 2 ∧ Rises (s.lane l).lp (t.lane l).lp 0x0E 1) ∧
    ((s.lane l).state = 3 → (s.lane l).phase < 3 → (s.lane l).testing = false →
      ∃ t, exec (.trainingPhaseTimeout l) s = .next t ∧
        t.time = max s.time ((s.lane l).phaseAt +
          (if (s.lane l).phase = 0 then 600000 else if (s.lane l).phase = 1 then 80000 else 100000)) ∧
        (t.lane l).state = 3 ∧ (t.lane l).phase = 0 ∧ (t.lane l).failPhase = some (s.lane l).phase ∧
        Rises (s.lane l).lp (t.lane l).lp 0x0E 1) ∧
    ((s.lane l).state = 2 → (s.lane l).forced = false →
      ∃ t, exec (.signalDetected l) s = .next t ∧ (t.lane l).state = 3 ∧ (t.lane l).phase = 0) ∧
    ((s.lane l).state = 2 → (s.lane l).forced = true →
      (∃ t, exec (.signalDetected l) s = .next t ∧ (t.lane l).state = 2) ∧
      (s.domOn (lgDom (l / 8)) = true → ∃ t, exec (.laneRetrain l) s = .next t ∧ (t.lane l).state = 3)) ∧
    ((s.lane l).state = 3 → ∃ t, exec (.signalLost l) s = .next t ∧ (t.lane l).state = 2 ∧ (t.lane l).forced = false)

/-- R319, R320 (Table 09-12): each cause loses a lane in the states that it can meet. -/
def Obligations.LaneLosses : Prop :=
  ∀ (s : State) (l : Nat), s.alone → l < 128 →
    ((s.lane l).linked = true → Loses s (.signalLost l) l 0 1 2) ∧
    (∀ n y, (s.lane l).linked = true → (s.lane l).errTimes = [] → n < 32 → 7 ≤ (s.lane l).errRun →
      16 ≤ y ∨ (s.lane l).cfgNow.testBit 1 = true → Loses s (.uncorrectableCodeword l n y) l 0 2 3) ∧
    (∀ ty f g p e, (s.lane l).linked = true → 31 ≤ ((s.lane l).errTimes.filter fun u => decide (s.time < u + 20000)).length →
      (e = 3 ∧ ((s.lane l).cfgNow.testBit 1 = false ∨ (s.lane l).errRun < 7)) ∨ (e < 3 ∧ (ty = 1 ∨ 8 ≤ ty)) →
      Loses s (.captReceived l ty f g p e) l 0 3 3) ∧
    ((s.lane l).linked = true → Loses s (.noIntactFlitTimeout l) l ((s.lane l).intactAt + 2000) 4 3) ∧
    (∀ n, (s.lane l).inService = true → Loses s (.trainReceived l n false) l 0 5 3) ∧
    (∀ w, (s.lane l).state = 5 → (s.lane l).stimWait = some w → Loses s (.stimCreditTimeout l) l (w + 20000) 6 3) ∧
    (∀ q u, (s.lane l).inService = true → (s.lane l).rpt = some (q, u) →
      Loses s (.haltReportTimeout l) l (u + 16000) 7 3) ∧
    ((s.lane l).inService = true → s.domOn (lgDom (l / 8)) = true →
      Loses s (.laneRetrain l) l 0 8 3 ∧ Loses s (.laneForceDown l) l 0 8 2 ∧
        ∃ t, exec (.laneForceDown l) s = .next t ∧ (t.lane l).forced = true) ∧
    (∀ m r, (s.lane l).inService = true → (s.lane l).unacked = m :: r → m.again = false → 4 ≤ m.sends →
      Loses s (.ctrlRetransmit l) l (m.at_ + 8000) 9 3)

/-- R330, R331, R411: LANE_SEND queues its message on a lane in service, LANE_RECV hands over a group's oldest message,
firmware's staged message goes to the selected lane, the FIFOs give up their heads, a counter reset clears the counters.
The model's choices in it: log entries 26 and 88. -/
def Obligations.LaneCommands : Prop :=
  ∀ (s : State) (m g : Nat) (a : List Byte),
    (∀ l n, fld a 2 1 = n → fld a 0 1 = l → s.mbServes m 0x23 (4 + n) [(0, 3), (4, n)] a → n ≤ 120 → fld a 1 1 = 0x30 →
      l < s.nLanes →
      ((s.lane l).inService = true → ∃ t x, exec (.laneSend m) s = .next t ∧ (t.mb m).state = 2 ∧
        (t.lane l).ctrlQ = (s.lane l).ctrlQ ++ [x] ∧ x.by_ = 2 + m ∧ x.seq = (s.lane l).txSeq ∧
        x.data = ctrlData 0x30 x.seq (slice a 4 n) ∧ (t.lane l).txSeq = ((s.lane l).txSeq + 1) % 256) ∧
      ((s.lane l).inService = false →
        ∃ t, exec (.laneSend m) s = .next t ∧ (t.mb m).doneWith (s.mb m) NOT_ACTIVE [])) ∧
    (∀ l p r, s.mbServes m 0x24 1 [(0, 1)] a → g < s.nLg →
      fld a 0 1 = g ∨ (fld a 0 1 = 0xFF ∧ ∀ j < g, (s.lg j).rx = []) → (s.lg g).rx = (l, p) :: r →
      ∃ t, exec (.laneRecv m) s = .next t ∧ (t.lg g).rx = r ∧
        (t.mb m).doneWith (s.mb m) OK
          (leBytes 1 l ++ leBytes 1 (fld p 0 1) ++ leBytes 1 (fld p 2 1) ++ [0] ++ slice p 4 (fld p 2 1))) ∧
    (s.domOn (lgDom g) = true →
      (∀ l b, l = 8 * g + s.ioReg (lgBase (8 * g) + 2) 0 % 8 → b = (s.lg g).stage.flatMap (leBytes 4) →
        (s.lg g).busy = false → (s.lane l).inService = true →
        ∃ t x, exec (.ctlMessageQueue g) s = .next t ∧ (t.lg g).busy = true ∧ (t.lg g).stageIdx = 0 ∧
          (t.lane l).ctrlQ = (s.lane l).ctrlQ ++ [x] ∧ x.by_ = 1 ∧
          x.data = ctrlData (fld b 0 1) (s.lane l).txSeq ((b.drop 4).take (min 120 (fld b 2 1)))) ∧
      (∀ e r, (s.lg g).rx = e :: r → ∃ t, exec (.ctlFifoPopRead g false) s = .next t ∧ (t.lg g).rx = r ∧
        (t.lg g).meas = (s.lg g).meas) ∧
      (∀ e r, (s.lg g).meas = e :: r → ∃ t, exec (.ctlFifoPopRead g true) s = .next t ∧ (t.lg g).meas = r ∧
        (t.lane e.1).measLimit = ((s.lane e.1).measLimit + 1) % 2 ^ 32 ∧ (t.lg g).rx = (s.lg g).rx)) ∧
    (∀ l, s.domOn (lgDom (l / 8)) = true → ∃ t c, exec (.lpCntClr l) s = .next t ∧
      s.Cleared .lp l 0x08 0x11 (s.lane l).lp c ∧ s.Cleared .lp l 0x13 0x13 c (t.lane l).lp)

/-! ### Fabric, DDR5, Shelf, tally units (chapter 10, R182, R183) -/

/-- R335 to R338, R343, R527: the oldest packet of an input port whose turn it is goes one hop along its row and then its
column, or enters its endpoint's buffer; a failed check costs a replay and 64 failed replays in a row fail the link; a
request that meets a failed link completes with NOT_ACTIVE; a packet for a sleeping domain is held and wakes it; a loaded
spare comes into service. The model's choices in it: log entries 12, 28 and 130. -/
def Obligations.FabricCommands : Prop :=
  ∀ (s : State) (net chan r i : Nat) (p : Pkt), s.headAt net chan r i = some p → r < 36 → net < 4 →
    net ≠ 0 ∨ chan ≠ 1 ∨ s.contenders 0 0 r (nextDir r (routerOf p.dst)) = [] →
    (∀ d, nextDir r (routerOf p.dst) = some d → s.turn net chan r (some d) = some i →
      (Tbl.get {} s.net.links ((net * 36 + r) * 4 + d)).failed = false →
      (∃ t, exec (.packetForward net chan r i true) s = .next t ∧
        t.net.transit = s.net.transit.erase p ++ [{ p with router := neighbour r d, inport := (d + 2) % 4 }] ∧
        t = { s with net := t.net }) ∧
      (∃ t, exec (.packetForward net chan r i false) s = .next t ∧ Rises s.net.replay t.net.replay (neighbour r d) 1 ∧
        ((Tbl.get {} s.net.links ((net * 36 + r) * 4 + d)).bad < 64 → t.net.transit = s.net.transit) ∧
        ((Tbl.get {} s.net.links ((net * 36 + r) * 4 + d)).bad = 64 →
          (Tbl.get {} t.net.links ((net * 36 + r) * 4 + d)).failed = true))) ∧
    (∀ d q, nextDir r (routerOf p.dst) = some d → (Tbl.get {} s.net.links ((net * 36 + r) * 4 + d)).failed = true →
      p.body = .mem q →
      ∃ t, exec (.packetForward net chan r i true) s = .next t ∧ Replies t q.pe q.slot 0 false 0) ∧
    (∀ n k, nextDir r (routerOf p.dst) = none → p.dst = .pe n → p.body = .tok k → p.chk = none → s.turn net chan r none = some i →
      (s.pe n).failed = false → s.loadingSpare n = false → s.epRoom p = true →
      (s.domOn (quadDom n) = true → ∃ t, exec (.packetForward net chan r i true) s = .next t ∧
        t.net.transit = s.net.transit.erase p ∧
        (if p.chan = 0 then (t.pe n).inU = (s.pe n).inU ++ [k] else (t.pe n).inG = (s.pe n).inG ++ [k])) ∧
      (s.domOn (quadDom n) = false → (s.net.holdBuf.filter
          fun q => q.net == p.net && q.chan == p.chan && q.router == p.router).length < 4 →
        ∃ t, exec (.packetForward net chan r i true) s = .next t ∧ t.net.transit = s.net.transit.erase p ∧
          t.net.holdBuf = s.net.holdBuf ++ [p] ∧ (t.dom (quadDom n)).wake = true ∧ (t.pe n).inU = (s.pe n).inU)) ∧
    (∀ spare k old, s.pat.awaiting.find? (fun x => x.2.2 == spare) = some (k, old, spare) →
      s.domOn (quadDom spare) = true → (s.pe spare).failed = false →
      ∃ t, exec (.spareInService spare) s = .next t ∧ t.pat.awaiting = s.pat.awaiting.filter (fun x => x.2.2 != spare) ∧
        Tbl.get 0 t.led.tot 3 = Tbl.get 0 s.led.tot 3 + 1)

/-- R350, R353, R354, R368: a channel is enabled only with DC0's geometry and at most 32 GiB, and the shares that no write
has changed are set anew; a share that would overdraw the usable bandwidth is refused; a window starts with nothing
charged; a hot channel derates the budget; the scrub reads the next line when it falls due and counts what it finds.
R351, R352, R354: a channel serves its next request: a load answers with the bytes, poisoned where a line is
uncorrectable; a store writes exactly its bytes and is answered once no steward caches the line, which a notice tells the
stewards to drop. A dropped cache line answers the writes that waited for it. The model's choices in it: log entries 32,
37, 91 and 111. -/
def Obligations.DdrChannelCommands : Prop :=
  (∀ (s : State) (c : Nat),
     (∀ v : Word, s.domOn (dcDom c) = true → c < s.nDc → (s.dcCfg c).testBit 8 = false → v.toNat.testBit 8 = true →
       v.toNat % 4 ≠ 3 → v.toNat / 8 % 4 ≠ 3 →
       (v.toNat.testBit 2 = true ∧ v.toNat / 8 % 4 ≠ 0 ∨ c ≠ 0 ∧ v.toNat % 32 ≠ s.dcCfg 0 % 32 →
         ∃ t, exec (.dcCfgEnable c v) s = .next t ∧ t.dcCfg c = s.dcCfg c ∧ (t.dc c).trained = (s.dc c).trained) ∧
       (¬(v.toNat.testBit 2 = true ∧ v.toNat / 8 % 4 ≠ 0) → c = 0 ∨ v.toNat % 32 = s.dcCfg 0 % 32 →
         ∃ t, exec (.dcCfgEnable c v) s = .next t ∧ t.dcCfg c = v.toNat % 32 + 256 ∧ (t.dc c).trained = true ∧
           ∀ u < 8, s.shareWritten.testBit u = false →
             t.share u = max 1 ([64, 8, 64, 160, 64, 16, 8, 1].getD u 0 * t.ddrUsable / 400))) ∧
     (∀ u (v : Word), u < 8 →
       (s.ddrUsable < ((List.range 8).map fun w => if w = u then v.toNat % 1024 else s.share w).sum →
         ∃ t, exec (.ddrShareWrite u v) s = .next t ∧ t.share u = s.share u ∧ t.budgetRefused = true) ∧
       (((List.range 8).map fun w => if w = u then v.toNat % 1024 else s.share w).sum ≤ s.ddrUsable →
         ∃ t, exec (.ddrShareWrite u v) s = .next t ∧ t.share u = v.toNat % 1024 ∧
           (∀ w < 8, w ≠ u → t.share w = s.share w) ∧ t.budgetRefused = s.budgetRefused)) ∧
     (∀ upset, ∃ t, exec (.ddrScheduleWindow c upset) s = .next t ∧ t.time = max s.time ((s.dc c).winAt + 2000) ∧
       (t.dc c).used = [] ∧ (t.dc c).winAt = t.time ∧ (t.dc c).q = (s.dc c).q ∧ t.ddrPoison = s.ddrPoison ∧
       ∀ l e, upset = some (l, e) → e = 1 ∨ e = 2 → t.ddrUpset = s.ddrUpset ++ [(l, e)]) ∧
     (∀ hot, ∃ t, exec (.refreshDerate c hot) s = .next t ∧ (t.dc c).hot = hot ∧
       (s.derated = false → c < s.nDc → hot = true → t.derated = true ∧ t.host.alert.testBit 11 = true)) ∧
     (∀ err, s.dcOn c = true → s.ioReg (dcReg c 6) 24 % 256 ≠ 0 → (s.dc c).selfRef = false → s.ddrUpset = [] →
       ∃ t, exec (.patrolScrub c err) s = .next t ∧ s.scrubDue c = some ((s.dc c).scrubAt +
           s.ioReg (dcReg c 6) 24 % 256 * 7200000000000 * ((s.dc c).scrub / 128) / (s.chanGiB * 2 ^ 23)) ∧
         (∀ d, s.scrubDue c = some d → t.time = max s.time d) ∧
         (t.dc c).scrub = (if (s.dc c).scrub + 128 < s.chanGiB * 2 ^ 30 then (s.dc c).scrub + 128 else 0) ∧
         (t.dc c).ce = (if err = 1 then min 0xFFFFFFFF ((s.dc c).ce + 1) else (s.dc c).ce) ∧
         (t.dc c).ue = (if err = 2 then min 0xFFFFFFFF ((s.dc c).ue + 1) else (s.dc c).ue))) ∧
  (∀ (s : State) (c err : Nat) (r : MemReq), s.domOn (dcDom c) = true → (s.dc c).selfRef = false → s.ddrNext c = some r →
     (∀ n sg, r.op = .ld n sg → 0 < n → ∃ t, exec (.ddrRequestServed c err) s = .next t ∧ (t.dc c).q = (s.dc c).q.erase r ∧
       t.ddr = s.ddr ∧ Replies t r.pe r.slot (extend n sg (leNat (s.ddrBytes r.addr n))) (t.poisonedAt r.addr n) 0 ∧
       (err = 2 → s.ddrUpset = [] → r.addr / 128 ∈ t.ddrPoison ∧ t.host.alert.testBit 11 = true ∧
         ∀ k, s.chanOfAddr r.addr = k →
           (t.dc k).ue = min 0xFFFFFFFF ((s.dc k).ue + 1) ∧ (t.dc k).ueAddr = r.addr / 128 * 128) ∧
       (err = 1 → s.ddrUpset = [] → t.ddrPoison = s.ddrPoison ∧
         ∀ k, s.chanOfAddr r.addr = k → (t.dc k).ce = min 0xFFFFFFFF ((s.dc k).ce + 1))) ∧
     (∀ n, r.op = .st n → 0 < n → s.ddr.wf 0 = true → ∃ t, exec (.ddrRequestServed c err) s = .next t ∧
       (t.dc c).q = (s.dc c).q.erase r ∧ t.ddrBytes r.addr n = leBytes n r.b ∧
       (∀ a, a < r.addr ∨ r.addr + n ≤ a → Mem.read 0 t.ddr a = Mem.read 0 s.ddr a) ∧
       (s.cachedAt r.addr = false → Replies t r.pe r.slot 0 false 0) ∧
       (s.cachedAt r.addr = true → Notice.inval (r.addr / 64) ∈ t.net.notices ∧ ∃ w ∈ (t.dc c).invWait, w.1 = r.addr / 64 ∧ w.2.pe = r.pe ∧ w.2.slot = r.slot)) ∧
     (∀ st line, (st, line) ∈ s.net.invIn → (s.updCore st fun k => { k with cache := k.cache.del line }).cachedAt (line * 64) = false →
       ∃ t, exec (.cacheInvalidation st line) s = .next t ∧ Tbl.find (t.core st).cache line = none ∧
         ∀ k < 8, (t.dc k).invWait = (s.dc k).invWait.filter (fun x => x.1 != line) ∧
           ∀ x ∈ (s.dc k).invWait, x.1 = line → Replies t x.2.pe x.2.slot x.2.b x.2.sched 0))

/-- R168, R358 to R363: an atomic unit serves the request of highest priority, answers with the old value and writes the new
one, or answers poisoned and leaves a word that carries an uncorrectable error; at the peg alias it acquires a free peg
for the actor engine; waiting requests rise a level each µs; a Shelf bank serves its lowest port, and of two writes that
meet in one word the lower port's bytes stand. The model's choices in it: log entries 32 and 38. -/
def Obligations.AtomicsAndShelf : Prop :=
  ∀ (s : State) (u : Nat) (r : MemReq),
    (∀ old err, nextAtomic (s.shelfAtomics.filter s.inOrder) = some r → r.addr < 0x7FE000 → s.shelf.wf 0 = true →
      old = leNat (Mem.readBytes 0 s.shelf r.addr 8) →
      ∃ t, exec (.atomicService 8 err) s = .next t ∧ t.shelfAtomics = s.shelfAtomics.erase r ∧
        (err = 2 ∨ s.shelfBadAt r.addr 8 = true → t.shelf = s.shelf ∧ Replies t r.pe r.slot old true 0) ∧
        (err < 2 → s.shelfBadAt r.addr 8 = false → Replies t r.pe r.slot old false 0 ∧
          Mem.readBytes 0 t.shelf r.addr 8 = leBytes 8 (atomNew r.op 64 old r.b r.c) ∧
          ∀ a, a < r.addr ∨ r.addr + 8 ≤ a → Mem.read 0 t.shelf a = Mem.read 0 s.shelf a)) ∧
    (∀ n err, nextAtomic (s.shelfAtomics.filter s.inOrder) = some r → r.addr = 0x7FE000 + 8 * n → s.pegRight 6 n = true →
      (s.peg n).held = false → (s.peg n).waits = [] →
      ∃ t v, exec (.atomicService 8 err) s = .next t ∧ (t.peg n).held = true ∧ (t.peg n).owner = 6 ∧
        (t.peg n).ownerId = (s.ctx r.ctx).job % 4096 ∧ Replies t r.pe r.slot v false 0 ∧ v.testBit 31 = true) ∧
    (∀ old err, u < 8 → s.domOn (dcDom u) = true → (s.dc u).selfRef = false →
      nextAtomic ((s.dc u).atomics.filter s.inOrder) = some r → s.ddr.wf 0 = true → old = leNat (s.ddrBytes r.addr 8) →
      ∃ t, exec (.atomicService u err) s = .next t ∧ (t.dc u).atomics = (s.dc u).atomics.erase r ∧
        (err = 2 ∨ s.poisonedAt r.addr 8 = true → t.ddr = s.ddr ∧ Replies t r.pe r.slot old true 0) ∧
        (err < 2 → s.poisonedAt r.addr 8 = false → s.ddrUpset = [] → t.ddrBytes r.addr 8 = leBytes 8 (atomNew r.op 64 old r.b r.c) ∧
          (s.cachedAt r.addr = false → Replies t r.pe r.slot old false 0))) ∧
    (s.atomQ u = [r] → u ≤ 8 →
      ∃ t, exec (.atomicAging u) s = .next t ∧ t.time = max s.time (r.since + 2000) ∧
        t.atomQ u = [{ r with prio := min 15 (r.prio + 1), since := r.since + 2000 }]) ∧
    (∀ x rest n sg err, ((List.range 4).filterMap fun p => s.shHead u p) = x :: rest → x.st = none → x.req.addr < 0x7FE000 →
      x.req.op = .ld n sg → 0 < n →
      ∃ t, exec (.shelfAccess u err) s = .next t ∧ t.shelfQ = s.shelfQ.erase x ∧ t.shelf = s.shelf ∧
        Replies t x.req.pe x.req.slot (extend n sg (leNat (Mem.readBytes 0 s.shelf x.req.addr n))) (t.shelfBadAt x.req.addr n) 0 ∧
        (err = 2 → t.shelfBadAt x.req.addr n = true) ∧ (err < 2 → t.shelfBad = s.shelfBad) ∧
        t.ioReg 0x2C20 0 = min 0xFFFFFFFF (s.ioReg 0x2C20 0 + rest.length)) ∧
    (∀ x y n m err, ((List.range 4).filterMap fun p => s.shHead u p) = [x, y] → x.st = none → y.st = none →
      x.req.addr < 0x7FE000 → y.req.addr < 0x7FE000 → x.req.op = .st n → y.req.op = .st m → s.shelf.wf 0 = true →
      x.req.addr / 8 = y.req.addr / 8 →
      ∃ t, exec (.shelfAccess u err) s = .next t ∧ Mem.readBytes 0 t.shelf x.req.addr n = leBytes n x.req.b ∧
        (x.req.addr ≠ y.req.addr → n = 1 → m = 1 → Mem.readBytes 0 t.shelf y.req.addr 1 = leBytes 1 y.req.b) ∧
        Replies t x.req.pe x.req.slot 0 false 0 ∧ Replies t y.req.pe y.req.slot 0 false 0 ∧
        t.ioReg 0x2C21 0 = min 0xFFFFFFFF (s.ioReg 0x2C21 0 + 1))

/-- R163, R165, R563: ILOAD of a full element answers its value, and of any other joins the element's readers; ISTORE fills
an element and answers its readers and itself, or raises fault 0x24 on a full one; RESET empties an element, or raises
fault 0x25 on a deferred one; an ILOAD that would be deferred for a dying context is withdrawn. -/
def Obligations.IStructureRequests : Prop :=
  ∀ (s : State) (c : Nat) (r : MemReq) (q : List MemReq), s.domOn (dcDom c) = true → (s.dc c).selfRef = false →
    (s.dc c).istr = r :: q → s.inOrder r = true → s.ddr.wf 0 = true →
    (r.op = .iload → s.elemState r.addr = 1 → ∃ t, exec (.istructRequest c) s = .next t ∧ (t.dc c).istr = q ∧ t.ddr = s.ddr ∧
      Replies t r.pe r.slot (leNat (s.ddrBytes r.addr 8)) (t.poisonedAt r.addr 16) 0) ∧
    (r.op = .iload → s.elemState r.addr ≠ 1 → s.cm.istrDying.contains r.ctx = true →
      ∃ t, exec (.istructRequest c) s = .next t ∧ (t.dc c).istr = q ∧ t.ddr = s.ddr ∧ t.istr = s.istr ∧
        t.net.transit = s.net.transit) ∧
    (r.op = .iload → s.elemState r.addr ≠ 1 → s.cm.istrDying.contains r.ctx = false → ∃ t, exec (.istructRequest c) s = .next t ∧ (t.dc c).istr = q ∧
      t.elemState r.addr = 2 ∧ Tbl.get [] t.istr r.addr = Tbl.get [] s.istr r.addr ++ [r] ∧
      t.net.transit = s.net.transit ∧ ∀ a, a < r.addr + 8 ∨ r.addr + 16 ≤ a → Mem.read 0 t.ddr a = Mem.read 0 s.ddr a) ∧
    (r.op = .istore → s.elemState r.addr = 1 → ∃ t, exec (.istructRequest c) s = .next t ∧ (t.dc c).istr = q ∧ t.ddr = s.ddr ∧
      Replies t r.pe r.slot 0 false 0x24) ∧
    (r.op = .istore → s.elemState r.addr ≠ 1 → ∃ t, exec (.istructRequest c) s = .next t ∧ (t.dc c).istr = q ∧
      t.elemState r.addr = 1 ∧ t.ddrBytes r.addr 8 = leBytes 8 r.b ∧
      (∀ k ∈ Tbl.get [] s.istr r.addr, Replies t k.pe k.slot r.b false 0) ∧
      (s.cachedAt r.addr = false → Replies t r.pe r.slot 0 false 0)) ∧
    (r.op = .ireset → s.elemState r.addr = 2 → ∃ t, exec (.istructRequest c) s = .next t ∧ (t.dc c).istr = q ∧ t.ddr = s.ddr ∧
      Replies t r.pe r.slot 0 false 0x25) ∧
    (r.op = .ireset → s.elemState r.addr ≠ 2 → ∃ t, exec (.istructRequest c) s = .next t ∧ (t.dc c).istr = q ∧
      t.elemState r.addr = 0 ∧ (s.cachedAt r.addr = false → Replies t r.pe r.slot 0 false 0))

/-- R182, R183: a tally unit serves its oldest request and answers it: SETUP and CLEAR empty a space, ADD counts a new cell
once in its row and its column and says when a line must be repaired, a duplicate or an overflowed space counts nothing,
the queries give one line's count, SCAN names a must-repair line. The model's choices in it: log entry 90. -/
def Obligations.TallyCommands : Prop :=
  ∀ (s : State) (u : Nat) (r : TallyReq) (q : List TallyReq) (x : Tally) (row col n m : Nat), s.domOn (tuDom u) = true →
    s.tu u = x → x.q = r :: q → row = r.a % 2 ^ 32 → col = r.a / 2 ^ 32 % 2 ^ 32 → (x.rows.map (·.1)).Nodup →
    (x.cols.map (·.1)).Nodup →
    (r.op = 0 → ∃ t, exec (.tallySetup u) s = .next t ∧ (t.tu u).q = q ∧ Replies t r.pe r.slot 0 false 0 ∧
      (t.tu u).cells = x.cells.filter (fun p => p.1 != r.space) ∧
      Tbl.get {} (t.tu u).spaces r.space = { rs := r.a % 2 ^ 16, cs := r.a / 2 ^ 16 % 2 ^ 16, ovf := false }) ∧
    (r.op = 1 → (x.space r.space).ovf = false → (r.space, row, col) ∉ x.cells → x.cells.length < 16384 →
      (findLine x.rows r.space row).isSome = true ∨ (freeLine x.rows).isSome = true →
      (findLine x.cols r.space col).isSome = true ∨ (freeLine x.cols).isSome = true →
      n = min 0xFFFF (lineCount x.rows r.space row + 1) → m = min 0xFFFF (lineCount x.cols r.space col + 1) →
      ∃ t, exec (.tallyAdd u) s = .next t ∧ (t.tu u).q = q ∧ (t.tu u).cells = x.cells ++ [(r.space, row, col)] ∧
        lineCount (t.tu u).rows r.space row = n ∧ lineCount (t.tu u).cols r.space col = m ∧
        Replies t r.pe r.slot (n + m * 2 ^ 16 + (if (x.space r.space).cs < n then 2 ^ 32 else 0) +
          (if (x.space r.space).rs < m then 2 ^ 33 else 0)) false 0) ∧
    (r.op = 1 → (x.space r.space).ovf = false → (r.space, row, col) ∈ x.cells → n = lineCount x.rows r.space row →
      m = lineCount x.cols r.space col →
      ∃ t, exec (.tallyAdd u) s = .next t ∧ t.tu u = { x with q := q } ∧
        Replies t r.pe r.slot (n + m * 2 ^ 16 + (if (x.space r.space).cs < n then 2 ^ 32 else 0) +
          (if (x.space r.space).rs < m then 2 ^ 33 else 0) + 2 ^ 35) false 0) ∧
    (r.op = 1 → (x.space r.space).ovf = true → n = lineCount x.rows r.space row → m = lineCount x.cols r.space col →
      ∃ t, exec (.tallyAdd u) s = .next t ∧ t.tu u = { x with q := q } ∧
        Replies t r.pe r.slot (n + m * 2 ^ 16 + (if (x.space r.space).cs < n then 2 ^ 32 else 0) +
          (if (x.space r.space).rs < m then 2 ^ 33 else 0) + 2 ^ 34) false 0) ∧
    (r.op = 2 → n = lineCount x.rows r.space row → ∃ t, exec (.tallyQryRow u) s = .next t ∧ t.tu u = { x with q := q } ∧
      Replies t r.pe r.slot (n + (if (x.space r.space).cs < n then 2 ^ 32 else 0) +
        (if (x.space r.space).ovf then 2 ^ 34 else 0)) false 0) ∧
    (r.op = 3 → m = lineCount x.cols r.space row → ∃ t, exec (.tallyQryCol u) s = .next t ∧ t.tu u = { x with q := q } ∧
      Replies t r.pe r.slot (m * 2 ^ 16 + (if (x.space r.space).rs < m then 2 ^ 33 else 0) +
        (if (x.space r.space).ovf then 2 ^ 34 else 0)) false 0) ∧
    (∀ i l, r.op = 4 → r.a.testBit 16 = false →
      x.rows.find? (fun p => p.2.space == r.space && r.a % 2 ^ 14 ≤ p.1 && (x.space r.space).cs < p.2.count) = some (i, l) →
      ∃ t, exec (.tallyScan u) s = .next t ∧ t.tu u = { x with q := q } ∧
        Replies t r.pe r.slot (l.addr + i * 2 ^ 32 + 2 ^ 46) false 0) ∧
    (r.op = 5 → ∃ t, exec (.tallyClear u) s = .next t ∧ (t.tu u).q = q ∧ Replies t r.pe r.slot 0 false 0 ∧
      (t.tu u).cells = x.cells.filter (fun p => p.1 != r.space) ∧ (Tbl.get {} (t.tu u).spaces r.space).ovf = false)

/-! ### Stewards (chapter 11) -/

/-- R370, R378, R379: each arithmetic instruction gives rd its result and moves on; nothing else changes. The model's choices
in it: log entry 89. -/
def Obligations.StewardArithmetic : Prop :=
  ∀ (s : State) (st w : Nat) (a b i : BitVec 32), s.runs st w → s.xa st w = a → s.xb st w = b →
    i = (BitVec.ofNat 18 w).signExtend 32 →
    (sMajor w = 1 →
      (sFn w = 0 → Puts s (.stAdd st) st w (a + b).toNat) ∧ (sFn w = 1 → Puts s (.stSub st) st w (a - b).toNat) ∧
      (sFn w = 2 → Puts s (.stAnd st) st w (a &&& b).toNat) ∧ (sFn w = 3 → Puts s (.stOr st) st w (a ||| b).toNat) ∧
      (sFn w = 4 → Puts s (.stXor st) st w (a ^^^ b).toNat) ∧ (sFn w = 5 → Puts s (.stAndn st) st w (a &&& ~~~b).toNat) ∧
      (sFn w = 6 → Puts s (.stShl st) st w (a <<< (b.toNat % 32)).toNat) ∧
      (sFn w = 7 → Puts s (.stShr st) st w (a >>> (b.toNat % 32)).toNat) ∧
      (sFn w = 8 → Puts s (.stSar st) st w (a.sshiftRight (b.toNat % 32)).toNat) ∧
      (sFn w = 9 → Puts s (.stRotl st) st w (a.rotateLeft (b.toNat % 32)).toNat) ∧
      (sFn w = 10 → Puts s (.slt st) st w (if a.toInt < b.toInt then 1 else 0)) ∧
      (sFn w = 11 → Puts s (.sltu st) st w (if a.toNat < b.toNat then 1 else 0)) ∧
      (sFn w = 12 → Puts s (.stMul st) st w (a * b).toNat) ∧
      (sFn w = 13 → Puts s (.stMulhu st) st w (a.toNat * b.toNat / 2 ^ 32)) ∧
      (sFn w = 14 → Puts s (.stMulhs st) st w (BitVec.ofInt 32 (a.toInt * b.toInt / 2 ^ 32)).toNat) ∧
      (sFn w = 15 → Puts s (.stDivu st) st w (if b = 0 then 0xFFFFFFFF else a.toNat / b.toNat)) ∧
      (sFn w = 16 → Puts s (.stRemu st) st w (if b = 0 then a.toNat else a.toNat % b.toNat)) ∧
      (sFn w = 17 → Puts s (.stDivs st) st w
        (if b = 0 then 0xFFFFFFFF else (BitVec.ofInt 32 (a.toInt.tdiv b.toInt)).toNat)) ∧
      (sFn w = 18 → Puts s (.stRems st) st w
        (if b = 0 then a.toNat else (BitVec.ofInt 32 (a.toInt.tmod b.toInt)).toNat))) ∧
    (sMajor w = 2 → Puts s (.addi st) st w (a + i).toNat) ∧
    (sMajor w = 3 → Puts s (.slti st) st w (if a.toInt < i.toInt then 1 else 0)) ∧
    (sMajor w = 4 → Puts s (.sltiu st) st w (if a.toNat < i.toNat then 1 else 0)) ∧
    (sMajor w = 5 → Puts s (.andi st) st w (a.toNat &&& w % 2 ^ 18)) ∧
    (sMajor w = 6 → Puts s (.ori st) st w (a.toNat ||| w % 2 ^ 18)) ∧
    (sMajor w = 7 → Puts s (.xori st) st w (a.toNat ^^^ w % 2 ^ 18)) ∧
    (sMajor w = 8 → w / 2 ^ 7 % 2 ^ 11 = 0 →
      (w / 2 ^ 5 % 4 = 0 → Puts s (.shiShl st) st w (a <<< (w % 32)).toNat) ∧
      (w / 2 ^ 5 % 4 = 1 → Puts s (.shiShr st) st w (a >>> (w % 32)).toNat) ∧
      (w / 2 ^ 5 % 4 = 2 → Puts s (.shiSar st) st w (a.sshiftRight (w % 32)).toNat) ∧
      (w / 2 ^ 5 % 4 = 3 → Puts s (.shiRotl st) st w (a.rotateLeft (w % 32)).toNat)) ∧
    (sMajor w = 9 → Puts s (.lui st) st w (w % 2 ^ 22 * 2 ^ 10))

/-- R371, R373 to R376, R379: private D-space, the Shelf and enabled windows lie where Table 11-2 says; a load gives rd the
bytes that it finds, sign- or zero-extended; a store writes the low bytes of rd, posted outside private D-space; an
atomic gives rd the old word and writes the new one; a collided response sets PSW.wc. The model's choices in it: log
entries 81 and 122. -/
def Obligations.StewardMemory : Prop :=
  ∀ (s : State) (st w a : Nat), s.runs st w →
    (s.fwMode st = true → ∀ n wr,
      (0x40 ≤ a → a < 0x40000 → s.dAcc st a n wr = some (.priv a)) ∧
      (∀ o < 0x800000, s.dAcc st (0x10000000 + o) n wr = some (.shelf o)) ∧
      (a < 0x40 ∨ 0x40000 ≤ a ∧ a < 0x10000000 ∨ 0x10800000 ≤ a ∧ a < 0x80000000 → s.dAcc st a n wr = none)) ∧
    (∀ c m n sg, (c, m, n, sg) ∈ ([(.lb st, 0x0A, 1, true), (.lbu st, 0x0B, 1, false), (.lh st, 0x0C, 2, true),
        (.lhu st, 0x0D, 2, false), (.lw st, 0x0E, 4, false)] : List (Instr × Nat × Nat × Bool)) →
      sMajor w = m → a = (s.xa st w + (BitVec.ofNat 18 w).signExtend 32).toNat → a % n = 0 →
      (∀ x, s.dAcc st a n false = some (.priv x) → s.badPriv st x n = false →
        (x + n ≤ 0x1000 ∨ 0x3000 ≤ x → Puts s c st w (extendN 32 n sg (leNat (Mem.readBytes 0 (s.core st).priv x n)))) ∧
        (0x1000 < x + n → x < 0x3000 →
          ∃ v, v < 2 ^ (8 * n) ∧ exec c s = .next ({ s with freeCnt := s.freeCnt + 1 }.updCore st fun k =>
            { k with g := putG k.g (sRd w) (extendN 32 n sg v), pc := (k.pc + 4) % 2 ^ 32 }))) ∧
      (∀ x, s.dAcc st a n false = some (.priv x) → s.badPriv st x n = true → Enters s c st 12 a) ∧
      (∀ o, s.dAcc st a n false = some (.shelf o) → s.ownStore st o n = false → s.shelfBadAt o n = false →
        Puts s c st w (extendN 32 n sg (leNat (Mem.readBytes 0 s.shelf o n)))) ∧
      (∀ x q line, s.dAcc st a n false = some (.win x q) → s.dReady st n (.win x q) = true → q = true →
        (st, x / 64) ∉ s.net.invIn → Tbl.find (s.core st).cache (x / 64) = some line → Puts s c st w (extendN 32 n sg (fld line (x % 64) n))) ∧
      (∀ x q, s.dAcc st a n false = some (.win x q) → s.dReady st n (.win x q) = true →
        q = false ∨ Tbl.find (s.core st).cache (x / 64) = none ∨ (st, x / 64) ∈ s.net.invIn → s.ddrClean →
        ∃ t, exec c s = .next t ∧ (t.core st).pc = ((s.core st).pc + 4) % 2 ^ 32 ∧
          (t.core st).g = putG (s.core st).g (sRd w) (extendN 32 n sg (leNat (s.ddrBytes x n))) ∧
          (q = true → Tbl.find (t.core st).cache (x / 64) = some (s.ddrBytes (x / 64 * 64) 64)) ∧ t = { s with st := t.st, ddrs := t.ddrs } ∧
          ∀ k, (t.dc k).q = (s.dc k).q ∧ (t.dc k).ce = (s.dc k).ce ∧ (t.dc k).ue = (s.dc k).ue)) ∧
    (∀ c m n, (c, m, n) ∈ ([(.sb st, 0x0F, 1), (.sh st, 0x10, 2), (.sw st, 0x11, 4)] : List (Instr × Nat × Nat)) →
      sMajor w = m → a = (s.xa st w + (BitVec.ofNat 18 w).signExtend 32).toNat → a % n = 0 →
      (∀ x, s.dAcc st a n true = some (.priv x) → ∃ l, exec c s = .next (s.updCore st fun k =>
        { k with priv := Mem.writeBytes 0 k.priv x (leBytes n (s.xd st w).toNat), dbad := l, pc := (k.pc + 4) % 2 ^ 32 }) ∧
        ∀ j, j ∈ l ↔ j ∈ (s.core st).dbad ∧ ¬(x ≤ 4 * j ∧ 4 * j + 4 ≤ x + n)) ∧
      (∀ o, s.dAcc st a n true = some (.shelf o) →
        ∃ t x, exec c s = .next t ∧ t.shelfQ = s.shelfQ ++ [x] ∧ x.req.addr = o ∧ x.st = some st ∧ x.port = 1 + st / 2 ∧
          x.data = leBytes n (s.xd st w).toNat ∧ (t.core st).posted = (s.core st).posted ++ [({} : Posted)] ∧
          (t.core st).pc = ((s.core st).pc + 4) % 2 ^ 32 ∧ (t.core st).g = (s.core st).g ∧ t.shelf = s.shelf) ∧
      (∀ x q, s.dAcc st a n true = some (.win x q) → s.stReady (.win x q) = true →
        ∃ t, exec c s = .next t ∧ t.ddr = Mem.writeBytes 0 s.ddr x (leBytes n (s.xd st w).toNat) ∧
          (t.core st).posted = (s.core st).posted ++ [({ ready := true } : Posted)] ∧
          (t.core st).pc = ((s.core st).pc + 4) % 2 ^ 32 ∧ (t.core st).g = (s.core st).g)) ∧
    (∀ c n old new, (c, n, new) ∈ ([(.atomSwap st, 0, (s.xb st w).toNat),
        (.atomCas st, 1, if old = (s.xd st w).toNat then (s.xb st w).toNat else old),
        (.atomFadd st, 2, (old + (s.xb st w).toNat) % 2 ^ 32), (.atomFor st, 3, old ||| (s.xb st w).toNat),
        (.atomFmaxu st, 4, max old (s.xb st w).toNat)] : List (Instr × Nat × Nat)) →
      sMajor w = 0x1F → sFn w = n → a = (s.xa st w).toNat → a % 4 = 0 →
      (∀ o, s.dAcc st a 4 true = some (.shelf o) → s.ownStore st o 4 = false → s.shelfBadAt o 4 = false →
        (∀ r ∈ s.shelfAtomics, r.addr / 8 = o / 8 → r.prio < s.effPri st (s.core st).cur) →
        old = leNat (Mem.readBytes 0 s.shelf o 4) →
        exec c s = .next ((s.shelfPut o (leBytes 4 new)).updCore st fun k =>
          { k with g := putG k.g (sRd w) old, pc := (k.pc + 4) % 2 ^ 32 })) ∧
      (∀ x q, s.dAcc st a 4 true = some (.win x q) → s.dReady st 4 (.win x q) = true →
        (∀ r ∈ s.atomQ (s.chanOfAddr x), r.addr / 8 = x / 8 → r.prio < s.effPri st (s.core st).cur) →
        s.chanOfAddr x ≠ 8 → s.ddrClean → old = leNat (s.ddrBytes x 4) →
        ∃ t, exec c s = .next t ∧ t.ddr = Mem.writeBytes 0 s.ddr x (leBytes 4 new) ∧
          (t.core st).g = putG (s.core st).g (sRd w) old ∧ (t.core st).pc = ((s.core st).pc + 4) % 2 ^ 32)) ∧
    (∀ p, (s.core st).posted.find? (fun q => q.ready) = some p →
      ∃ t, exec (.storeResponse st) s = .next t ∧ (t.core st).posted = (s.core st).posted.erase p ∧
        (p.collided = false → (t.core st).psw = (s.core st).psw) ∧
        (p.collided = true → (t.core st).psw.testBit 5 = true ∧
          (t.core st).wcCnt = min 0xFFFFFFFF ((s.core st).wcCnt + 1)))

/-- R371, R372, R375, R379, R380, R382, R387, R390, R398: branches and jumps go off18 or off26 words from themselves; calls
push and returns pop the return stack; the SYS functions read and write what Table 11-5 says; a wait that holds returns
its flags at once, and any other leaves the core; YIELD gives way to a READY task of its priority. The model's choices in
it: log entries 89, 122 and 125. -/
def Obligations.StewardControl : Prop :=
  ∀ (s : State) (st w : Nat) (c : Steward), s.runs st w → s.core st = c →
    (∀ i m b, (i, m, b) ∈ ([(.beq st, 0x12, decide (s.xd st w = s.xa st w)), (.bne st, 0x13, decide (s.xd st w ≠ s.xa st w)),
        (.blt st, 0x14, (s.xd st w).slt (s.xa st w)), (.bge st, 0x15, (s.xa st w).sle (s.xd st w)),
        (.bltu st, 0x16, (s.xd st w).ult (s.xa st w)), (.bgeu st, 0x17, (s.xa st w).ule (s.xd st w))] :
          List (Instr × Nat × Bool)) → sMajor w = m →
      Jumps s i st (if b then s.target st 18 w else (c.pc + 4) % 2 ^ 32)) ∧
    (sMajor w = 0x18 → Jumps s (.jump st) st (s.target st 26 w)) ∧
    (∀ i m pc v, (i, m, pc, v) ∈ ([(.call st, 0x19, s.target st 26 w, (c.pc + 4) % 2 ^ 32),
        (.callr st, 0x1B, (s.xa st w).toNat, (c.pc + 4) % 2 ^ 32)] : List (Instr × Nat × Nat × Nat)) →
      sMajor w = m → sUnused w = false →
      (c.rs.length < 16 → exec i s = .next (s.updCore st fun k => { k with rs := v :: k.rs, pc := pc })) ∧
      (16 ≤ c.rs.length → c.psw.testBit 3 = false → exec i s = .next (s.updCore st fun k =>
        { k with rs := v :: k.rs.take 15, psw := k.psw ||| 16, pc := pc }))) ∧
    (sMajor w = 0x1A → sUnused w = false → Jumps s (.jr st) st (s.xa st w).toNat) ∧
    (∀ v r, sMajor w = 0x1C → sUnused w = false → c.rs = v :: r →
      exec (.ret st) s = .next (s.updCore st fun k => { k with rs := r, pc := v % 2 ^ 32 })) ∧
    (sMajor w = 0x20 → sUnused w = false →
      (sFn w = 3 → c.posted = [] → Jumps s (.fence st) st ((c.pc + 4) % 2 ^ 32)) ∧
      (sFn w = 3 → c.posted ≠ [] → exec (.fence st) s = .next s) ∧
      (sFn w = 7 → Puts s (.mfpsw st) st w (s.psw st)) ∧
      (sFn w = 8 → ∃ v, exec (.mtpsw st) s = .next (s.updCore st fun k =>
          { k with psw := v, pc := (k.pc + 4) % 2 ^ 32 }) ∧
        ∀ i < 7, v.testBit i = ((if c.psw.testBit 0 = true ∨ 4 ≤ i then (s.xa st w).toNat else c.psw).testBit i ||
          decide (i = 5 ∧ s.noted (.wc st) ≠ 0))) ∧
      (sFn w = 11 → c.rs.length < 16 → exec (.rspush st) s = .next (s.updCore st fun k =>
        { k with rs := (s.xa st w).toNat :: k.rs, pc := (k.pc + 4) % 2 ^ 32 })) ∧
      (∀ v r, sFn w = 12 → c.rs = v :: r → exec (.rspop st) s = .next (s.updCore st fun k =>
        { k with rs := r, g := putG k.g (sRd w) v, pc := (k.pc + 4) % 2 ^ 32 })) ∧
      (sFn w = 13 → Puts s (.rsdepth st) st w c.rs.length) ∧
      (∀ a q, sFn w = 14 → s.dLoc st (s.xa st w).toNat = some (.win a q) → exec (.cinv st) s = .next (s.updCore st fun k =>
        { k with cache := k.cache.del (a / 64), pc := (k.pc + 4) % 2 ^ 32 })) ∧
      (s.fwMode st = true →
        (sFn w = 9 → (s.xa st w).toNat % 4 ≠ 0 ∨ 0x40000 ≤ (s.xa st w).toNat ∨ (s.xa st w).toNat / 4 ∈ c.ibad →
          ∃ v, exec (.irdw st) s = .next ({ s with freeCnt := s.freeCnt + 1 }.updCore st fun k =>
            { k with g := putG k.g (sRd w) v, pc := (k.pc + 4) % 2 ^ 32 })) ∧
        (sFn w = 9 → (s.xa st w).toNat % 4 = 0 → (s.xa st w).toNat < 0x40000 → (s.xa st w).toNat / 4 ∉ c.ibad →
          Puts s (.irdw st) st w (leNat (Mem.readBytes 0 c.ispace (s.xa st w).toNat 4))) ∧
        (sFn w = 10 → (s.xa st w).toNat % 4 = 0 → (s.xa st w).toNat < 0x40000 →
          ∃ l, exec (.iwrw st) s = .next (s.updCore st fun k =>
            { k with ispace := Mem.writeBytes 0 k.ispace (s.xa st w).toNat (leBytes 4 (s.xb st w).toNat), iloaded := l,
                     ibad := k.ibad.erase ((s.xa st w).toNat / 4), pc := (k.pc + 4) % 2 ^ 32 }) ∧ ∀ p, p ∈ l ↔ p ∈ c.iloaded ∨ p = (s.xa st w).toNat / 4096) ∧
        (sFn w = 15 → exec (.stHalt st) s = .next (s.updCore st fun k => { k with halted := true, idle := true })) ∧
        (sFn w = 2 → c.psw.testBit 2 = true → exec (.rete st) s = .next (s.updCore st fun k =>
          { k with pc := leNat (Mem.readBytes 0 c.priv 0x40 4), psw := leNat (Mem.readBytes 0 c.priv 0x44 4) % 2 ^ 7 })) ∧
        (sFn w = 2 → c.psw.testBit 2 = false → c.reg 14 % 4 = 0 → 0x40 ≤ c.reg 14 → c.reg 14 + 8 ≤ 0x40000 → c.dbad = [] →
          exec (.rete st) s = .next (s.updCore st fun k =>
            { k with pc := leNat (Mem.readBytes 0 c.priv (c.reg 14) 4), g := putG k.g 14 (c.reg 14 + 16),
                     psw := leNat (Mem.readBytes 0 c.priv (c.reg 14 + 4) 4) % 2 ^ 7 }))) ∧
      (∀ i k m f u, (i, k, u) ∈ ([(.waitany st, 4, decide (f ≠ 0)), (.waitall st, 5, decide (f = m ∧ m ≠ 0))] :
          List (Instr × Nat × Bool)) → sFn w = k → m = (s.xa st w).toNat % 2 ^ 31 → f = (s.task st c.cur).flags &&& m →
        (u = true → ∃ t, exec i s = .next t ∧ (t.core st).g = putG c.g (sRd w) f ∧ (t.core st).pc = (c.pc + 4) % 2 ^ 32 ∧
          (t.task st c.cur).flags = (s.task st c.cur).flags ^^^ (f ^^^ (f &&& s.notedBits (.flags st c.cur))) ∧ (t.core st).cur = c.cur) ∧
        (u = false → m = 0 → (s.xb st w).toNat % 2 ^ 20 = 0 → Puts s i st w 0) ∧
        (u = false → m ≠ 0 ∨ (s.xb st w).toNat % 2 ^ 20 ≠ 0 → ∃ t, exec i s = .next t ∧ (t.task st c.cur).state = 4 ∧
          (t.task st c.cur).mask = m ∧ (t.task st c.cur).waitRd = sRd w ∧ (t.task st c.cur).pc = (c.pc + 4) % 2 ^ 32 ∧
          (t.task st c.cur).timeout = (if (s.xb st w).toNat % 2 ^ 20 = 0 then none
            else some (s.time + (s.xb st w).toNat % 2 ^ 20 * 2000)))) ∧
      (sFn w = 6 → s.nextTask st = none → Jumps s (.yield st) st ((c.pc + 4) % 2 ^ 32)) ∧
      (∀ n, sFn w = 6 → s.nextTask st = some n → n ≠ c.cur → s.effPri st c.cur ≤ s.effPri st n →
        (∀ j < 32, (s.task st j).readySeq ≤ c.readySeq) →
        ∃ t, exec (.yield st) s = .next t ∧ (t.core st).cur = n ∧ (t.task st n).state = 3 ∧ (t.task st c.cur).state = 2 ∧
          (t.task st c.cur).pc = (c.pc + 4) % 2 ^ 32)) ∧
    (exec (.scCtlInvalidate st) s = .next (s.updCore st fun k => { k with cache := [] }))

/-- R381, R382: each cause of Table 11-6 enters its exception with its info word; entry saves PC, PSW, cause and info below a
valid stack pointer and goes to the vector in firmware mode with ie clear; with an invalid one it writes the fault shelf
and goes to the DOUBLE_FAULT vector with df set; a further exception halts the steward. -/
def Obligations.StewardExceptions : Prop :=
  ∀ (s : State) (st w : Nat) (c : Steward), s.stAlive st = true → s.core st = c →
    (∀ i ∈ ([.stAdd st, .addi st, .lw st, .sw st, .beq st, .call st, .inPort st, .fence st] : List Instr),
      (c.fetch = none → Enters s i st 2 c.pc) ∧ (c.fetch = some w → sReserved w = true → Enters s i st 3 w)) ∧
    (∀ i k, (i, k) ∈ ([(.rete st, 2), (.irdw st, 9), (.iwrw st, 10), (.stHalt st, 15)] : List (Instr × Nat)) →
      c.fetch = some w → sMajor w = 0x20 → sFn w = k → sUnused w = false → s.fwMode st = false → Enters s i st 4 w) ∧
    (∀ i m n wr a, (i, m, n, wr) ∈ ([(.lh st, 0x0C, 2, false), (.lhu st, 0x0D, 2, false), (.lw st, 0x0E, 4, false),
        (.sh st, 0x10, 2, true), (.sw st, 0x11, 4, true)] : List (Instr × Nat × Nat × Bool)) → c.fetch = some w →
      sMajor w = m → a = (s.xa st w + (BitVec.ofNat 18 w).signExtend 32).toNat →
      (a % n ≠ 0 → Enters s i st 5 a) ∧ (a % n = 0 → s.dAcc st a n wr = none → Enters s i st 6 a)) ∧
    (∀ a x, c.fetch = some w → sMajor w = 0x0E → a = (s.xa st w + (BitVec.ofNat 18 w).signExtend 32).toNat → a % 4 = 0 →
      (s.dAcc st a 4 false = some (.win x false) → s.dReady st 4 (.win x false) = true → s.poisonedAt x 4 = true →
        exec (.lw st) s = .next (((s.ddrRd 6 x 4).enter st 12 a).keep s)) ∧
      (s.dAcc st a 4 false = some (.shelf x) → s.ownStore st x 4 = false → s.shelfBadAt x 4 = true →
        Enters s (.lw st) st 12 a)) ∧
    (c.fetch = some w → sMajor w = 0x19 → c.rs.length = 16 → c.psw.testBit 3 = true →
      Enters s (.call st) st 8 ((c.pc + 4) % 2 ^ 32)) ∧
    (c.fetch = some w → sMajor w = 0x1C → sUnused w = false → c.rs = [] → Enters s (.ret st) st 9 0) ∧
    (c.fetch = some w → sMajor w = 0x20 → sUnused w = false →
      (sFn w = 0 → (s.task st c.cur).module = 0 → Enters s (.syscall st) st 10 (c.reg 1)) ∧
      (sFn w = 1 → Enters s (.breakpoint st) st 11 c.pc)) ∧
    (∀ cause info t, cause < 32 → s.fwMode st = true → c.psw.testBit 2 = false → t = s.enter st cause info →
      (t.core st).psw.testBit 0 = true ∧ (t.core st).psw.testBit 1 = false ∧
      (t.core st).excCnt = min 0xFFFFFFFF (c.excCnt + 1) ∧ (t.core st).rs = c.rs ∧
      (c.stackOk = true → c.reg 14 ≤ 0x40000 → c.priv.wf 0 = true →
        (t.core st).pc = 4 * cause ∧ (t.core st).reg 14 = c.reg 14 - 16 ∧
        Mem.readBytes 0 (t.core st).priv (c.reg 14 - 16) 16 =
          leBytes 4 c.pc ++ leBytes 4 (s.psw st) ++ leBytes 4 cause ++ leBytes 4 info) ∧
      (c.stackOk = false → c.priv.wf 0 = true →
        (t.core st).pc = 4 ∧ (t.core st).psw.testBit 2 = true ∧ (t.core st).g = c.g ∧
        Mem.readBytes 0 (t.core st).priv 0x40 40 =
          leBytes 4 c.pc ++ leBytes 4 (s.psw st) ++ leBytes 4 cause ++ leBytes 4 info ++ leBytes 4 (c.reg 14) ++
          leBytes 4 c.stkLo ++ leBytes 4 c.stkHi ++ leBytes 4 c.cur ++ leBytes 8 s.time)) ∧
    (∀ cause info, c.psw.testBit 2 = true →
      ((s.enter st cause info).core st).halted = true ∧ ((s.enter st cause info).core st).idle = true)

/-- R363 to R366, R385 to R390, R398, R399: tasks start, stop and are freed; flags are set and cleared, flag 31 excepted; a
time-out ends a wait with 0; a READY task of higher effective priority takes the core; pegs are acquired, waited for,
released and handed to a waiter. The model's choices in it: log entries 10, 79, 124, 125 and 126. -/
def Obligations.DispatcherCommands : Prop :=
  ∀ (s : State) (st k : Nat) (t0 : Task), s.task st k = t0 → k < 32 →
    (∀ u, t0.state = 4 → t0.timeout = some u → ∃ t, exec (.waitTimeout st k) s = .next t ∧ t.time = max s.time (u + 1) ∧
      ((t.task st k).state = 2 ∨ (t.task st k).state = 3 ∧ (t.core st).cur = k) ∧
      (t.task st k).g = putG t0.g t0.waitRd 0 ∧ (t.task st k).flags = t0.flags) ∧
    (s.nextTask st = some k → s.running st = true → (s.core st).psw.testBit 1 = true → (s.core st).cur ≠ k →
      s.effPri st (s.core st).cur < s.effPri st k →
      ∃ t, exec (.preemption st) s = .next t ∧ (t.core st).cur = k ∧ (t.task st k).state = 3 ∧ (t.core st).pc = t0.pc ∧
        (t.core st).g = t0.g ∧ (t.task st (s.core st).cur).state = 2 ∧ (t.task st (s.core st).cur).pc = (s.core st).pc) ∧
    (s.st.timer ≠ 0 → ∃ t, exec .dspTimerExpiry s = .next t ∧ t.time = max s.time (s.st.timerAt + s.st.timer * 2000) ∧
      (Tbl.get {} t.st.routes 28).pend = true ∧ t.st.timerAt = s.st.timerAt + s.st.timer * 2000) ∧
    (t0.state = 0 ∨ t0.state = 1 → (s.core st).halted = false →
      ∃ t, exec (.dspStart st k) s = .next t ∧ ((t.task st k).state = 2 ∨ (t.task st k).state = 3 ∧ (t.core st).cur = k) ∧
        (t.task st k).pc = t0.entry ∧ (t.task st k).g = [] ∧ (t.task st k).rs = [] ∧
        (t.task st k).psw = 8 + t0.ctl / 2 ^ 4 % 2) ∧
    (t0.state = 2 ∨ t0.state = 4 ∨ t0.state = 3 ∧ (s.core st).cur = k → (∀ n ∈ s.handedNow st k, (s.peg n).waits = [] ∧ s.askedNow n = []) →
      ∃ t, exec (.dspStop st k) s = .next t ∧ (t.task st k).state = 1 ∧ ∀ n ∈ s.handedNow st k, (t.peg n).held = false) ∧
    (t0.state = 1 → ∃ t, exec (.dspFree st k) s = .next t ∧ (t.task st k).state = 0 ∧ (t.task st k).flags = 0 ∧
      (t.task st k).entry = t0.entry ∧ (t.task st k).ctl = t0.ctl) ∧
    (∀ i (v : Word), i = .dspFlagsSet st k v ∨ i = .dspXsig st k v → (s.core st).halted = false →
      (t0.state = 1 ∨ t0.state = 2 ∨ t0.state = 3 →
        ∃ t, exec i s = .next t ∧ (t.task st k).flags = t0.flags ||| v.toNat % 2 ^ 31 ∧ (t.task st k).state = t0.state) ∧
      (t0.state = 4 → t0.pegWait = none → t0.all = false → (t0.flags ||| v.toNat % 2 ^ 31) &&& t0.mask ≠ 0 →
        ∃ t, exec i s = .next t ∧ ((t.task st k).state = 2 ∨ (t.task st k).state = 3) ∧
          (t.task st k).g = putG t0.g t0.waitRd ((t0.flags ||| v.toNat % 2 ^ 31) &&& t0.mask))) ∧
    (∀ v : Word, ∃ t, exec (.dspFlagsClr st k v) s = .next t ∧
      (∀ i < 31, (t.task st k).flags.testBit i =
        (t0.flags.testBit i && (!v.toNat.testBit i || (s.notedBits (.flags st k)).testBit i))) ∧
      (t.task st k).flags.testBit 31 = t0.flags.testBit 31) ∧
    (∀ v : Word, ∃ t, exec (.dspCtlWrite st k v) s = .next t ∧ (t.task st k).ctl = v.toNat &&& 0xFF1F ∧
      (t.task st k).state = t0.state) ∧
    (∀ m id n, s.domOn 1 = true → s.alone → s.pegRight m n = true → (s.peg n).waits = [] → s.cm.db.held = none →
      ((s.peg n).held = false → ∃ t, exec (.pegAcquire m id n) s = .next t ∧ (t.peg n).held = true ∧ (t.peg n).owner = m ∧
        (t.peg n).ownerId = id ∧ t.st.pegRes = t.pegWord n + 2 ^ 31) ∧
      ((s.peg n).held = true → ((s.peg n).now s.time).won = none → ∃ t, exec (.pegAcquire m id n) s = .next t ∧
        (t.peg n).held = true ∧ (t.peg n).owner = (s.peg n).owner ∧ (t.peg n).ownerId = (s.peg n).ownerId ∧
        (t.peg n).waits = [] ∧ t.st.pegRes = s.pegWord n) ∧
      (∀ w q, (s.peg n).held = true → ((s.peg n).now s.time).won = some w → q = ({ m := m, id := id } : PegAsk).rank →
        (q < w.rank → ∃ t, exec (.pegAcquire m id n) s = .next t ∧ (t.peg n).held = true ∧ (t.peg n).owner = m ∧
          (t.peg n).ownerId = id ∧ t.st.pegRes = t.pegWord n + 2 ^ 31) ∧
        (w.rank ≤ q → ∃ t, exec (.pegAcquire m id n) s = .next t ∧ (t.peg n).owner = (s.peg n).owner ∧
          (t.peg n).ownerId = (s.peg n).ownerId ∧ t.st.pegRes = s.pegWord n)) ∧
      ((s.peg n).held = true → (s.peg n).owner = m → m ≠ 6 ∨ (s.peg n).ownerId = id →
        (s.askedNow n = [] → ∃ t, exec (.pegRelease m id n) s = .next t ∧ (t.peg n).held = false) ∧
        (∀ q, s.askedNow n = [q] → q.wait = false → ∃ t, exec (.pegRelease m id n) s = .next t ∧ (t.peg n).held = true ∧
          (t.peg n).owner = q.m ∧ (t.peg n).ownerId = q.id))) ∧
    (∀ n rd, s.running st = true → s.pegRight (2 + st) n = true → (s.core st).cur = k → (s.peg n).waits = [] → st < 4 →
      ((s.peg n).held = false → ∃ t, exec (.pegAcquireWait st n rd) s = .next t ∧ (t.peg n).held = true ∧
        (t.peg n).owner = 2 + st ∧ (t.peg n).ownerId = k ∧ (t.core st).g = putG (s.core st).g rd (t.pegWord n + 2 ^ 31)) ∧
      ((s.peg n).held = true → (s.peg n).owner = 0 → ((s.peg n).now s.time).won = none → ∃ t, exec (.pegAcquireWait st n rd) s = .next t ∧
        (t.peg n).waits = [(st, k, rd)] ∧ (t.task st k).state = 4)) ∧
    (∀ n m id rd, s.domOn 1 = true → s.alone → s.cm.db.held = none → s.pegRight m n = true → (s.peg n).held = true → (s.peg n).owner = m →
      m ≠ 6 → (s.peg n).waits = [(st, k, rd)] → s.askedNow n = [] →
      ∃ t, exec (.pegRelease m id n) s = .next t ∧ (t.peg n).held = true ∧ (t.peg n).owner = 2 + st ∧
        (t.peg n).ownerId = k ∧ (t.peg n).waits = [] ∧ ((t.task st k).state = 2 ∨ (t.task st k).state = 3) ∧
        (t.task st k).pegWait = none)

/-- R53, R189, R383, R386, R391 to R396, R398: a staged token is injected unless its KIND or PORT forbids it; a routed event
reaches its flag; the service calls act and return OK; a verified module that fits is loaded and an unloaded one is gone;
a halted steward's routes and commands pass to the adopting one. The model's choices in it: log entries 42, 80 and 122.
-/
def Obligations.ExtensionCommands : Prop :=
  ∀ (s : State) (st : Nat),
    (∀ k, k = Tok.ofImage ((List.range 4).flatMap (fun i => leBytes 4 ((s.core st).ti.getD i 0)) ++
        leBytes 2 ((s.core st).ti.getD 4 0)) →
      (k.kind ≠ 1 → k.port ≠ 3 → ∃ t, exec (.tokenInject st) s = .next t ∧ (t.core st).tiStat = 0 ∧
        ∃ p ∈ t.net.transit, p.net = 0 ∧ p.dst = .cm ∧ p.body = .tok k.sealed) ∧
      (k.kind = 1 ∨ k.port = 3 → ∃ t, exec (.tokenInject st) s = .next t ∧ (t.core st).tiStat = 0x102 * 2 ^ 16 ∧
        t.net = s.net)) ∧
    (∀ q r, Tbl.get {} s.st.routes q = r → r.pend = true → r.en = true → s.st.restarting = false → q ≠ 16 →
      (s.core r.st).halted = false → (s.task r.st r.slot).state = 2 → r.flag < 31 →
      ∃ t, exec (.eventRouted q) s = .next t ∧ (Tbl.get {} t.st.routes q).pend = false ∧
        (t.task r.st r.slot).flags = (s.task r.st r.slot).flags ||| 2 ^ r.flag) ∧
    (∀ k m, (s.svcCall st = some (k, m, 0) → ∃ t, exec (.exit st) s = .next t ∧ (t.task st (s.core st).cur).state = 1) ∧
      (s.svcCall st = some (k, m, 1) → s.rcd.intake.length < 64 → ∃ t e, exec (.event st) s = .next t ∧
        SvcReturns s t st 0 ∧ t.rcd.intake = intakeAdd s.rcd.intake e ∧ e.code = (s.core st).reg 2 % 2 ^ 16 ∧ e.cls = 15 ∧
        e.arg = (s.core st).reg 3 + (s.core st).reg 4 * 2 ^ 32) ∧
      (∀ q, s.svcCall st = some (k, m, 2) → m.slots[(s.core st).reg 2]? = some q → (s.task st q).state = 1 →
        q ≠ (s.core st).cur → (s.core st).idle = false → (s.core st).pickedAt ≠ some s.time → ∃ t, exec (.taskStart st) s = .next t ∧ SvcReturns s t st 0 ∧
          (t.task st q).state = 2 ∧ (t.task st q).pc = (s.task st q).entry) ∧
      (s.svcCall st = some (k, m, 3) → m.id < 2 ^ 32 → st < 4 → m.shelf < 2 ^ 23 → ∃ t, exec (.info st) s = .next t ∧
        SvcReturns s t st 0 ∧ (t.core st).reg 2 = m.id ∧ (t.core st).reg 3 = st ∧
        (t.core st).reg 4 = 0x10000000 + m.shelf) ∧
      (∀ x r a, s.svcCall st = some (k, m, 4) → m.traps = x :: r → r = [] → s.svcMem st 96 = some (.priv a) →
        (s.core st).priv.wf 0 = true → a + 96 ≤ (s.core st).reg 14 ∨ (s.core st).reg 14 + 16 ≤ a →
        ∃ t, exec (.trapNext st) s = .next t ∧ SvcReturns s t st 0 ∧
          Mem.readBytes 0 (t.core st).priv a 96 = x.bytes ∧ (Tbl.get {} t.st.modules k).traps = r ∧
          (Tbl.get {} t.st.modules k).given = m.given ++ [(x, false)]) ∧
      (∀ x a b, s.svcCall st = some (k, m, 5) → s.svcMem st 18 = some (.priv a) → s.badPriv st a 18 = false →
        b = Tok.ofImage (Mem.readBytes 0 (s.core st).priv a 18) → b.kind = 3 →
        m.given.find? (fun g => g.1.slot == b.flow.toNat % 32 && g.1.key == b.tag) = some x →
        ∃ t, exec (.trapReturn st) s = .next t ∧ SvcReturns s t st 0 ∧
          ∃ p ∈ t.net.transit, p.net = 0 ∧ p.dst = .cm ∧ p.body = .tok b.sealed)) ∧
    (∀ m a img h k sh rm, s.mbServes m 0x72 16 [(0, 1), (4, 4), (8, 8)] a → fld a 0 1 ≤ 1 →
      s.image (fld a 0 1) (fld a 8 8) (fld a 4 4) = .ok img → s.ddrUpset = [] → h = img.take 512 → s.boot.dev ≠ 4 → s.otp.extHash ≠ [] →
      extOk s.boot.image.api (fld a 4 4) h = true → (∀ p ∈ s.st.modules, p.2.id ≠ fld h 8 4) → fld h 0x24 2 = 0 →
      s.extPick h = some k → s.extShelf h = some sh → s.extRoom k h = some rm → s.extDdr h = true →
      Tbl.find s.st.modules s.freeModule = none →
      ∃ t, exec (.extLoad m) s = .next t ∧
        (if Config.sha384 (slice h 0x100 97) = s.otp.extHash ∧ Config.ecdsaOk (slice h 0x100 97)
            (Config.sha384 (h.take 0x168 ++ img.drop 512)) (slice h 0x168 96) = true then
          (t.mb m).doneWith (s.mb m) OK (leBytes 4 (fld h 8 4) ++ leBytes 1 k) ∧
            ∃ x, Tbl.find t.st.modules s.freeModule = some x ∧ x.id = fld h 8 4 ∧ x.st = k ∧ x.image = img
        else (t.mb m).doneWith (s.mb m) VERIFY_FAIL [] ∧ t.st.modules = s.st.modules)) ∧
    (∀ m a k x, s.mbServes m 0x73 4 [(0, 4)] a → s.st.modules.find? (fun p => p.2.id == fld a 0 4) = some (k, x) →
      ∃ t, exec (.extUnload m) s = .next t ∧ (t.mb m).doneWith (s.mb m) OK [] ∧ Tbl.find t.st.modules k = none) ∧
    (∀ q, (s.core st).adopt = true → s.adopter st = some q → st < 4 → s.alone →
      ∃ t, exec (.stewardAdoption st) s = .next t ∧ (t.core st).adopt = false ∧ (∀ r ∈ t.st.routes, r.2.en = true → r.2.st ≠ st) ∧
        ∀ m < 16, (s.mb m).state = 2 → (s.mb m).st = st → (t.mb m).state = 3 ∧ (t.mb m).status = TIMEOUT)

/-! ### Host interface (chapter 12) -/

/-- R402, R405, R407, R408, R410, R422, R424: MB_GO in IDLE or DONE makes a mailbox QUEUED, and MB_CMD and MB_DATA take
writes; in QUEUED and IN_SERVICE all three are ignored and each MB_GO is counted; the alert page, HOST_DWIN, the
moderation and the configuration registers act as their tables say, an alert of this fc staying set; an uncovered offset
ignores writes; a latching read latches; while a doorbell is held every posted write waits behind it (R202). The model's
choices in it: log entries 40, 62 and 75. -/
def Obligations.HostRegisters : Prop :=
  ∀ (s : State) (v : Word), s.host.pf0.d3 = false → s.host.pf1.d3 = false →
    (s.cm.db.held ≠ none → ∀ a, exec (.registerWrite .bar0 a v) s =
      .next (s.updCm fun c => { c with db := { c.db with posted := c.db.posted ++ [.registerWrite .bar0 a v] } })) ∧
    (s.cm.db.held = none →
    (∀ m a, m < 15 → a = 0x1000 + 0x100 * m →
      ((s.mb m).state = 0 ∨ (s.mb m).state = 3 →
        (∃ t, exec (.registerWrite .bar0 (a + 4) v) s = .next t ∧
          t.mb m = { s.mb m with state := 1, orphan := false } ∧ t.host = s.host) ∧
        (∃ t, exec (.registerWrite .bar0 a v) s = .next t ∧ t.mb m = { s.mb m with cmd := v.toNat % 2 ^ 24 }) ∧
        (∀ k < 56, ∃ t, exec (.registerWrite .bar0 (a + 0x20 + 4 * k) v) s = .next t ∧
          fld (t.mb m).data (4 * k) 4 = v.toNat ∧
          ∀ i, i < 4 * k ∨ 4 * k + 4 ≤ i → (t.mb m).data.getD i 0 = (s.mb m).data.getD i 0)) ∧
      ((s.mb m).state = 1 ∨ (s.mb m).state = 2 →
        exec (.registerWrite .bar0 (a + 4) v) s =
          .next (s.updHost fun h => { h with mbReject := min 0xFFFFFFFF (h.mbReject + 1) }) ∧
        exec (.registerWrite .bar0 a v) s = .next s ∧
        ∀ k < 56, exec (.registerWrite .bar0 (a + 0x20 + 4 * k) v) s = .next s) ∧
      (∃ t, exec (.registerWrite .bar0 (a + 0x10) v) s = .next t ∧ t.mb m = { s.mb m with cfg := v.toNat % 2 })) ∧
    (∃ t, exec (.registerWrite .bar0 0x3000 v) s = .next t ∧
      ∀ i, t.host.alert.testBit i =
        (s.host.alert.testBit i && !(v.toNat.testBit i && s.noted (.w1c .host i) == 0))) ∧
    (∃ t, exec (.registerWrite .bar0 0x3004 v) s = .next t ∧ t.alertEn = v.toNat % 2 ^ 16 ∧
      ∀ k < 16, v.toNat.testBit k = true → s.alertEn.testBit k = false → s.host.alert.testBit k = true →
        18 + k ∈ t.host.pf0.sent ∨ 18 + k ∈ t.host.pf0.pend) ∧
    (∀ j < 4, ∃ t, exec (.registerWrite .bar0 (0x3040 + 4 * j) v) s = .next t ∧
      ∀ i, t.host.laneAlert.testBit i = (s.host.laneAlert.testBit i &&
        !(i / 32 == j && v.toNat.testBit (i % 32) && s.noted (.w1c .lane i) == 0))) ∧
    (∃ t, exec (.registerWrite .bar0 0x3060 v) s = .next t ∧ t.reg .bar0 0x3060 0 = v.toNat &&& 0x103FF) ∧
    (∀ a, a % 4 ≠ 0 ∨ a < 0x1000 ∨ (0x1F00 ≤ a ∧ a < 0x2000) ∨ (0x6400 ≤ a ∧ a < 0x100000) ∨ 0x100200 ≤ a →
      exec (.registerWrite .bar0 a v) s = .next s)) ∧
    (∀ a, a = 4 ∨ a = 8 → ∃ t, exec (.registerWrite .pf1 a v) s = .next t ∧
      t.reg .pf1 a 1 / 2 ^ 16 = v.toNat / 2 ^ 16 ∧
      t.reg .pf1 a 1 % 2 ^ 16 = (if v.toNat % 2 ^ 16 = 0 then s.reg .pf1 a 1 % 2 ^ 16 else v.toNat % 2 ^ 16)) ∧
    (∃ t, exec (.registerWrite (.cfg 0) 4 v) s = .next t ∧ t.host.pf0 = { s.host.pf0 with bme := v.toNat.testBit 2 }) ∧
    (∃ t, exec (.registerWrite (.cfg 0) 0x40 v) s = .next t ∧ t.host.pf0.bme = s.host.pf0.bme ∧
      t.host.pf0.d3 = decide (v.toNat % 4 = 3)) ∧
    exec (.latchingRead .bar0 0x20) s = .next (s.updHost fun h => { h with timeLatch := s.time / 2 ^ 32 % 2 ^ 32 }) ∧
    (∀ st, exec (.latchingRead (.io st) 3) s =
      .next (s.updCore st fun c => { c with timeLatch := s.time / 2 ^ 32 % 2 ^ 32 }))

/-- R112, R258, R295, R377, R394, R463, R471, R485, R512: IN gives rd the port's value and OUT writes it where the allowance
permits; otherwise IO_ACCESS is entered; a port of a domain that is off reads 0 and sets PSW.nio. OUT_RD moves within
what is written; CAB_CFG keeps its size and its enable while it must, and setting enable starts the background sweep
anew. The model's choices in it: log entry 75. -/
def Obligations.PortAccesses : Prop :=
  ∀ (s : State) (st w a : Nat), s.runs st w → a = s.portOf st w →
    (sMajor w = 0x1D → s.portAllowed st a false = true → s.portOff a = false → s.portAsleep a = false →
      ¬(0x2000 ≤ a ∧ a < 0x2C00) → exec (.inPort st) s = .next (((s.ioTouch st a).updCore st fun k =>
        { k with g := putG k.g (sRd w) (s.ioVal st a), pc := (k.pc + 4) % 2 ^ 32 }).keep s)) ∧
    (sMajor w = 0x1D → s.portAllowed st 0 false = true → a = 0 → Puts s (.inPort st) st w (st + 0x100)) ∧
    (sMajor w = 0x1E → s.portAllowed st a true = true → s.portOff a = false → s.portAsleep a = false →
      exec (.outPort st) s = .next (((s.ioWrite st a (s.xd st w).toNat).updCore st fun k =>
        { k with pc := (k.pc + 4) % 2 ^ 32 }).keep s)) ∧
    (sMajor w = 0x1E → s.portAllowed st a true = true → a = 1 → ∃ t, exec (.outPort st) s = .next t ∧
      (t.core st).stkLo = (s.xd st w).toNat / 4 * 4 ∧ (t.core st).pc = ((s.core st).pc + 4) % 2 ^ 32) ∧
    (sMajor w = 0x1E → s.portAllowed st a true = false → Enters s (.outPort st) st 7 a) ∧
    (sMajor w = 0x1D → s.portAllowed st a false = false → Enters s (.inPort st) st 7 a) ∧
    (sMajor w = 0x1E → s.portAllowed st a true = true → s.portAbsent a = false → s.portOff a = true →
      exec (.outPort st) s = .next (s.updCore st fun k => { k with psw := k.psw ||| 2 ^ 6, pc := (k.pc + 4) % 2 ^ 32 })) ∧
    (sMajor w = 0x1D → s.portAllowed st a false = true → s.portAbsent a = false → s.portOff a = true →
      exec (.inPort st) s = .next (s.updCore st fun k =>
        { k with g := putG k.g (sRd w) 0, psw := k.psw ||| 2 ^ 6, pc := (k.pc + 4) % 2 ^ 32 })) ∧
    (∀ (v : Word) (o : Nat), s.domOn (outDom o) = true → s.alone → s.cm.db.held = none → ∃ t, exec (.outRdWrite o v) s = .next t ∧
      (if v.toNat % 2 ^ 26 < s.outSize o ∧ (v.toNat % 2 ^ 26 + s.outSize o - (s.outlet o).rd) % s.outSize o ≤
          ((s.outlet o).wr + s.outSize o - (s.outlet o).rd) % s.outSize o then
        (t.outlet o).rd = v.toNat % 2 ^ 26 ∧ (t.outlet o).rdBad = (s.outlet o).rdBad
      else (t.outlet o).rd = (s.outlet o).rd ∧ (t.outlet o).rdBad = true)) ∧
    (∀ v : Word, s.domOn 49 = true →
      (s.cabOn = false → 21 ≤ v.toNat % 32 → v.toNat % 32 ≤ 26 →
        ∃ t, exec (.cabCfgWrite v) s = .next t ∧ t.cabCfg = v.toNat % 32 + 2 ^ 8 * (v.toNat / 2 ^ 8 % 2) ∧
          (v.toNat.testBit 8 = true → t.cab.bgRegion = 0 ∧ t.cab.bgBucket = 0)) ∧
      (s.cabOn = true → ∃ t, exec (.cabCfgWrite v) s = .next t ∧ t.cabCfg % 32 = s.cabCfg % 32 ∧
        (s.jobCtxLive = true → t.cabOn = true))) ∧
    (∀ v : Word, 720 ≤ v.toNat % 1024 → v.toNat % 1024 ≤ 800 →
      ∃ t, exec (.pwrAvsWrite v) s = .next t ∧ t.pwr = { s.pwr with avs := v.toNat % 1024 }) ∧
    (∀ v : Word, s.sec.tmpCfg.testBit 7 = false →
      ∃ t, exec (.tmpCfgWrite v) s = .next t ∧ t.sec = { s.sec with tmpCfg := v.toNat % 2 ^ 8 }) ∧
    (∀ v : Word, s.sec.tmpCfg.testBit 7 = true → exec (.tmpCfgWrite v) s = .next s) ∧
    (∀ v : Word, ∃ t, exec (.snKillHoldWrite v) s = .next t ∧ t.sn = { s.sn with killHold := v.toNat % 2 ^ 8 })

/-- R404, R405, R409, R411 to R413, R420, R423, R424: a pending message goes out or stays; a moderation timer sends its
vector; BAR2 writes the job area of DDR5 and counts what lies outside; a function reset clears what R423 and R424 list
and leaves the data plane alone; an undefined id, GET_INFO, GET_CAPS and TRACE_CONFIG are answered; the JTAG IDCODE
(R552). The model's choices in it: log entries 4, 26 and 75. -/
def Obligations.HostCommands : Prop :=
  ∀ (s : State) (m : Nat) (a : List Byte),
    (∀ k, k ∈ s.host.pf0.pend → ∃ t, exec (.msixPendingSend 0 k) s = .next t ∧
      (if s.host.pf0.canSend k = true then t.host.pf0.sent = s.host.pf0.sent ++ [k] ∧ k ∉ t.host.pf0.pend
        else t.host.pf0 = s.host.pf0) ∧ t.host.pf1 = s.host.pf1) ∧
    (∀ o u, o < 2 → s.reg .pf1 (4 + 4 * o) 1 / 2 ^ 16 % 2 ^ 16 ≠ 0 → (s.outlet o).modSince = some u →
      ∃ t, exec (.pf1ModerationTimer o) s = .next t ∧
        t.time = max s.time (u + s.reg .pf1 (4 + 4 * o) 1 / 2 ^ 16 % 2 ^ 16 * 2000) ∧ (t.outlet o).modSince = none ∧
        (t.outlet o).modCount = 0 ∧ (o ∈ t.host.pf1.sent ∨ o ∈ t.host.pf1.pend)) ∧
    (∀ off data x, (s.reg .bar0 0x3060 0).testBit 16 = true → s.host.pf0.d3 = false → s.alone → s.cm.db.held = none →
      data ≠ [] →
      off + data.length ≤ 2 ^ 28 → x = s.reg .bar0 0x3060 0 % 2 ^ 10 * 2 ^ 28 + off →
      (∀ c < s.nDc, s.domOn (dcDom c) = true) → s.ddr.wf 0 = true →
      (s.inJobArea x data.length = true → ∃ t, exec (.bar2Write off data) s = .next t ∧ t.ddrBytes x data.length = data ∧
        t.host = s.host ∧ ∀ y, y < x ∨ x + data.length ≤ y → Mem.read 0 t.ddr y = Mem.read 0 s.ddr y) ∧
      (s.jobLimit ≤ x ∨ x + data.length ≤ s.jobBase → exec (.bar2Write off data) s =
        .next (s.updHost fun h => { h with dwinViol := min 0xFFFFFFFF (h.dwinViol + 1) }))) ∧
    (∀ off data, s.cm.db.held = none → (s.reg .bar0 0x3060 0).testBit 16 = false → exec (.bar2Write off data) s = .next s) ∧
    (∀ p, ∃ t, exec (.pf0Reset p) s = .next t ∧ t.host = { s.host with pf0 := {} } ∧ t.alertEn = 0 ∧ t.reg .bar0 0x3060 0 = 0 ∧
      t.crOn = false ∧ t.cm.db = { s.cm.db with held := none, posted := [] } ∧ t.cm.jobs = s.cm.jobs ∧ t.cm.queue = s.cm.queue ∧
      t.sites = s.sites ∧ t.lanes = s.lanes ∧ t.outlets = s.outlets ∧ t.pes = s.pes ∧
      (∀ j < 15, (t.mb j).cfg = 1 ∧ (t.mb j).state = (s.mb j).state ∧ (t.mb j).status = (s.mb j).status ∧
        ((s.mb j).state = 2 → (t.mb j).orphan = true)) ∧
      ∀ n, (s.peg n).held = true → (s.peg n).owner = 0 → (s.peg n).waits = [] → s.askedNow n = [] → (t.peg n).held = false) ∧
    (∀ p, ∃ t, exec (.pf1Reset p) s = .next t ∧ t.host = { s.host with pf1 := {} } ∧ t.reg .pf1 4 1 = 1 ∧ t.reg .pf1 8 1 = 1 ∧
      t.mbs = s.mbs ∧ t.cm = s.cm ∧ t.outlets = s.outlets) ∧
    (s.idcode % 2 = 1 ∧ s.idcode / 2 % 2 ^ 11 = 0x3B5 ∧ s.idcode / 2 ^ 12 % 2 ^ 16 = s.partNo ∧
      s.idcode / 2 ^ 28 = s.otp.dieRev % 16) ∧
    (m < 16 → (s.mb m).state = 1 → (s.mb m).cmdId ∉ mbIds → s.domOn 1 = true → s.clusterDown = false → s.fwRuns = true →
      ∃ t, exec (.mbGoUndefinedId m) s = .next t ∧ (t.mb m).state = 3 ∧ (t.mb m).status = BAD_ARG ∧ (t.mb m).rspLen = 0) ∧
    (s.mbServes m 0x01 0 [] a → ∃ t r, exec (.getInfo m) s = .next t ∧ (t.mb m).doneWith (s.mb m) OK r ∧ r.length = 104 ∧
      fld r 0 2 = s.partNo % 2 ^ 16 ∧ fld r 4 8 = s.otp.serial % 2 ^ 64 ∧ fld r 32 8 = s.time % 2 ^ 64 ∧
      fld r 16 4 = (if s.fwRuns = true then s.boot.image.version % 2 ^ 32 else 0)) ∧
    (s.mbServes m 0x02 0 [] a → ∃ t r, exec (.getCaps m) s = .next t ∧ (t.mb m).doneWith (s.mb m) OK r ∧ r.length = 40 ∧
      fld r 0 4 = s.idUnits0 % 2 ^ 32 ∧ fld r 4 4 = s.idUnits1 % 2 ^ 32 ∧ fld r 9 1 = 15 ∧ fld r 16 4 = s.admLimit % 2 ^ 32 ∧
      fld r 22 2 = s.cm.blocks.length % 2 ^ 16 ∧ fld r 36 1 = 64) ∧
    (s.mbServes m 0xA0 57 traceNamed a → traceOk a = true → (∀ k < 64, (fld a 24 8).testBit k = true → k < s.nPe) →
      s.trRingOn = false → (∀ k < s.nPe, s.physOf k < 68) → fld a 56 1 = 0 →
      ∃ t, exec (.traceConfig m) s = .next t ∧ (t.mb m).state = 3 ∧ (t.mb m).status = OK ∧ (t.mb m).rspLen = 8 ∧
        t.trRingCtl = fld a 0 4 ∧ t.trTrigCfg = fld a 4 4 ∧ t.trPost = fld a 16 4 ∧
        ∀ k < s.nPe, (fld a 24 8).testBit k = true → t.peReg (s.physOf k) 0x20 0x01FFFF00 = fld a 20 4)

/-- R426 to R428: the target takes and drops its dynamic address, governs its interrupts, returns its constants and its
status, resets its own registers and releases the BMC's pegs; private writes and reads reach its registers; an interrupt
is offered until it is accepted. The model's choices in it: log entries 4, 41, 62 and 76. -/
def Obligations.I3cCommands : Prop :=
  ∀ (s : State), s.i3cUp = true →
    (∀ n, s.i3c.addr = none → exec (.entdaa n) s = .next (s.updI3c fun i => { i with addr := some n })) ∧
    exec .rstdaa s = .next (s.updI3c fun i => { i with addr := none }) ∧
    (∃ t, exec .rstact s = .next t ∧ t.i3c.addr = none ∧ t.i3c.ptr = 0 ∧ t.bmcAlertEn = 0x600 ∧ (t.mb 15).cfg = 1 ∧
      t.host = s.host ∧ (t.mb 15).state = (s.mb 15).state ∧ ((s.mb 15).state = 2 → (t.mb 15).orphan = true) ∧
      ∀ n, (s.peg n).held = true → (s.peg n).owner = 1 → (s.peg n).waits = [] → s.askedNow n = [] → (t.peg n).held = false) ∧
    (s.i3c.addr ≠ none →
      (∀ b : Byte, (∃ t, exec (.enec b) s = .next t ∧ t.i3c = { s.i3c with ev := s.i3c.ev ||| b.toNat }) ∧
        (∃ t, exec (.disec b) s = .next t ∧ t.i3c = { s.i3c with ev := t.i3c.ev } ∧
          ∀ k, t.i3c.ev.testBit k = (s.i3c.ev.testBit k && !b.toNat.testBit k))) ∧
      (∀ i n, (i, n) ∈ ([(.getpid, 6), (.getbcr, 1), (.getdcr, 1), (.getmwl, 2), (.getmrl, 2), (.getstatus, 2)] :
          List (Instr × Nat)) →
        ∃ t, exec i s = .next t ∧ t.i3c.out.length = n ∧ t = { s with i3c := { s.i3c with out := t.i3c.out }, freeCnt := t.freeCnt }) ∧
      (∀ d : List Byte, d.length = 6 → fld d 0 2 = 0xC →
        ∃ t, exec (.i3cPrivateWrite d) s = .next t ∧ t.bmcAlertEn = fld d 2 2 ∧ t.i3c.ptr = 0x10) ∧
      (∀ (d : List Byte) (b : Byte) (a : Nat), d = leBytes 2 a ++ [b] → 0x120 ≤ a → a < 0x200 →
        ¬((s.mb 15).state = 1 ∨ (s.mb 15).state = 2) →
        ∃ t, exec (.i3cPrivateWrite d) s = .next t ∧ (t.mb 15).data.getD (a - 0x120) 0 = b ∧
          ∀ i, i ≠ a - 0x120 → (t.mb 15).data.getD i 0 = (s.mb 15).data.getD i 0) ∧
      (∀ p, s.i3c.ptr = p → p % 4 = 0 → p < 0x1000 →
        ∃ t, exec (.i3cPrivateRead 4) s = .next t ∧ t.i3c.out = leBytes 4 (s.i3cVal p) ∧ t.i3c.ptr = p + 4) ∧
      (∀ k r acc, s.i3c.ibi = k :: r → s.i3c.ev.testBit 0 = true →
        ∃ t, exec (.inBandInterrupt acc) s = .next t ∧ t.i3c.out = [BitVec.ofNat 8 k] ∧
          t.i3c.ibi = (if acc = true then r else k :: r)))

/-! ### Pair operation (chapter 13) and arbitration (R414 to R417) -/

/-- R433 to R438, R441: a package with PAIR_PREF high claims after 2 s or as the Bridge trains; a partner's claim or seat is
noted; a claim without a quorum, a late partner and a mismatch detach; the samples and the lane count follow. The model's
choices in it: log entries 44, 67, 68 and 129. -/
def Obligations.PairFormation : Prop :=
  ∀ (s : State), s.hasBridge = true →
    (∀ n, s.pair.state = 4 → s.pair.prefHigh = true → n = max s.pair.term s.pair.partnerTerm + 1 → n < 2 ^ 32 →
      (∃ t, exec .formationTimeout s = .next t ∧ t.time = max s.time (s.pair.formAt + 4000000000) ∧ t.pair.state = 1 ∧
        t.pair.term = n ∧ t.pair.unprot = true ∧ t.host.alert.testBit 7 = true ∧
        ∀ l < s.nLanes, (t.lane l).creditDue = true) ∧
      (∀ x, s.pair.en = true → s.domOn 4 = true → ∃ t, exec (.bridgeTrained x) s = .next t ∧ t.pair.state = 1 ∧
        t.pair.term = n ∧ t.pair.trained = true ∧ t.pair.lanes = 0xFF)) ∧
    (∀ x, s.pair.en = true → s.domOn 4 = true → s.pair.state = 2 ∨ s.pair.state = 4 ∧ s.pair.prefHigh = false →
      (s.sameParams x = true → ∃ t, exec (.bridgeTrained x) s = .next t ∧ t.pair.state = s.pair.state ∧
        t.pair.trained = true ∧ t.pair.lanes = 0xFF ∧ t.pair.partnerSame = true ∧ t.cm = s.cm) ∧
      (s.sameParams x = false → ∃ t, exec (.bridgeTrained x) s = .next t ∧ Detached s t 8)) ∧
    (∀ k, k < 8 → s.pair.lanes < 256 → s.pair.lanes.testBit k = true → ∃ t, exec (.bridgeLaneLoss k) s = .next t ∧
      (∀ i, t.pair.lanes.testBit i = (s.pair.lanes.testBit i && !decide (i = k))) ∧ t.pair.state = s.pair.state) ∧
    (∀ b, exec (.primClaimInChange b) s = .next (s.updPair fun p => { p with claimIn := b, claimAt := s.time })) ∧
    (∀ hb : Heartbeat, s.pair.en = true →
      (∃ t, exec (.heartbeatReceived hb) s = .next t ∧ t.pair.suspectAt = none ∧ t.pair.partnerRole = hb.role) ∧
      (s.pair.state = 4 → hb.role = 1 → s.initial = true → s.pair.claimSeenAt = none →
        ∃ t, exec (.heartbeatReceived hb) s = .next t ∧ t.pair.state = 4 ∧ t.pair.claimSeenAt = some s.time) ∧
      (s.pair.state = 4 → hb.role = 1 → s.initial = false →
        ∃ t, exec (.heartbeatReceived hb) s = .next t ∧ Detached s t 8) ∧
      (s.pair.state = 1 → s.pair.unprot = true → s.pair.running = false → s.pair.reseat = false → hb.role = 2 →
        s.pair.partnerRole ≠ 2 → ∃ t, exec (.heartbeatReceived hb) s = .next t ∧ t.pair.unprot = false ∧
          t.pair.seatDue = true ∧ t.host.alert.testBit 7 = true)) ∧
    (∀ u, s.pair.claimSeenAt = some u →
      (s.pair.state = 1 → (s.liveLanes.filter fun l => (s.lane l).following).length < s.quorum →
        ∃ t, exec .dualClaimCheck s = .next t ∧ t.time = max s.time (u + 20000) ∧ Detached s t 7) ∧
      (s.pair.state = 1 → s.quorum ≤ (s.liveLanes.filter fun l => (s.lane l).following).length →
        ∃ t, exec .dualClaimCheck s = .next t ∧ t.pair.state = 1 ∧ t.pair.claimSeenAt = none ∧ t.cm = s.cm) ∧
      (s.pair.state = 4 → ∃ t, exec .dualClaimCheck s = .next t ∧ Detached s t 8)) ∧
    (∀ n, s.pair.en = true → s.arb = [] → ∃ t, exec (.seatMessage n) s = .next t ∧
      t.arb = [{ obj := .pairRole, opened := s.time, cmds := [{ rank := 3, at_ := s.time, what := .partnerRole n }] }])

/-- R439, R440, R442 to R444, R446, R447, R449 to R452, R454, R457 to R459, R462, R511: an epoch closes with END at the next
boundary, of which a mark is broadcast, and at once when a decision comes after the boundary; an acknowledgement releases
what its epochs hold; the standby keeps records until END, then follows them, and detaches on a reserved type, lag or a
mismatch; suspicion, takeover and Bridge loss follow their times; a reseat ends in SEAM or fails. The model's choices in
it: log entries 64, 65, 66, 71, 82, 83 and 128. -/
def Obligations.PairEpochs : Prop :=
  ∀ (s : State), s.hasBridge = true →
    (∀ n, n = 2000 * s.epochUs → 4 ≤ s.epochUs → s.pair.state = 1 → s.pair.running = true →
      ∃ t, exec .epochBoundary s = .next t ∧ t.time = max s.time ((s.pair.lastB / n + 1) * n) ∧
        t.pair.lastB = (s.pair.lastB / n + 1) * n ∧ t.pair.early = false ∧
        (s.pair.early = false → t.pair.epoch = s.pair.epoch + 1 ∧
          t.net.notices = s.net.notices ++ [.epoch (s.pair.epoch + 1)] ∧
          t.pair.journal = [] ∧ t.pair.sent = s.pair.sent ++ s.pair.journal ++
            [{ ty := 0x0F, args := [s.pair.epoch, s.pair.journal.length, s.pair.digest], data := [] }]) ∧
        (s.pair.early = true → t.pair.epoch = s.pair.epoch ∧ t.pair.journal = s.pair.journal ∧ t.pair.sent = s.pair.sent ∧
          t.net.notices = s.net.notices ++ [.epoch s.pair.epoch])) ∧
    (∀ (ty : Nat) (l : List Nat) (d : List Byte), s.journals = true →
      (s.epochOver = false → s.jrnl ty l d =
        s.updPair fun p => { p with journal := p.journal ++ [{ ty := ty, args := l, data := d }] }) ∧
      (s.epochOver = true → (s.jrnl ty l d).pair.epoch = s.pair.epoch + 1 ∧ (s.jrnl ty l d).pair.early = true ∧
        (s.jrnl ty l d).pair.journal = [{ ty := ty, args := l, data := d }])) ∧
    (s.pair.state = 1 → s.pair.running = false → s.pair.seatDue = false → s.pair.reseat = true → s.pair.copyDone = true →
      ∃ t, exec .epochBoundary s = .next t ∧ t.pair.running = true ∧ t.pair.epoch = 0 ∧ t.pair.seamPassed = true ∧
        t.pair.reseat = false ∧ t.pair.unprotJobs = s.cm.jobs.map (·.1) ∧
        (t.pair.unprot = true ↔ s.cm.jobs ≠ []) ∧
        t.pair.journal = [{ ty := 0x0E, args := s.cm.jobs.map (·.1), data := s.cm.queue.flatMap (·.desc) }]) ∧
    (∀ k l r c, s.journals = true → s.pair.acked = none → s.pair.sent = l ++ { ty := 0x0F, args := k :: c, data := [] } :: r →
      (∀ x ∈ r, x.ty = 0x0F → k < x.args.headD 0) →
      ∃ t, exec (.epochAck k) s = .next t ∧ t.pair.acked = some k ∧ t.pair.sent = r ∧
        (∀ m < 16, ∀ e st rsp, (s.mb m).held = some (e, st, rsp) → e ≤ k → (t.mb m).state = 3 ∧ (t.mb m).status = st ∧
          (t.mb m).data = padTo 224 rsp ∧ (t.mb m).held = none) ∧
        ∀ m < 16, ∀ e st rsp, (s.mb m).held = some (e, st, rsp) → k < e → t.mb m = s.mb m) ∧
    (∃ t, exec .heartbeatSend s = .next t ∧ (s.pair.en = true → s.bridgeUp = true →
      t.time = max s.time (s.pair.hbOut + 500) ∧ t.pair.hbOut = t.time ∧ ∃ h : Heartbeat, t.pair.hbSent = some h ∧
        h.role = s.role ∧ h.term = s.pair.term ∧ h.epoch = s.pair.epoch ∧ h.acked = s.ackNum)) ∧
    (∀ r, s.standby = true → r.ty ≠ 0 → r.ty ≤ 0x0A ∨ r.ty = 0x0E → ∃ t, exec (.journalRecordReceived r) s = .next t ∧
      t.pair = { s.pair with rxCur := s.pair.rxCur ++ [r] } ∧ t.cm = s.cm) ∧
    (∀ r, s.standby = true → r.ty = 0 ∨ 0x0B ≤ r.ty ∧ r.ty ≤ 0x0D ∨ 0x10 ≤ r.ty →
      ∃ t, exec (.journalRecordReceived r) s = .next t ∧ Detached s t 2) ∧
    (∀ r, s.standby = true → r.ty = 0x0F →
      (s.replayed 0 = false → ∃ t, exec (.journalRecordReceived r) s = .next t ∧ Detached s t 3) ∧
      (s.pair.rxBad = true → ∃ t, exec (.journalRecordReceived r) s = .next t ∧ Detached s t 3) ∧
      (s.replayed 0 = true → s.pair.rxBad = false → s.digestOk = false →
        ∃ t, exec (.journalRecordReceived r) s = .next t ∧ Detached s t 2) ∧
      (s.replayed 0 = true → s.pair.rxBad = false → s.digestOk = true →
        r.args.getD 0 0 ≠ s.pair.epoch ∨ r.args.getD 1 0 ≠ s.pair.rxCur.length →
        exec (.journalRecordReceived r) s = .next (s.updPair fun p => { p with rxBad := true })) ∧
      (∀ q d, s.replayed 0 = true → s.pair.rxBad = false → s.digestOk = true → r.args = [s.pair.epoch, 1, d] → s.pair.rxCur = [q] →
        s.pair.unprotJobs = [] → q.ty < 0x0F →
        (∀ l k v p, q.ty = 2 → q.args = [l, k, v, p] → ∃ t, exec (.journalRecordReceived r) s = .next t ∧
          t.pair.values = [(l, k, v, p != 0)] ∧ t.pair.acked = some s.pair.epoch ∧ t.pair.epoch = s.pair.epoch + 1 ∧
          t.pair.rxDigest = some d ∧ t.pair.rxCur = []) ∧
        (∀ j c l k, q.ty = 1 → q.args = [j, c, l, k] → ∃ t, exec (.journalRecordReceived r) s = .next t ∧
          t.pair.grants = [(j, c, l, k)] ∧ t.pair.acked = some s.pair.epoch) ∧
        (∀ o n c f x, q.ty = 7 → q.args = [o, n, c, f, x] → ∃ t, exec (.journalRecordReceived r) s = .next t ∧
          t.pair.seqs = [(o, n, c, f)] ∧ t.pair.acked = some s.pair.epoch) ∧
        (∀ k i c, q.ty = 4 → q.args = [k, i, c] → (s.site k).halted = false →
          ∃ t, exec (.journalRecordReceived r) s = .next t ∧ t.pair.branchPts = [(k, i, c)]) ∧
        (∀ k l i c, q.ty = 0x0A → q.args = [k, l, i, c] → 16 ≤ c →
          ∃ t, exec (.journalRecordReceived r) s = .next t ∧ t.pair.ctls = [(k, i, c - 16)]) ∧
        (∀ m i g n, q.ty = 6 → q.args = [m, m, i, g, n] → m < 16 →
          ∃ t, exec (.journalRecordReceived r) s = .next t ∧ (t.mb (16 + m)).state = 1 ∧
            (t.mb (16 + m)).cmd = i + g * 2 ^ 8 + n * 2 ^ 16 ∧ (t.mb (16 + m)).data = padTo 224 q.data))) ∧
    (∀ u, s.standby = true → s.pair.suspectAt = none → s.pair.hbIn = some u → ∃ t, exec .suspicion s = .next t ∧
      t.time = max s.time (u + 2000) ∧ t.pair.suspectAt = some t.time) ∧
    (∀ u n, s.standby = true → s.pair.suspectAt = some u → s.time ≤ u + 4000 →
      s.pair.claimIn = false ∨ s.quorum ≤ s.absentLanes → n = max s.pair.term s.pair.partnerTerm + 1 →
      (n < 2 ^ 32 → s.pair.unprotJobs = [] → ∃ t, exec .takeover s = .next t ∧ t.pair.state = 1 ∧ t.pair.term = n ∧
        t.pair.unprot = true ∧ t.pair.rxCur = [] ∧ t.pair.takeovers = min 0xFFFFFFFF (s.pair.takeovers + 1) ∧
        t.pair.values = s.pair.values ∧ t.pair.grants = s.pair.grants ∧ t.cm = s.cm ∧ t.sites = s.sites ∧
        t.host.alert.testBit 7 = true ∧ ∀ l < s.nLanes, (t.lane l).creditDue = true) ∧
      (2 ^ 32 ≤ n → ∃ t, exec .takeover s = .next t ∧ t.pair = s.pair)) ∧
    (∀ u, s.standby = true → s.pair.suspectAt = some u → ∃ t, exec .confirmationExpiry s = .next t ∧
      t.time = max s.time (u + 4000) ∧ Detached s t 1) ∧
    (∀ u, s.pair.state = 1 → s.pair.running = true → s.pair.unprot = false → s.pair.swapMb = none → s.pair.hbIn = some u →
      ∃ t, exec .bridgeLossAtActive s = .next t ∧ t.time = max s.time (u + 6000) ∧ t.pair.unprot = true ∧
        t.pair.running = false ∧ t.host.alert.testBit 7 = true ∧ t.cm = s.cm ∧
        ∀ m < 16, ∀ e st rsp, (s.mb m).held = some (e, st, rsp) → (t.mb m).state = 3 ∧ (t.mb m).status = st) ∧
    (∀ a bs, s.pair.state = 2 ∨ s.pair.state = 3 → s.ddr.wf 0 = true → ∃ t, exec (.mirrorWrite a bs) s = .next t ∧
      t.ddrBytes a bs.length = bs ∧ t.pair = s.pair ∧
      ∀ y, y < a ∨ a + bs.length ≤ y → Mem.read 0 t.ddr y = Mem.read 0 s.ddr y) ∧
    (∀ n l cfg, s.pair.state = 3 → s.bridgeUp = true → ∃ t, exec (.seam n l cfg) s = .next t ∧ t.pair.state = 2 ∧
      t.pair.term = max s.pair.term n ∧ t.pair.epoch = 0 ∧ t.pair.unprotJobs = l ∧
      (∀ j ∈ l, (Tbl.find t.cm.jobs j).isSome = true) ∧ t.cohorts = cfg.cohorts ∧
      (∀ i img b, cfg.blocks = [(i, img)] → s.plainBody img = .ok b →
        Tbl.find t.cm.blocks i = some (blockOf (img.take 64) b)) ∧
      (cfg.sites = [] → ∀ k < 128, (t.site k).bound = false)) ∧
    (s.pair.reseat = true → exec .reseatCopyDone s =
      .next (s.updPair fun p => { p with copyDone := true, reseatPct := 100, lastB := s.time })) ∧
    (s.pair.state = 1 → s.pair.reseat = true → ∃ t, exec .reseatFailure s = .next t ∧ t.pair.reseat = false ∧
      t.host.alert.testBit 7 = true) ∧
    (s.pair.state = 3 → ∃ t, exec .reseatFailure s = .next t ∧ t.pair.state = 3 ∧ t.pair.detach = 9) ∧
    (s.journals = true → s.pair.unprot = true → s.pair.unprotJobs = [] → ∃ t, exec .unprotectedJobEnd s = .next t ∧
      t.pair = { s.pair with unprot := false } ∧ t.host.alert.testBit 7 = true) ∧
    exec .standbyFirmwareRunning s = .next (s.updPair fun p => { p with fwWait := false })

/-- R434, R441, R455, R456, R465: PAIR_STATUS reports the role, the term, E and the last epoch acknowledged; PAIR_SWAP lands
at the arbiter, the standby claims when it has replayed everything, and the former active is then STANDBY at the new term
and answers it; PAIR_RESEAT starts a reseat, or says why not; a peg operation goes to the partner and its word returns.
The model's choices in it: log entries 69, 71 and 72. -/
def Obligations.PairCommands : Prop :=
  ∀ (s : State) (m : Nat), m < 16 → s.hasBridge = true →
    (∀ i k, (i, k) ∈ ([(.pairStatus m, 0x50), (.pairSwap m, 0x51), (.pairReseat m, 0x52)] : List (Instr × Nat)) →
      (s.mb m).state = 1 → (s.mb m).cmdId = k → (s.mb m).replay = none → s.domOn 1 = true → s.hostRoom = true →
      s.mbCheck m 0 [] true false = none →
      (k = 0x50 → ∃ t r, exec i s = .next t ∧ (t.mb m).doneWith (s.mb m) OK r ∧ r.length = 24 ∧ fld r 0 1 = s.role % 256 ∧
        fld r 4 4 = s.pair.term % 2 ^ 32 ∧ fld r 8 2 = s.epochUs ∧ fld r 16 8 = s.ackNum % 2 ^ 64) ∧
      (k = 0x51 → s.pair.en = true → s.arb = [] → ∃ t, exec i s = .next t ∧ (t.mb m).state = 2 ∧
        t.arb = [{ obj := .pairRole, opened := s.time, cmds := [{ rank := 2, at_ := s.time, what := .swap m }] }]) ∧
      (k = 0x51 → s.pair.en = false → s.journals = false →
        ∃ t, exec i s = .next t ∧ (t.mb m).doneWith (s.mb m) NOT_ACTIVE []) ∧
      (k = 0x52 → s.pair.en = true → s.pair.state = 1 →
        if (s.pair.partnerRole = 3 ∧ s.pair.running = false) ∧ s.bridgeUp = true ∧ s.pair.reseat = false ∧ s.pair.partnerSame = true
        then ∃ t, exec i s = .next t ∧ (t.mb m).doneWith (s.mb m) ACCEPTED [] ∧ t.pair.reseat = true ∧ t.pair.reseatPct = 0
        else ∃ t, exec i s = .next t ∧ (t.mb m).doneWith (s.mb m) DENIED [] ∧ t.pair = s.pair) ∧
      (k = 0x52 → s.pair.en = false ∨ s.pair.state ≠ 1 → ∃ t, exec i s = .next t ∧ (t.mb m).doneWith (s.mb m) NOT_ACTIVE [])) ∧
    (∀ n, (s.mb (16 + m)).state = 1 → (s.mb (16 + m)).cmdId = 0x51 → s.standby = true → s.replayed (16 + m) = true →
      s.digestOk = true → n = max s.pair.term s.pair.partnerTerm + 1 → n < 2 ^ 32 →
      ∃ t, exec (.pairSwap (16 + m)) s = .next t ∧ t.pair.state = 1 ∧ t.pair.term = n ∧ t.pair.unprot = false ∧
        t.pair.running = true ∧ t.cm = s.cm) ∧
    (∀ hb : Heartbeat, s.pair.en = true → s.pair.state = 1 → s.pair.swapMb = some m → s.pair.swapAt.isSome = true → hb.role = 1 →
      s.pair.term < hb.term → ∃ t, exec (.heartbeatReceived hb) s = .next t ∧ t.pair.state = 2 ∧ t.pair.term = hb.term ∧
        t.pair.swapMb = none ∧ (t.mb m).state = 3 ∧ (t.mb m).status = OK ∧ (t.mb m).data = padTo 224 (leBytes 4 hb.term)) ∧
    (∀ i k n, (i, k) ∈ ([(.partnerPegAcquire n, 1), (.partnerPegRead n, 2), (.partnerPegRelease n, 3)] : List (Instr × Nat)) →
      s.domOn 4 = true → (s.dom 4).going = none → s.bridgeUp = true →
      exec i s = .next (s.updPair fun p => { p with pegReq := some (k, n), pegRes := 0 })) ∧
    (∀ w : Word, s.pair.pegReq ≠ none → exec (.partnerPegResult w) s =
      .next (s.updPair fun p => { p with pegRes := w.toNat, pegReq := none }))

/-- R414 to R417: 64 ns after its window opened, an object's commands are settled: a command that contradicts one of higher
rank is superseded and counted, the others act in rank order. The model's choices in it: log entries 10 and 45. -/
def Obligations.Arbitration : Prop :=
  ∀ (s : State) (w : Window), s.arb = [w] → s.alone →
    (∃ t, exec (.arbiterWindowClose w.obj) s = .next t ∧ t.time = max s.time (w.opened + 128) ∧ t.arb = []) ∧
    (∀ k op c u, w.obj = .site k → w.cmds = [{ rank := 4, at_ := u, what := .sitectl op c }] →
      ∃ t, exec (.arbiterWindowClose w.obj) s = .next t ∧ (t.site k).ctl = (s.site k).ctl ++ [(op, c)] ∧
        t.host.superseded = s.host.superseded) ∧
    (∀ k op pe x u, w.obj = .site k → w.cmds = [{ rank := 4, at_ := u, what := .branch op pe x }] →
      ∃ t b, exec (.arbiterWindowClose w.obj) s = .next t ∧ (t.site k).brq = (s.site k).brq ++ [b] ∧ b.op = op ∧ b.pe = pe ∧
        b.word = x ∧ b.at_ = t.time ∧ b.land = u) ∧
    (∀ k m u v op c, w.obj = .site k → (s.site k).bound = false → m < 16 →
      w.cmds = [{ rank := 4, at_ := u, what := .sitectl op c }, { rank := 2, at_ := v, what := .retire m }] →
      ∃ t, exec (.arbiterWindowClose w.obj) s = .next t ∧ (t.site k).ctl = (s.site k).ctl ∧
        t.host.superseded = min 0xFFFFFFFF (s.host.superseded + 1) ∧ (t.mb m).state = 3 ∧ (t.mb m).status = NOT_ACTIVE ∧
        ∀ o, (t.lg (k / 8)).ops.find? (fun o => o.id == op) = some o → o.sup = true) ∧
    (∀ k m u, w.obj = .site k → (s.site k).bound = true → m < 16 → w.cmds = [{ rank := 2, at_ := u, what := .retire m }] →
      ∃ t, exec (.arbiterWindowClose w.obj) s = .next t ∧ (t.site k).bound = false ∧ (t.site k).job = none ∧
        (t.mb m).state = 3 ∧ (t.mb m).status = OK) ∧
    (∀ k m r u, w.obj = .site k → m < 16 → w.cmds = [{ rank := 2, at_ := u, what := .rejoin m r }] →
      (s.site k).quar = false → ∃ t, exec (.arbiterWindowClose w.obj) s = .next t ∧ (t.mb m).state = 3 ∧
        (t.mb m).status ≠ OK ∧ t.site k = s.site k) ∧
    (∀ m x u, w.obj = .throttle → m < 16 → w.cmds = [{ rank := 2, at_ := u, what := .throttle m x }] →
      ∃ t, exec (.arbiterWindowClose w.obj) s = .next t ∧ t.pwr.hostThr = x ∧ (t.mb m).state = 3 ∧ (t.mb m).status = OK) ∧
    (∀ m x y u v, w.obj = .throttle → m < 16 → x ≠ y →
      w.cmds = [{ rank := 2, at_ := u, what := .throttle m x }, { rank := 1, at_ := v, what := .snThrottle y }] →
      ∃ t, exec (.arbiterWindowClose w.obj) s = .next t ∧ t.pwr.hostThr = s.pwr.hostThr ∧ t.pwr.snThr = y ∧
        t.host.superseded = min 0xFFFFFFFF (s.host.superseded + 1) ∧ (t.mb m).state = 3 ∧ (t.mb m).status = SUPERSEDED) ∧
    (∀ d m x y u v, w.obj = .domain d → m < 15 → x ≠ y → s.domCheck d y = none →
      w.cmds = [{ rank := 2, at_ := u, what := .setDomain (.mb m) x }, { rank := 1, at_ := v, what := .setDomain (.mb 15) y }] →
      ∃ t, exec (.arbiterWindowClose w.obj) s = .next t ∧ (t.dom d).set_ = y ∧ (t.mb m).state = 3 ∧
        (t.mb m).status = SUPERSEDED) ∧
    (∀ k st x i u, w.obj = .rule k → w.cmds = [{ rank := 2, at_ := u, what := .ruleWrite (.port st x) i }] →
      ∃ t, exec (.arbiterWindowClose w.obj) s = .next t ∧ (t.rule k).next = some i ∧ t.sn.refused = false)

/-! ### Power and the sentinel (chapter 14) -/

/-- R469 to R477, R479: POWER_POLICY's settings land at their arbiters or take effect; a domain ends its entry or wakes; a
woken domain delivers the register accesses held for it, and goes back after its hold-off; the policy rests what is idle;
fabric sleep hands TIME to the AO timebase, whose next tick it wakes at; TIME moves by 500 at a tick while the fabric
clock does not run. The model's choices in it: log entries 7, 53, 58 and 114. -/
def Obligations.PowerCommands : Prop :=
  ∀ (s : State) (m d : Nat) (a : List Byte) (x : Domain), s.dom d = x →
    (s.mbServes m 0x90 8 ppNamed a → s.arb = [] →
      (fld a 0 1 = 0 → fld a 1 1 = d → d ≤ 49 → s.domPresent d = true → ∃ t, exec (.powerPolicyDomain (.mb m)) s = .next t ∧
        (t.mb m).state = 2 ∧ t.arb = [{ obj := .domain d, opened := s.time, cmds :=
          [{ rank := if m = 15 then 1 else 2, at_ := s.time, what := .setDomain (.mb m) (fld a 2 1) }] }]) ∧
      (fld a 0 1 = 1 → fld a 2 1 ≤ 2 → 10 ≤ fld a 4 4 → fld a 4 4 ≤ 10000000 →
        ∃ t, exec (.powerPolicyInsertions m) s = .next t ∧ (t.mb m).doneWith (s.mb m) OK (leBytes 1 s.polLevel) ∧
          t.polLevel = fld a 2 1 ∧ t.holdoff = fld a 4 4 * 2000) ∧
      (fld a 0 1 = 1 → 2 < fld a 2 1 ∨ fld a 4 4 < 10 ∨ 10000000 < fld a 4 4 →
        ∃ t, exec (.powerPolicyInsertions m) s = .next t ∧ (t.mb m).doneWith (s.mb m) BAD_ARG [] ∧ t.regs = s.regs) ∧
      (fld a 0 1 = 2 → fld a 2 1 ≤ 7 → fld a 4 4 = 0 → ∃ t, exec (.powerPolicyThrottle m) s = .next t ∧
        (t.mb m).state = 2 ∧ t.arb = [{ obj := .throttle, opened := s.time, cmds :=
          [{ rank := if m = 15 then 1 else 2, at_ := s.time, what := .throttle m (fld a 2 1) }] }])) ∧
    (∀ st (w : Word), s.pwr.cmdBusy = false → s.domOn 1 = true → w.toNat % 64 = d → d ≤ 49 → s.arb = [] →
      ∃ t, exec (.powerPolicyDomain (.port st w)) s = .next t ∧ t.pwr = { s.pwr with cmdBusy := true } ∧
        t.arb = [{ obj := .domain d, opened := s.time, cmds :=
          [{ rank := if w.toNat.testBit 10 = true then 1 else 2, at_ := s.time,
             what := .setDomain (.port st w) (w.toNat / 2 ^ 8 % 4) }] }]) ∧
    (∀ l (v : Word), s.domPresent d = true → x.reset_ = false → s.pwr.asleep = false → x.going = some 2 → x.set_ = 2 →
      x.down = 0 → s.mayWake d = true → d = lgDom (l / 8) → s.net.regHold = [(d, .cuCntClr l v)] → s.fc.at_ < s.time →
      ∃ t, exec (.domainTransitionDone d) s = .next t ∧ t.net.regHold = [] ∧ Tbl.get 0 (t.cu l).cnt 0x0E = 0) ∧
    (s.domPresent d = true → x.reset_ = false → s.pwr.asleep = false → s.net.regHold = [] →
      (x.going = some 2 → x.set_ = 2 → x.down = 0 → s.mayWake d = true → ∃ t, exec (.domainTransitionDone d) s = .next t ∧
        (t.dom d).state = 2 ∧ (t.dom d).going = none ∧ (t.dom d).waits = []) ∧
      (∀ k, k < 2 → x.going = some k → x.set_ = k → s.entryReady d = true → ∃ t, exec (.domainTransitionDone d) s = .next t ∧
        (t.dom d).state = k ∧ (t.dom d).going = none ∧ (t.dom d).waits = []) ∧
      (x.going = none → x.wake = true → x.state ≠ 2 → x.down = 0 → s.mayWake d = true →
        ∃ t, exec (.domainTransitionDone d) s = .next t ∧ (t.dom d).state = 2 ∧ (t.dom d).wake = false ∧
          (t.dom d).woken = decide (x.set_ ≠ 2)) ∧
      (x.woken = true → x.state = 2 → x.going = none → x.set_ = 1 → s.domIdle d = true →
        ∃ t, exec (.domainIdleHoldoff d) s = .next t ∧ t.time = max s.time (x.idleSince + s.holdoff) ∧
          (t.dom d).going = some 1) ∧
      (∀ u, s.polLevel = 1 ∨ s.polLevel = 2 → s.anyJob = false → s.pwr.idleAt = some u → 7 ≤ d → d ≤ 49 → x.state = 2 →
        x.going = none → s.domBusy d 1 = false → s.domIdle d = true → ∃ t, exec .policyApply s = .next t ∧
          t.time = max s.time (u + s.holdoff) ∧ (t.dom d).going = some 1)) ∧
    (s.pwr.asleep = false → s.anyJob = false →
      (s.pwr.step = 1 → s.stepDone 1 = true → ∃ t, exec .fabricSleepStep s = .next t ∧ t.pwr.step = 2) ∧
      (s.pwr.step = 5 → s.stepDone 5 = true → ∃ t, exec .fabricSleepStep s = .next t ∧ t.pwr.asleep = true ∧
        t.pwr.ts = s.time ∧ (t.dom 5).state = 1 ∧ (t.dom 6).state = 1)) ∧
    (∀ k, s.pwr.asleep = true → s.pwr.fref = true → s.net.regHold = [] → ∃ t, exec (.fabricWake k) s = .next t ∧ t.time = s.time + 500 ∧
      t.pwr.asleep = false ∧ t.pwr.tw = t.time ∧ t.pwr.wakeCnt = min 0xFFFFFFFF (s.pwr.wakeCnt + 1) ∧
      (t.dom 5).state = 2 ∧ (t.dom 6).state = 2) ∧
    (∀ k, s.pwr.asleep = false → s.pwr.step ≠ 0 → ∃ t, exec (.fabricWake k) s = .next t ∧ t.pwr.step = 0 ∧
      t.time = s.time) ∧
    (∀ q, q ∈ s.pwr.flush → ∃ t, exec (.quadTraceFlush q) s = .next t ∧ q ∉ t.pwr.flush ∧ Tbl.get [] t.trace.coll q = [] ∧
      t.pwr.slept = s.pwr.slept ++ [q]) ∧
    (s.pwr.waking = none → exec .aoTick s = .next { s with
      time := if s.fabricRuns = true then s.time else s.time + 500,
      pwr := if s.pwr.fref = true then s.pwr else { s.pwr with undisc := min 0xFFFFFFFF (s.pwr.undisc + 1) } })

/-- R480, R481, R489, R494: a bad rail puts every domain that it feeds in reset and is counted; VDD_AO and VDD_IO reset PD00
too; domains leave reset when their rails are good; FREF and LREF are handled as R481 says; RESET_N resets everything but
PD00. The model's choices in it: log entries 51, 52, 84 and 94. -/
def Obligations.SuppliesAndResets : Prop :=
  ∀ (s : State) (r : Nat),
    (s.pwr.rails.testBit r = true → 2 ≤ r → r < 7 → ∃ t, exec (.railBad r) s = .next t ∧
      (∀ i, t.pwr.rails.testBit i = (s.pwr.rails.testBit i && !decide (i = r))) ∧
      t.pwr.railLoss = min 0xFFFFFFFF (s.pwr.railLoss + 1) ∧ t.time = s.time ∧
      ∀ d < 50, s.domPresent d = true → r ∈ domRails d → (t.dom d).reset_ = true ∧ (t.dom d).state = 0) ∧
    (s.pwr.rails.testBit r = true → r < 2 → ∃ t, exec (.railBad r) s = .next t ∧
      (∀ i, t.pwr.rails.testBit i = (s.pwr.rails.testBit i && !decide (i = r))) ∧ t.sn = {} ∧ t.cm = {} ∧
      t.host.mem = s.host.mem ∧ t.boot.cs0 = s.boot.cs0 ∧ t.otp = s.otp ∧
      ∀ d, 1 ≤ d → d < 50 → (t.dom d).reset_ = true) ∧
    (s.pwr.rails.testBit r = false → r < 7 → s.boot.resetLow = false → s.sn.trip = false →
      ∃ t, exec (.railGood r) s = .next t ∧ (∀ i, t.pwr.rails.testBit i = (s.pwr.rails.testBit i || decide (i = r))) ∧
        ∀ d < 50, s.domPresent d = true → t.railsOk d = true → (t.dom d).reset_ = false) ∧
    (s.fabricRuns = true → ∃ t, exec .frefLoss s = .next t ∧ t.pwr.fref = false ∧
      t.pwr.railLoss = min 0xFFFFFFFF (s.pwr.railLoss + 1) ∧ (t.dom 1).reset_ = true ∧ t.cm.jobs = []) ∧
    (s.fabricRuns = false → s.pwr.fref = true →
      exec .frefLoss s = .next (s.updPwr fun p => { p with fref := false })) ∧
    (s.pwr.fref = false → ∃ t, exec .frefReturn s = .next t ∧ t.pwr.fref = true) ∧
    (r < 4 → ∃ t, exec (.lrefLoss r) s = .next t ∧ t.pwr.lref.testBit r = false ∧
      (r = 3 → ∀ i < 8, t.pair.lanes.testBit i = false) ∧
      ∀ l, l / 32 = r → (s.lane l).linked = true → (t.lane l).state = 2 ∧ (t.lane l).cause = 1) ∧
    (∃ t, exec .resetAssert s = .next t ∧ t.boot.resetLow = true ∧ t.time = s.time ∧ t.cm = {} ∧ t.sites = [] ∧
      t.lanes = [] ∧ t.sn.rules = s.sn.rules ∧ t.sn.killHold = s.sn.killHold ∧ t.i3c = s.i3c ∧ t.rcd = s.rcd ∧
      (∀ d, 1 ≤ d → d < 50 → (t.dom d).reset_ = true) ∧
      ((∀ x ∈ s.sn.inputs.take 48, x < 500) → t.sn.trip = false))

/-- R484 to R490: rule images are read, written, disabled and copied; a sample takes f as the rounded mean of the last
avg_len values and moves the rule's counts as its mode, hyst and debounces say; the actions of an onset; the hardware
path of DPF_N; the trip at 165 °C. The model's choices in it: log entries 54 and 55. -/
def Obligations.SentinelCommands : Prop :=
  ∀ (s : State) (m k : Nat) (a : List Byte), k < 64 →
    (∀ op n, s.mbServes m 0x91 n snNamed a → fld a 0 1 = op → fld a 1 1 = k → s.arb = [] →
      (op = 0 → n = 2 → ∃ t, exec (.sentinelRulesRead m) s = .next t ∧ (t.mb m).doneWith (s.mb m) OK (s.rule k).img) ∧
      (op = 1 → n = 72 → snImageOk k (slice a 8 64) = true → ∃ t, exec (.sentinelRulesWrite (.mb m)) s = .next t ∧
        (t.mb m).state = 2 ∧ t.arb = [{ obj := .rule k, opened := s.time, cmds :=
          [{ rank := if m = 15 then 1 else 2, at_ := s.time, what := .ruleWrite (.mb m) (slice a 8 64) }] }]) ∧
      (op = 1 → n = 72 → snImageOk k (slice a 8 64) = false → ∃ t, exec (.sentinelRulesWrite (.mb m)) s = .next t ∧
        (t.mb m).doneWith (s.mb m) BAD_ARG [] ∧ t.sn = { s.sn with refused := true }) ∧
      (op = 2 → n = 2 → ∃ t, exec (.sentinelRulesDisable (.mb m)) s = .next t ∧ (t.mb m).state = 2 ∧
        t.arb = [{ obj := .rule k, opened := s.time, cmds :=
          [{ rank := if m = 15 then 1 else 2, at_ := s.time, what := .ruleDisable (.mb m) }] }])) ∧
    (∀ st (w : Word), s.arb = [] → s.snSel = k → snImageOk k s.snStaged = true →
      ∃ t, exec (.sentinelRulesWrite (.port st w)) s = .next t ∧ t.arb = [{ obj := .rule k, opened := s.time, cmds :=
        [{ rank := 2, at_ := s.time, what := .ruleWrite (.port st w) s.snStaged }] }]) ∧
    (∃ t, exec .snRuleCopy s = .next t ∧ t.snStaged = (s.rule s.snSel).img) ∧
    (k < 8 → ∃ t, exec (.dpfAssert k) s = .next t ∧ t.sn.killHw.testBit k = true ∧ t.killState.testBit k = true ∧
      t.sn.dpfCnt = min 0xFFFFFFFF (s.sn.dpfCnt + 1)) ∧
    (∀ u, s.sn.killHw.testBit k = true → Tbl.find s.sn.dpfHigh k = some u → ∃ t, exec (.dpfReleaseTimer k) s = .next t ∧
      t.time = max s.time (u + 2000000) ∧ t.sn.killHw.testBit k = false) ∧
    (∀ (raw : List Int) (r : SnRule) (i : List Byte) (h : List Int) (f : Int), s.sn.rules = [(k, r)] → r.next = none →
      r.image = i → snEnabled i = true → snInput i < 48 → snAnd i = 0 → (∀ n < 48, raw.getD n 0 < 660) → s.sn.trip = false →
      h = (raw.getD (snInput i) 0 :: r.hist).take (snAvg i) → f = h.foldl (· + ·) 0 / (h.length : Int) →
      snActs i &&& 0x1F0 = 0 →
      ∃ t n, exec (.sentinelSample raw) s = .next t ∧ Tbl.find t.sn.rules k = some n ∧ n.hist = h ∧ n.f = f ∧ n.image = i ∧
        (snMode i = 0 → r.own = false → snThreshold i < f →
          if fld i 4 1 ≤ r.meets + 1 then n.own = true ∧ n.holds = true else n.own = false ∧ n.meets = r.meets + 1) ∧
        (snMode i = 0 → r.own = false → f ≤ snThreshold i → n.own = false ∧ n.meets = 0) ∧
        (snMode i = 0 → r.own = true → f ≤ snThreshold i - snHyst i →
          if fld i 5 1 ≤ r.ends + 1 then n.own = false ∧ n.holds = false else n.own = true ∧ n.ends = r.ends + 1) ∧
        (snMode i = 0 → r.own = true → snThreshold i - snHyst i < f → n.own = true ∧ n.ends = 0) ∧
        (snMode i = 1 → r.own = false → f < snThreshold i → fld i 4 1 ≤ r.meets + 1 → n.holds = true) ∧
        (snMode i = 2 → r.own = false → f = snThreshold i → fld i 4 1 ≤ r.meets + 1 → n.holds = true) ∧
        (n.holds = true → ((snActs i).testBit 0 = true → ∀ j, (snKill i).testBit j = true → t.killState.testBit j = true) ∧
          ((snActs i).testBit 1 = true → t.sn.alertN = true) ∧
          ((snActs i).testBit 2 = true → r.holds = false → t.host.alert.testBit 10 = true ∧ t.host.bmcAlert.testBit 10 = true) ∧
          ((snFlags i).testBit 1 = true → n.latched = true))) ∧
    (∀ raw n, n < 48 → s.sn.trip = false → 660 ≤ s.sn.inputs.getD n 0 → 660 ≤ raw.getD n 0 →
      ∃ t, exec (.sentinelSample raw) s = .next t ∧ t.sn.trip = true ∧ t.killState = 0xFF ∧ t.host.alert.testBit 10 = true ∧
        ∀ d, 1 ≤ d → d < 50 → (t.dom d).reset_ = true)

/-! ### Start-up, flash, update and security (chapter 15) -/

/-- R501, R502, R507, R509, R510: a flash command that passes its checks joins its device's queue and one that fails writes
nothing; a unit step erases 4 KiB, programs what lies in one page of 256 B by clearing bits, or reads; the blank check;
the readback; staging, confirming and reverting firmware. The model's choices in it: log entries 20, 50 and 60. -/
def Obligations.FlashCommands : Prop :=
  ∀ (s : State) (m cs off len : Nat) (a : List Byte),
    (s.mbServes m 0xB0 12 [(0, 1), (4, 4), (8, 4)] a → fld a 0 1 = cs → fld a 4 4 = off → fld a 8 4 = len →
      (cs < 2 → off + len ≤ flSize cs → off % 4096 = 0 → len % 4096 = 0 → s.flClosed cs off len = false →
        ∃ t, exec (.flashErase m) s = .next t ∧ (t.mb m).state = 2 ∧ t.flMem 0 = s.flMem 0 ∧ t.flMem 1 = s.flMem 1 ∧
          t.flQ cs = s.flQ cs ++ [{ off := off, erase := len / 4096, mb := some m }]) ∧
      (2 ≤ cs ∨ flSize cs < off + len ∨ off % 4096 ≠ 0 ∨ len % 4096 ≠ 0 → ∃ t, exec (.flashErase m) s = .next t ∧
        (t.mb m).doneWith (s.mb m) BAD_ARG [] ∧ t.boot = { s.boot with flStat := BAD_ARG }) ∧
      (cs < 2 → off + len ≤ flSize cs → off % 4096 = 0 → len % 4096 = 0 → s.flClosed cs off len = true →
        ∃ t, exec (.flashErase m) s = .next t ∧ (t.mb m).doneWith (s.mb m) DENIED [] ∧
          t.boot = { s.boot with flStat := DENIED, refuseCnt := min 0xFFFFFFFF (s.boot.refuseCnt + 1) })) ∧
    (s.mbServes m 0xB1 24 [(0, 1), (1, 1), (4, 4), (8, 4), (16, 8)] a → fld a 0 1 = cs → fld a 4 4 = off →
      fld a 8 4 = len → cs < 2 → off + len ≤ flSize cs → s.flClosed cs off len = false →
      (fld a 1 1 = 0 → s.host.pf0.bme = true → s.hostReads (fld a 16 8) len = true →
        ∃ t, exec (.flashProgram m) s = .next t ∧ (t.mb m).state = 2 ∧
        t.flQ cs = s.flQ cs ++ [{ off := off, data := s.hostBytes (fld a 16 8) len, blank := true, mb := some m }]) ∧
      (fld a 1 1 = 0 → s.host.pf0.bme = true → s.hostReads (fld a 16 8) len = false →
        ∃ t, exec (.flashProgram m) s = .next t ∧ (t.mb m).doneWith (s.mb m) BAD_ARG [] ∧ t.flQ cs = s.flQ cs) ∧
      (fld a 1 1 = 1 → s.inJobArea (fld a 16 8) len = true → s.ddrUpset = [] → s.poisonedAt (fld a 16 8) len = false → ∃ t, exec (.flashProgram m) s = .next t ∧
        (t.mb m).state = 2 ∧
        t.flQ cs = s.flQ cs ++ [{ off := off, data := s.ddrBytes (fld a 16 8) len, blank := true, mb := some m }])) ∧
    (s.mbServes m 0xB2 10 [(0, 1), (4, 4), (8, 2)] a → fld a 0 1 = cs → fld a 4 4 = off → fld a 8 2 = len → 1 ≤ len →
      len ≤ 192 →
      (cs < 2 → off + len ≤ flSize cs → ∃ t, exec (.flashRead m) s = .next t ∧ (t.mb m).state = 2 ∧
        t.flQ cs = s.flQ cs ++ [{ off := off, read := len, ends := .bytes, mb := some m }]) ∧
      (2 ≤ cs ∨ flSize cs < off + len → ∃ t, exec (.flashRead m) s = .next t ∧
        (t.mb m).doneWith (s.mb m) BAD_ARG [] ∧ t.boot = { s.boot with flStat := BAD_ARG })) ∧
    (∀ (x : FlOp) (r : List FlOp), s.flQ cs = x :: r → cs < 2 → (s.flMem cs).wf 0xFF = true →
      (x.blank = false → x.erased < x.erase → ∃ t, exec (.flashUnitStep cs) s = .next t ∧
        t.boot.eraseCnt = min 0xFFFFFFFF (s.boot.eraseCnt + 1) ∧ t.flMem (1 - cs) = s.flMem (1 - cs) ∧
        ∀ p, Mem.read 0xFF (t.flMem cs) p =
          if x.off / 4096 * 4096 + 4096 * x.erased ≤ p ∧ p < x.off / 4096 * 4096 + 4096 * x.erased + 4096 then 0xFF
          else Mem.read 0xFF (s.flMem cs) p) ∧
      (∀ n, x.blank = false ∨ x.pos ≠ 0 → x.erase ≤ x.erased → x.pos < x.data.length →
        n = min (256 - (x.off + x.pos) % 256) (x.data.length - x.pos) → ∃ t, exec (.flashUnitStep cs) s = .next t ∧
        t.boot.progCnt = min 0xFFFFFFFF (s.boot.progCnt + 1) ∧ t.flMem (1 - cs) = s.flMem (1 - cs) ∧
        ∀ p, Mem.read 0xFF (t.flMem cs) p =
          if x.off + x.pos ≤ p ∧ p < x.off + x.pos + n then
            Mem.read 0xFF (s.flMem cs) p &&& x.data.getD (p - x.off) 0
          else Mem.read 0xFF (s.flMem cs) p) ∧
      (m < 16 → x.mb = some m → mbJournalled (s.mb m).id = false →
        (x.blank = true → x.pos = 0 → (∃ b ∈ s.flBytes cs x.off x.data.length, b ≠ 0xFF) →
          ∃ t, exec (.flashUnitStep cs) s = .next t ∧ (t.mb m).state = 3 ∧ (t.mb m).status = NOT_BLANK ∧
            t.flQ cs = r ∧ t.flMem 0 = s.flMem 0 ∧ t.flMem 1 = s.flMem 1 ∧ t.boot.progCnt = s.boot.progCnt) ∧
        (x.ends = .done → x.blank = true → x.pos ≠ 0 → x.erase ≤ x.erased → x.read = 0 → x.pos < x.data.length →
          x.data.length - x.pos ≤ 256 - (x.off + x.pos) % 256 → ∃ t, exec (.flashUnitStep cs) s = .next t ∧
          (t.mb m).state = 3 ∧ t.flQ cs = r ∧
          (t.mb m).status = if t.flBytes cs x.off x.data.length = x.data then OK else VERIFY_FAIL) ∧
        (x.ends = .bytes → x.blank = false → x.erase ≤ x.erased → x.data = [] → x.read ≤ x.pos + 4096 →
          ∃ t, exec (.flashUnitStep cs) s = .next t ∧ (t.mb m).state = 3 ∧ (t.mb m).status = OK ∧ t.flQ cs = r ∧
            (t.mb m).data = padTo 224 (s.flBytes cs x.off x.read))) ∧
      (cs = 1 → x.ends = .confirm → x.blank = false → x.erase ≤ x.erased → x.read = 0 → x.pos < x.data.length →
        x.data.length - x.pos ≤ 256 - (x.off + x.pos) % 256 → ∃ t q, exec (.flashUnitStep 1) s = .next t ∧
        t.flQ 1 = r ++ [q] ∧ q.off = 0x100000 ∧ q.mb = x.mb ∧ q.ends = .keep ∧
        q.data = t.flBytes 1 0 (min (64 + fld (t.flBytes 1 0 64) 16 4) 0x100000))) ∧
    (s.mbServes m 0x60 16 [(0, 1), (4, 4), (8, 8)] a → fld a 4 4 = len → fld a 0 1 = 0 → s.host.pf0.bme = true →
      (s.confPending = false → 4100 ≤ len → len ≤ 16777216 → s.hostReads (fld a 8 8) len = true →
        len = 4096 + fld (s.hostBytes (fld a 8 8) len) 0x14 4 → ∃ t, exec (.fwStage m) s = .next t ∧
        (t.mb m).state = 2 ∧ ∀ k, k = 1 - s.boot.running.getD 0 → t.flQ 0 = s.flQ 0 ++
          [{ off := k * 0x1000000, erase := 4096, data := s.hostBytes (fld a 8 8) len, ends := .stage k, mb := some m }]) ∧
      (s.confPending = true → ∃ t, exec (.fwStage m) s = .next t ∧ (t.mb m).doneWith (s.mb m) DENIED []) ∧
      (s.confPending = false → len < 4100 ∨ 16777216 < len → ∃ t, exec (.fwStage m) s = .next t ∧
        (t.mb m).doneWith (s.mb m) BAD_ARG [])) ∧
    (s.mbServes m 0x62 0 [] a →
      (s.boot.trial = true → ∃ t r, exec (.fwConfirm m) s = .next t ∧ t.boot.trial = false ∧ t.boot.confAt = none ∧
        t.boot.record = some r ∧ r.active = s.boot.running.getD 0 ∧ r.prev = s.boot.prevSlot ∧ r.trial = false ∧
        t.otp = { s.otp with
          svnFloor := if s.boot.image.raise = true then max s.otp.svnFloor s.boot.image.svn else s.otp.svnFloor }) ∧
      (s.boot.trial = false → ∃ t, exec (.fwConfirm m) s = .next t ∧ (t.mb m).doneWith (s.mb m) NOT_ACTIVE [] ∧
        t.otp = s.otp ∧ t.boot = s.boot)) ∧
    (s.mbServes m 0x63 0 [] a →
      (s.boot.trial = true → ∃ t r, exec (.fwRevert m) s = .next t ∧ (t.mb m).doneWith (s.mb m) OK [] ∧
        t.st.restarting = true ∧ t.boot.reverting = true ∧ t.boot.trial = false ∧ t.boot.record = some r ∧
        r.active = s.boot.prevSlot ∧ r.prev = s.boot.running.getD 0 ∧ r.trial = false) ∧
      (s.boot.trial = false → ∃ t, exec (.fwRevert m) s = .next t ∧ (t.mb m).doneWith (s.mb m) NOT_ACTIVE [] ∧
        t.boot = s.boot ∧ t.st = s.st))

/-- R493 to R498, R504, R508, R510: the release of RESET_N samples BOOT_SEL and lets the domains out of reset; the steps of
Table 15-2; the slot that boots, at power-on, at FW_ACTIVATE and after a revert; an activation; the confirmation timeout.
The model's choices in it: log entries 5, 42, 43, 50, 123, 124 and 131. -/
def Obligations.BootCommands : Prop :=
  ∀ (s : State) (m k u : Nat) (a : List Byte),
    (s.boot.resetLow = true → ∃ t, exec (.resetRelease k) s = .next t ∧ t.boot.resetLow = false ∧ t.boot.bootSel = k ∧
      t.time = s.time ∧
      (s.sn.trip = false → ∀ d < 50, s.domPresent d = true → s.railsOk d = true → (t.dom d).reset_ = false) ∧
      (s.sn.trip = false → s.railsOk 1 = true → (s.dom 1).reset_ = true → t.boot.step = 1 ∧ t.boot.dev = 0)) ∧
    (s.boot.resetLow = false → s.sn.trip = false → (s.dom 1).reset_ = false → s.boot.dev ≠ 3 →
      (s.boot.step = 1 → ∃ t, exec (.bootStep []) s = .next t ∧ t.boot = { s.boot with step := 2 } ∧ t.otp = s.otp) ∧
      (s.boot.step = 2 → s.sec.latch = false → ∃ t, exec (.bootStep []) s = .next t ∧ t.boot.step = 3 ∧
        t.boot.dev = s.boot.dev) ∧
      (s.boot.step = 2 → s.sec.latch = true → ∃ t, exec (.bootStep []) s = .next t ∧ t.boot.dev = 3 ∧ t.st.cores = [] ∧
        t.boot.running = none) ∧
      (s.boot.step = 3 → ∃ t, exec (.bootStep []) s = .next t ∧ t.boot.opi = true ∧
        t.boot.record = s.scanRecs.1 ∧ t.boot.step = if s.boot.bootSel = 0 then 4 else 0) ∧
      (s.boot.step = 4 → s.boot.record = none → ∃ t, exec (.bootStep []) s = .next t ∧
        match s.slotImage 0, s.slotImage 1 with
        | some i, _ => t.boot.dev = 1 ∧ t.boot.step = 5 ∧ t.boot.running = some 0 ∧ t.boot.image = i
        | none, some i => t.boot.dev = 1 ∧ t.boot.step = 5 ∧ t.boot.running = some 1 ∧ t.boot.image = i
        | none, none => t.boot.dev = s.boot.dev ∧ t.boot.step = 0 ∧ t.boot.running = s.boot.running) ∧
      (s.boot.step = 5 → ∃ t, exec (.bootStep []) s = .next t ∧ t.boot.step = 6 ∧
        (s.otp.extHash ≠ [] → t.otp = s.otp) ∧
        (s.otp.extHash = [] → s.flBytes 1 0x2200000 4 = [0x50, 0x50, 0x52, 0x56] →
          crc32 (s.flBytes 1 0x2200000 101) = fld (s.flBytes 1 0x2200000 105) 101 4 →
          t.otp = { s.otp with extHash := Config.sha384 (s.flBytes 1 0x2200004 97) })) ∧
      (s.boot.step = 6 → ∃ t, exec (.bootStep []) s = .next t ∧ t.boot.dev = 2 ∧ t.boot.step = 0 ∧ t.otp = s.otp ∧
        t.sec.kek = if s.sec.latch = true then s.sec.kek else some (Config.kdf s.otp.root (leBytes 8 s.otp.serial)))) ∧
    (s.mbServes m 0x61 2 [(0, 2)] a →
      (s.fwRuns = true → s.confPending = true → ∃ t, exec (.fwActivate m) s = .next t ∧
        (t.mb m).doneWith (s.mb m) DENIED []) ∧
      (s.fwRuns = true → s.confPending = false → s.boot.running = some k → ∃ t, exec (.fwActivate m) s = .next t ∧
        match s.slotImage (1 - k) with
        | none => (t.mb m).doneWith (s.mb m) DENIED [] ∧ t.boot.activating = none
        | some _ =>
          if fld a 0 2 = 0 ∨ 10 ≤ fld a 0 2 ∧ fld a 0 2 ≤ 600 then
            (t.mb m).state = 2 ∧ t.boot.activating = some (1 - k) ∧ t.boot.running = some k
          else (t.mb m).doneWith (s.mb m) BAD_ARG []) ∧
      (s.fwRuns = false → s.boot.step = 0 → s.boot.record = none → ∃ t, exec (.fwActivate m) s = .next t ∧
        match s.slotImage 0, s.slotImage 1 with
        | some i, _ => (t.mb m).doneWith (s.mb m) ACCEPTED [] ∧ t.boot.step = 5 ∧ t.boot.running = some 0 ∧
            t.boot.image = i
        | none, some i => (t.mb m).doneWith (s.mb m) ACCEPTED [] ∧ t.boot.step = 5 ∧ t.boot.running = some 1 ∧
            t.boot.image = i
        | none, none => (t.mb m).doneWith (s.mb m) DENIED [] ∧ t.boot.step = 0)) ∧
    (s.boot.trial = true → s.boot.confAt = some u → ∃ t r, exec .confirmationTimeout s = .next t ∧
      t.time = max s.time ((u / 500 + 1) * 500) ∧ t.st.restarting = true ∧ t.boot.reverting = true ∧ t.boot.record = some r ∧
      r.active = s.boot.prevSlot ∧ r.trial = false) ∧
    (s.st.restarting = true →
      (s.boot.bootSel ≠ 0 → ∃ t, exec .stewardClusterRestart s = .next t ∧ t.boot.dev = 0 ∧ t.boot.running = none ∧
        t.st.cores = [] ∧ t.st.restarting = false) ∧
      (s.boot.bootSel = 0 → s.boot.reverting = true → ∃ t, exec .stewardClusterRestart s = .next t ∧
        match s.slotImage s.boot.prevSlot, s.slotImage (1 - s.boot.prevSlot) with
        | some i, _ => t.boot.dev = 2 ∧ t.boot.running = some s.boot.prevSlot ∧ t.boot.image = i ∧
            t.st.restarting = false ∧ t.host.alert.testBit 8 = true
        | none, some i => t.boot.dev = 2 ∧ t.boot.running = some (1 - s.boot.prevSlot) ∧ t.boot.image = i ∧
            t.st.restarting = false
        | none, none => t.boot.dev = 0 ∧ t.boot.running = none ∧ t.st.cores = []) ∧
      (s.boot.bootSel = 0 → s.boot.reverting = false → s.boot.activating = some k →
        ∃ t, exec .stewardClusterRestart s = .next t ∧ ∀ i, s.slotImage k = some i → t.boot.dev = 2 ∧
          t.boot.running = some k ∧ t.boot.image = i ∧ t.boot.activating = none ∧ t.st.restarting = false))

/-- R513, R515, R518 to R520: KEY_LOAD's outcomes in order; the nonce of TAMPER_CLEAR, its use, its answers; an alarm
latches, zeroizes the unsealed keys and sets alert bit 9; a disabled source does nothing; the failed entropy source. The
model's choices in it: log entries 5, 60 and 132. -/
def Obligations.SecurityCommands : Prop :=
  ∀ (s : State) (m k : Nat) (a : List Byte), s.domOn 2 = true →
    (s.mbServes m 0x71 48 [(0, 2), (8, 40)] a → fld a 0 2 = k →
      (k = 0 → ∃ t, exec (.keyLoad m) s = .next t ∧ (t.mb m).doneWith (s.mb m) BAD_ARG [] ∧ t.sec.keys = s.sec.keys) ∧
      (k ≠ 0 → s.sec.latch = true ∨ s.sec.kek = none → ∃ t, exec (.keyLoad m) s = .next t ∧
        (t.mb m).doneWith (s.mb m) DENIED [] ∧ t.sec.keys = s.sec.keys) ∧
      (∀ kek, k ≠ 0 → s.sec.latch = false → s.sec.kek = some kek → ∃ t, exec (.keyLoad m) s = .next t ∧
        match Config.keyUnwrap kek (slice a 8 40) with
        | none => (t.mb m).doneWith (s.mb m) VERIFY_FAIL [] ∧ t.sec.keys = s.sec.keys
        | some key =>
          if Tbl.find s.sec.keys k = none ∧ 16 ≤ s.sec.keys.length then
            (t.mb m).doneWith (s.mb m) DENIED [] ∧ t.sec.keys = s.sec.keys
          else (t.mb m).doneWith (s.mb m) OK [] ∧
            ∀ j, Tbl.find t.sec.keys j = if j = k then some key else Tbl.find s.sec.keys j)) ∧
    (s.mbServes m 0x70 1 [(0, 1)] a → fld a 0 1 = 0 →
      (s.sec.entropyBad = true → ∃ t, exec (.tamperClearChallenge m) s = .next t ∧
        (t.mb m).doneWith (s.mb m) DENIED [] ∧ t.sec = s.sec) ∧
      (s.sec.entropyBad = false → ∃ t n, exec (.tamperClearChallenge m) s = .next t ∧ n.length = 32 ∧
        (t.mb m).doneWith (s.mb m) OK n ∧ t.sec = { s.sec with nonce := some n, drbg := s.sec.drbg + 1 })) ∧
    (s.mbServes m 0x70 104 [(0, 1), (8, 96)] a → fld a 0 1 = 1 →
      (s.sec.latch = false ∨ s.sec.nonce = none → ∃ t, exec (.tamperClearAnswer m) s = .next t ∧
        (t.mb m).doneWith (s.mb m) NOT_ACTIVE [] ∧ t.sec = { s.sec with nonce := none }) ∧
      (∀ n, s.sec.latch = true → s.sec.nonce = some n → 8 ≤ s.sec.fails → ∃ t,
        exec (.tamperClearAnswer m) s = .next t ∧ (t.mb m).doneWith (s.mb m) DENIED [] ∧
        t.sec = { s.sec with nonce := none }) ∧
      (∀ n key, s.sec.latch = true → s.sec.nonce = some n → s.sec.fails < 8 →
        key = (if s.otp.extHash = [] then Config.vendorKey s.otp.vendorHash else s.flBytes 1 0x2200004 97) →
        ∃ t, exec (.tamperClearAnswer m) s = .next t ∧ t.sec.nonce = none ∧
          if Config.ecdsaOk key (Config.sha384 (n ++ leBytes 8 s.otp.serial)) (slice a 8 96) = true
          then (t.mb m).doneWith (s.mb m) OK [] ∧ t.sec.latch = false ∧ t.sec.src = 0 ∧
            (s.boot.dev = 3 → t.boot.dev = 0 ∧ t.boot.step = 3) ∧
            (s.boot.dev ≠ 3 → t.sec.kek = some (Config.kdf s.otp.root (leBytes 8 s.otp.serial)))
          else (t.mb m).doneWith (s.mb m) VERIFY_FAIL [] ∧ t.sec.latch = true ∧ t.sec.fails = s.sec.fails + 1)) ∧
    (k ≤ 6 → k = 6 ∨ s.sec.tmpCfg.testBit k = true → ∃ t, exec (.tamperAlarm k) s = .next t ∧ t.sec.latch = true ∧
      t.sec.kek = none ∧ t.sec.keys = [] ∧ t.sec.nonce = none ∧ t.sec.src = s.sec.src ||| 2 ^ k ∧
      t.sec.cnt = min 0xFFFFFFFF (s.sec.cnt + 1) ∧ t.host.alert.testBit 9 = true ∧ t.time = s.time ∧
      (1 ≤ s.boot.step → s.boot.dev ≤ 1 → t.boot.dev = 3 ∧ t.st.cores = [])) ∧
    (k < 6 → s.sec.tmpCfg.testBit k = false → exec (.tamperAlarm k) s = .next s) ∧
    (∃ t, exec .entropyFailure s = .next t ∧ t = { s with sec := { s.sec with entropyBad := true }, rcd := t.rcd })

/-! ### The recorder, the ledger, repairs (chapter 16) -/

/-- R531, R533 to R535, R540: an event at the intake that repeats the latest record is a pending change of it, any other is
the next record; dropped events are told first; one event is taken per fc; those of one fc stand in the intake in
ascending class, then instance; EVR_GO submits the staged record, and at a full intake the last is dropped; EVENTS_READ's
index; the read port. The model's choices in it: log entries 4, 10 and 57. -/
def Obligations.RecorderCommands : Prop :=
  ∀ (s : State) (m d i c : Nat) (a : List Byte) (e : EvReq) (rest : List EvReq) (l : EvRec),
    (s.mbServes m 0x81 3 [(0, 2), (2, 1)] a → fld a 0 2 = i → fld a 2 1 = c → 1 ≤ c → c ≤ 6 →
      d = (s.rcd.next % 65536 + 65536 - i) % 65536 →
      (2 ^ 15 ≤ d → ∃ t, exec (.eventsRead m) s = .next t ∧ (t.mb m).doneWith (s.mb m) BAD_ARG [] ∧ t.rcd = s.rcd) ∧
      (d = 0 → ∃ t, exec (.eventsRead m) s = .next t ∧ t.rcd = s.rcd ∧
        (t.mb m).doneWith (s.mb m) OK ([0, 0] ++ leBytes 2 i ++ zeros 4)) ∧
      (∀ b n f, 0 < d → d < 2 ^ 15 → b = min d s.rcd.held → n = min b c → f = (s.rcd.next + 2 ^ 24 - b) % 2 ^ 24 → 0 < b →
        ∃ t, exec (.eventsRead m) s = .next t ∧ t.rcd = s.rcd ∧
          (t.mb m).doneWith (s.mb m) OK (leBytes 1 n ++ [0] ++ leBytes 2 ((f + n) % 65536) ++ zeros 4 ++
            (List.range n).flatMap fun k => s.rcd.slot ((f + k) % 4096)))) ∧
    (s.rcd.intake.length < 64 → ∃ t, exec .evrGo s = .next t ∧ ∃ x, t.rcd = { s.rcd with intake := intakeAdd s.rcd.intake x } ∧
      x.code = s.ioReg 0x7004 0 % 65536 ∧ x.inst = s.ioReg 0x7004 0 / 2 ^ 16 % 4096 ∧
      x.cls = s.ioReg 0x7004 0 / 2 ^ 28 % 16 ∧ x.alert = (s.ioReg 0x7005 0).testBit 0 ∧ x.time = s.time ∧
      x.arg = (s.ioReg 0x7006 0 + s.ioReg 0x7007 0 * 2 ^ 32) % 2 ^ 64) ∧
    (64 ≤ s.rcd.intake.length → ∃ t x, exec .evrGo s = .next t ∧ x.time = s.time ∧ x.code = s.ioReg 0x7004 0 % 65536 ∧
      x.inst = s.ioReg 0x7004 0 / 2 ^ 16 % 4096 ∧ x.cls = s.ioReg 0x7004 0 / 2 ^ 28 % 16 ∧ t.rcd =
      { s.rcd with intake := (intakeAdd s.rcd.intake x).take 64, lostCnt := min 0xFFFFFFFF (s.rcd.lostCnt + 1), lostPend := s.rcd.lostPend + 1 }) ∧
    ((intakeAdd rest e).length = rest.length + 1 ∧ (∀ x, x ∈ intakeAdd rest e ↔ x = e ∨ x ∈ rest) ∧
      ((∀ x ∈ rest, x.time < e.time) → intakeAdd rest e = rest ++ [e]) ∧
      ((∀ x ∈ rest, x.time = e.time) → rest.Pairwise (fun x y => x.cls < y.cls ∨ x.cls = y.cls ∧ x.inst ≤ y.inst) →
        (intakeAdd rest e).Pairwise (fun x y => x.cls < y.cls ∨ x.cls = y.cls ∧ x.inst ≤ y.inst))) ∧
    (∀ v : Word, exec (.evrRdIdxWrite v) s = .next { s with rcd := { s.rcd with rdIdx := v.toNat % 4096, rdWord := 0 } }) ∧
    (exec .evrRdDataRead s = .next { s with rcd := { s.rcd with rdWord := (s.rcd.rdWord + 1) % 8 } }) ∧
    (s.rcd.intake = e :: rest → ∃ t, exec .eventRecordIntake s = .next t ∧ t.time = max s.time s.rcd.takeAt ∧
      s.time < t.rcd.takeAt) ∧
    (s.rcd.intake = e :: rest → s.rcd.lostPend = 0 → s.rcd.chg = none →
      Tbl.find s.rcd.ring s.rcd.lastSlot = some l →
      (0 < s.rcd.held → l.cls = e.cls → l.inst = e.inst → l.code = e.code → l.arg = e.arg → l.rep < 0xFFFF →
        ∃ t, exec .eventRecordIntake s = .next t ∧ t.rcd.intake = rest ∧ t.rcd.ring = s.rcd.ring ∧
          t.rcd.next = s.rcd.next ∧ (∃ x, t.rcd.chg = some x ∧ x.rep = l.rep + 1 ∧ x.coarse2 = e.coarse ∧
            x.last = min 0xFFFFFFFF ((e.time - l.time) / 256) ∧ x.time = l.time ∧ x.seq = l.seq) ∧
          (e.alert = true → t.host.alert.testBit 13 = true ∧ t.host.bmcAlert.testBit 13 = true)) ∧
      (l.cls ≠ e.cls ∨ l.inst ≠ e.inst ∨ l.code ≠ e.code ∨ l.arg ≠ e.arg ∨ l.rep = 0xFFFF →
        ∃ t x, exec .eventRecordIntake s = .next t ∧ t.rcd.intake = rest ∧
          t.rcd.next = (s.rcd.next + 1) % 2 ^ 24 ∧ t.rcd.held = min 4096 (s.rcd.held + 1) ∧
          Tbl.find t.rcd.ring (s.rcd.next % 4096) = some x ∧ x.seq = s.rcd.next ∧ x.ver % 2 = 0 ∧ x.code = e.code ∧
          x.cls = e.cls ∧ x.inst = e.inst ∧ x.arg = e.arg ∧ x.extra = e.extra ∧ x.time = e.time ∧ x.rep = 0 ∧ x.alert = e.alert ∧
          (e.alert = true → t.host.alert.testBit 13 = true ∧ t.host.bmcAlert.testBit 13 = true))) ∧
    (s.rcd.intake = e :: rest → s.rcd.lostPend ≠ 0 → s.rcd.held = 0 → e.code ≠ 0x8011 →
      ∃ t x y, exec .eventRecordIntake s = .next t ∧ Tbl.find t.rcd.ring (s.rcd.next % 4096) = some x ∧ x.code = 0x8011 ∧
        x.arg = s.rcd.lostPend ∧ x.alert = true ∧ t.rcd.lostPend = 0 ∧
        Tbl.find t.rcd.ring ((s.rcd.next + 1) % 2 ^ 24 % 4096) = some y ∧ y.code = e.code ∧ y.arg = e.arg ∧
        t.host.alert.testBit 13 = true) ∧
    (s.rcd.chg = some l → ∃ t, exec .recordChangeApply s = .next t ∧ t.time = max s.time s.rcd.chgAt ∧
      t.rcd = { s.rcd with ring := t.rcd.ring, chg := none, chgAt := t.time + 100000 } ∧
      ∀ k, Tbl.find t.rcd.ring k =
        if k = s.rcd.lastSlot then some { l with ver := (l.ver + 2) % 256 } else Tbl.find s.rcd.ring k)

/-- R502, R523 to R528, R536, R539: the ledger is read; a snapshot is written and the slot two places on erased, every ten
minutes, and ahead of everything on CS1 when power is about to fail; patrol goes from unit to unit, repairs what fails
and takes a unit named in an error first; an error that cannot be corrected has its table's outcome; a failed PE loses
what it holds, its jobs are killed, a spare takes its place or its logical PE is lost. The model's choices in it: log
entries 22, 23, 36, 57 and 110. -/
def Obligations.LedgerAndRepairs : Prop :=
  ∀ (s : State) (m k n u pe : Nat) (a : List Byte),
    (s.mbServes m 0x80 10 [(0, 1), (4, 4), (8, 2)] a → fld a 0 1 = k → fld a 4 4 = u → fld a 8 2 = n → 1 ≤ n → n ≤ 192 →
      (k ≤ 6 → u + n ≤ [32, 384, 64, 20, 4096, 1024, 96].getD k 0 → ∃ t, exec (.ledgerRead m) s = .next t ∧
        (t.mb m).doneWith (s.mb m) OK (slice (s.ledSec k) u n)) ∧
      (6 < k ∨ [32, 384, 64, 20, 4096, 1024, 96].getD k 0 < u + n → ∃ t, exec (.ledgerRead m) s = .next t ∧
        (t.mb m).doneWith (s.mb m) BAD_ARG [])) ∧
    (s.fwRuns = true →
      (s.led.snapAt = some u → ∃ t x y, exec .ledgerSnapshot s = .next t ∧ t.time = max s.time u ∧
        t.led.snapAt = some (t.time + 600 * 2000000000) ∧ t.led.seq = s.led.seq + 1 ∧ t.led.snapTime = t.time ∧
        t.flQ 1 = s.flQ 1 ++ [x, y] ∧ x.off = 0x200000 + 8192 * ((s.led.seq + 1) % 4096) ∧ x.data.length = 8192 ∧
        x.ledger = true ∧ y.off = 0x200000 + 8192 * ((s.led.seq + 3) % 4096) ∧ y.erase = 2) ∧
      ((∀ x ∈ s.flQ 1, x.ledger = false) → ∃ t x y, exec .pwrWarn s = .next t ∧ t.led.seq = s.led.seq + 1 ∧
        t.flQ 1 = x :: s.flQ 1 ++ [y] ∧ x.off = 0x200000 + 8192 * ((s.led.seq + 1) % 4096) ∧ x.data.length = 8192 ∧
        x.ledger = true ∧ y.erase = 2) ∧
      ((∃ x ∈ s.flQ 1, x.ledger = true) → ∃ t, exec .pwrWarn s = .next t ∧ t.led = s.led ∧
        t.flQ 1 = (s.flQ 1).filter (fun x => x.ledger) ++ (s.flQ 1).filter (fun x => !x.ledger))) ∧
    (s.fwRuns = true → s.ioReg 0x7150 24 % 65536 ≠ 0 → s.pat.target = k →
      (∀ q v, (q, v) = s.pat.flagged.headD (k, s.pat.unit) → q = 0 → (s.pe (s.physOf (v / 16384))).ways (v % 16384) = [] ∧
        (s.pe (s.physOf (v / 16384))).spill.length ≤ 32) →
      (s.pat.flagged = [] → ∃ t, exec (.patrolUnit false none) s = .next t ∧
        (t.pat.target, t.pat.unit, t.pat.done) =
          if s.pat.unit + 1 < s.patUnits k then (k, s.pat.unit + 1, s.pat.done + 1)
          else if k = 3 then (0, 0, 0) else (k + 1, 0, s.pat.done + 1)) ∧
      (∀ x r, s.pat.flagged = x :: r → ∃ t, exec (.patrolUnit false none) s = .next t ∧ t.pat.flagged = r ∧
        t.pat.target = k ∧ t.pat.unit = s.pat.unit) ∧
      (s.pat.flagged = [] → k = 0 → s.patOpen 0 s.pat.unit = true → pe = s.physOf (s.pat.unit / 16384) →
        (s.pe pe).ways (s.pat.unit % 16384) = [] → s.pat.unit % 16384 ∉ (s.pe pe).retired → (s.pe pe).failed = false →
        (s.pe pe).spill.length ≤ 32 → s.pair.state = 0 → ∃ t, exec (.patrolUnit true none) s = .next t ∧
          (t.pe pe).retired = (s.pe pe).retired ++ [s.pat.unit % 16384] ∧
          t.pat.retired = min 0xFFFFFFFF (s.pat.retired + 1) ∧
          Tbl.get 0 t.led.tot 4 = Tbl.get 0 s.led.tot 4 + 1)) ∧
    (s.ioReg 0x7150 24 % 65536 = 0 → ∀ (f : Bool) (v : Upset) (t : State), exec (.patrolUnit f (some v)) s = .next t →
      (v = .cell pe k 2 → Tbl.get 0 (t.pe pe).summary k = 255) ∧
      (∀ x, v = .fail n k → (s.cu n).fifo[k]? = some x → (t.cu n).fifo = (s.cu n).fifo.eraseIdx k) ∧
      (v = .table k 2 ∨ v = .burst k → (s.site k).bound = true → (t.site k).halted = true ∧ (t.site k).bad = true) ∧
      (v = .tally u k 2 → ((t.tu u).space k).ovf = true) ∧
      (∀ c, v = .context k 2 → Tbl.find s.cm.cache k = some (c, false) → Tbl.find t.cm.cache k = none) ∧
      (v = .iword n k 2 → (t.core n).pc / 4 = k / 4 → (t.core n).fetch = none) ∧
      (v = .dword n k 2 → t.badPriv n k 1 = true) ∧
      (∀ x, v = .record k 2 → Tbl.find s.rcd.ring k = some x → ∃ y, Tbl.find t.rcd.ring k = some y ∧ y.code = 0x800C ∧
        y.cls = 0 ∧ y.seq = x.seq) ∧
      (v = .ledger 1 k 2 → s.lastSnapshot = none → Tbl.get 0 t.led.tj k = 0)) ∧
    (∀ f v, ∃ t, exec (.patrolUnit f v) s = .next t) ∧
    (s.alone → s.peFitted pe = true → (s.pe pe).failed = false → s.logOf pe = some k → s.cm.jobs = [] →
      s.cm.kills = [] → (s.pe pe).spill = [] → ∃ t, exec (.peFailure pe n) s = .next t ∧ (t.pe pe).failed = true ∧
        (t.pe pe).ents = [] ∧ (t.pe pe).ready = [] ∧ (t.pe pe).fire = [] ∧ (t.pe pe).retired = (s.pe pe).retired ∧
        (∀ sp, s.spareFor pe = some sp → Tbl.get k t.pat.lmap k = sp ∧ t.pat.lost = s.pat.lost ∧
          (t.dom (quadDom sp)).wake = true) ∧
        (s.spareFor pe = none → t.pat.lost = s.pat.lost ++ [k] ∧ t.pat.lmap = s.pat.lmap)) ∧
    (∀ j x, s.alone → s.peFitted pe = true → (s.pe pe).failed = false → s.logOf pe = some k → s.cm.jobs = [(j, x)] →
      x.ended = false → s.ctxsOn j k ≠ [] → (s.spareFor pe).isSome = true → ∃ t q, exec (.peFailure pe n) s = .next t ∧
        t.cm.killQ = s.cm.killQ ++ [q] ∧ q.job = j ∧ q.end_ = 3 ∧ q.cause = 0x41 ∧ q.fault = s.ctxsOn j k) ∧
    (s.peFitted pe = true → (s.pe pe).failed = false → s.logOf pe = none → ∃ t, exec (.peFailure pe n) s = .next t ∧
      (t.pe pe).failed = true ∧ t.pat = s.pat ∧ t.cm = s.cm)

/-! ### The whole block -/

/-- The command at the front of the queue runs, as `exec` says, on the state with the queue's rest; with an empty queue TIME
counts one fc while the fabric clock runs, and nothing changes while it does not (the model's choice, log entry 7). -/
def Obligations.StepRunsFront : Prop :=
  (∀ (s : State) (c : Instr) (r : List Instr), s.pending = c :: r → step s = exec c { s with pending := r }) ∧
  (∀ s : State, s.pending = [] → s.fabricRuns = true → ∃ t, step s = .next t ∧ t.time = s.time + 1 ∧
    t = { s with time := t.time, pair := { s.pair with jrnlHold := t.pair.jrnlHold } }) ∧
  (∀ s : State, s.pending = [] → s.fabricRuns = false → step s = .next s)

/-- What reset leaves: the queue and the queues of the block empty, no job, no lane in link, no site bound, every mailbox
IDLE with its message enabled, no alarm, the reset values of TMP_CFG, SN_KILL_HOLD, BR_CFG, CAB_CFG's size and
PATROL_CFG, the recorder's first event, RESET_N still low; every memory in its canonical form. The model's choices in it:
log entries 3 and 62. -/
def Obligations.ResetState : Prop :=
  State.reset.pending = [] ∧ State.reset.time = 0 ∧ State.reset.net.transit = [] ∧ State.reset.cm.jobs = [] ∧
  State.reset.cm.queue = [] ∧ (∀ l, (State.reset.lane l).linked = false) ∧ (∀ k, (State.reset.site k).bound = false) ∧
  (∀ m, (State.reset.mb m).state = 0 ∧ (State.reset.mb m).cfg = 1) ∧ State.reset.host.alert = 0 ∧
  State.reset.host.bmcAlert = 0 ∧ State.reset.sec.latch = false ∧ State.reset.sec.tmpCfg = 0x3F ∧
  State.reset.sec.kek = none ∧ State.reset.sn.killHold = 0xFF ∧ State.reset.killState = 0xFF ∧
  State.reset.brCfg = 0x808 ∧ State.reset.ioReg 0x7150 24 = 24 ∧ State.reset.boot.resetLow = true ∧
  State.reset.boot.dev = 0 ∧ State.reset.fwRuns = false ∧ State.reset.pair.state = 0 ∧
  (∃ e, State.reset.rcd.intake = [e] ∧ e.code = 0x8000 ∧ e.cls = 0 ∧ e.inst = 0 ∧ e.arg = 1) ∧ State.reset.memsWf

/-- Every step answers a next state: nothing faults and nothing is refused; in it TIME has not gone back, no field of the OTP
memory is cleared (only svn_floor rises and an unwritten ext_hash is written), and the queue has lost its front and
gained nothing. The model's choices in it: log entry 1. -/
def Obligations.StepsKeepTimeAndFuses : Prop :=
  ∀ s : State, ∃ t, step s = .next t ∧ s.time ≤ t.time ∧ t.pending = s.pending.tail ∧
    s.otp.svnFloor ≤ t.otp.svnFloor ∧ (s.otp.extHash ≠ [] → t.otp.extHash = s.otp.extHash) ∧
    t.otp = { s.otp with svnFloor := t.otp.svnFloor, extHash := t.otp.extHash }

/-- Every step keeps every byte memory in its canonical form: DDR5, the Shelf, host memory and both flash devices. The
model's choices in it: log entry 2. -/
def Obligations.StepsKeepMemoriesCanonical : Prop :=
  ∀ s t : State, s.memsWf → step s = .next t → t.memsWf

/-- The frame of the commands of chapters 02 to 10: a command changes no part of the state that its footprint does not name.
-/
def Obligations.FlowFootprints : Prop :=
  ∀ (c : Instr) (l : List Part) (s t : State), c.flowParts = some l → exec c s = .next t → ∀ p, p ∉ l → s.same t p

/-- The frame of the commands of chapters 11 to 16. -/
def Obligations.ControlFootprints : Prop :=
  ∀ (c : Instr) (l : List Part) (s t : State), c.controlParts = some l → exec c s = .next t → ∀ p, p ∉ l → s.same t p

/-- The frame of the memories: a command changes no byte of a memory that it is not listed as storing to. -/
def Obligations.MemoryFrames : Prop :=
  ∀ (c : Instr) (s t : State), exec c s = .next t →
    ∀ p ∈ [Part.ddr, .ddrPoison, .ddrUpset, .shelf, .shelfBad, .hostMem, .flash], p ∉ c.stores → s.same t p
end

