-- ==== Sys2Proof/Laws/Mem.lean ====
section
/-! SUPPORT. Laws of tables keyed by number and of byte memories: what a read finds after a write, and that every memory
operation keeps the canonical form. -/

namespace Sys2Proof.Machine
open Sys2Proof

/-! ### Tables -/

@[simp] theorem Tbl.find_nil {α : Type} (k : Nat) : Tbl.find ([] : Tbl α) k = none := rfl

@[simp] theorem Tbl.get_nil {α : Type} (d : α) (k : Nat) : Tbl.get d [] k = d := rfl

/-- An entry read with a default is the listed one, or the default. -/
theorem Tbl.get_eq_find {α : Type} (d : α) (t : Tbl α) (k : Nat) : Tbl.get d t k = (Tbl.find t k).getD d := by
  induction t with
  | nil => rfl
  | cons p r ih => simp only [Tbl.get, Tbl.find]; split <;> simp [ih]

/-- A table after a write: the written entry at its key, every other key as before. -/
@[simp] theorem Tbl.find_put {α : Type} (t : Tbl α) (k j : Nat) (v : α) :
    Tbl.find (t.put k v) j = if j = k then some v else Tbl.find t j := by
  induction t with
  | nil =>
    by_cases e : j = k
    · subst e; simp [Tbl.put, Tbl.find]
    · simp [Tbl.put, Tbl.find, e, Ne.symm e]
  | cons p r ih =>
    simp only [Tbl.put]
    split
    · by_cases e : j = k
      · subst e; simp [Tbl.find]
      · simp [Tbl.find, e, Ne.symm e]
    · split
      · next h =>
        by_cases e : j = k
        · subst e; simp [Tbl.find]
        · simp [Tbl.find, e, Ne.symm e, ← h]
      · next h =>
        by_cases e : p.1 = j
        · simp [Tbl.find, e, show j ≠ k by omega]
        · simp only [Tbl.find, e, if_false]; exact ih

@[simp] theorem Tbl.get_put {α : Type} (d : α) (t : Tbl α) (k j : Nat) (v : α) :
    Tbl.get d (t.put k v) j = if j = k then v else Tbl.get d t j := by
  simp only [Tbl.get_eq_find, Tbl.find_put]; split <;> rfl

@[simp] theorem Tbl.get_upd {α : Type} (d : α) (t : Tbl α) (k j : Nat) (f : α → α) :
    Tbl.get d (Tbl.upd d t k f) j = if j = k then f (Tbl.get d t k) else Tbl.get d t j := by
  simp [Tbl.upd]

/-- Filtering by key keeps the entries of the keys kept. -/
theorem Tbl.find_filter_key {α : Type} (t : Tbl α) (q : Nat → Bool) (j : Nat) :
    Tbl.find (List.filter (fun p => q p.1) t) j = if q j = true then Tbl.find t j else none := by
  induction t with
  | nil => simp
  | cons p r ih =>
    simp only [List.filter_cons]
    by_cases e : p.1 = j
    · subst e; by_cases hq : q p.1 = true <;> simp [Tbl.find, ih, hq]
    · by_cases hp : q p.1 = true <;> simp [Tbl.find, ih, hp, e]

@[simp] theorem Tbl.find_del {α : Type} (t : Tbl α) (k j : Nat) :
    Tbl.find (t.del k) j = if j = k then none else Tbl.find t j := by
  simp only [Tbl.del, Tbl.find_filter_key t (fun i => i != k)]; split <;> split <;> simp_all

@[simp] theorem Tbl.get_del {α : Type} (d : α) (t : Tbl α) (k j : Nat) :
    Tbl.get d (t.del k) j = if j = k then d else Tbl.get d t j := by
  simp only [Tbl.get_eq_find, Tbl.find_del]; split <;> rfl

/-! ### Byte memories: the canonical form -/

@[simp] theorem Mem.wf_nil (d : Byte) : Mem.wf d [] = true := rfl

/-- A lower bound may be lowered. -/
theorem Mem.above_le {d : Byte} {m : Mem} {k : Nat} : ∀ {lo : Option Nat}, Mem.above d (some k) m = true →
    (∀ l, lo = some l → l ≤ k) → Mem.above d lo m = true := by
  intro lo h hl
  cases m with
  | nil => rfl
  | cons p r =>
    simp only [Mem.above, Bool.and_eq_true, decide_eq_true_eq] at h ⊢
    cases lo with
    | none => simp_all
    | some l => have := hl l rfl; simp_all; omega

/-- No address at or below the bound is listed. -/
theorem Mem.read_below {d : Byte} {m : Mem} {k a : Nat} (h : Mem.above d (some k) m = true) (ha : a ≤ k) :
    Mem.read d m a = d := by
  induction m generalizing k with
  | nil => rfl
  | cons p r ih =>
    simp only [Mem.above, Bool.and_eq_true, decide_eq_true_eq] at h
    have : p.1 ≠ a := by omega
    simp only [Mem.read, this, if_false]
    exact ih h.2 (by omega)

theorem Mem.above_write {d : Byte} {m : Mem} {a : Nat} {b : Byte} : ∀ {lo : Option Nat}, Mem.above d lo m = true →
    (∀ l, lo = some l → l < a) → Mem.above d lo (Mem.write d m a b) = true := by
  induction m with
  | nil =>
    intro lo _ hl
    cases lo <;> by_cases hb : b = d <;> simp_all [Mem.write, Mem.above]
  | cons p r ih =>
    intro lo h hl
    simp only [Mem.above, Bool.and_eq_true] at h
    obtain ⟨⟨h1, h2⟩, h3⟩ := h
    simp only [Mem.write]
    split
    · split
      · simp only [Mem.above, h1, h2, h3, Bool.and_self]
      · next hlt hb =>
        cases lo <;> simp_all [Mem.above]
    · split
      · next hge he =>
        split
        · exact Mem.above_le h3 (fun l e => Nat.le_of_lt (he ▸ hl l e))
        · subst he; cases lo <;> simp_all [Mem.above]
      · next hge he =>
        have h4 := ih h3 (fun l e => by cases e; omega)
        simp only [Mem.above, h1, h2, h4, Bool.and_self]

/-- A byte write keeps the canonical form. -/
theorem Mem.write_wf {d : Byte} {m : Mem} (a : Nat) (b : Byte) (h : m.wf d = true) : (Mem.write d m a b).wf d = true :=
  Mem.above_write h (fun _ e => nomatch e)

/-- A write of consecutive bytes keeps the canonical form. -/
theorem Mem.writeBytes_wf {d : Byte} {m : Mem} (a : Nat) (bs : List Byte) (h : m.wf d = true) :
    (Mem.writeBytes d m a bs).wf d = true := by
  induction bs generalizing m a with
  | nil => exact h
  | cons b r ih => exact ih (a + 1) (Mem.write_wf a b h)

theorem Mem.writeN_wf {d : Byte} {m : Mem} (a n v : Nat) (h : m.wf d = true) : (Mem.writeN d m a n v).wf d = true :=
  Mem.writeBytes_wf a _ h

/-! ### Byte memories: what a read finds -/

/-- Another address reads as before a byte write. -/
theorem Mem.read_write_ne {d : Byte} (m : Mem) {a p : Nat} (b : Byte) (h : p ≠ a) :
    Mem.read d (Mem.write d m a b) p = Mem.read d m p := by
  induction m with
  | nil => by_cases hb : b = d <;> simp_all [Mem.write, Mem.read, Ne.symm h]
  | cons q r ih =>
    simp only [Mem.write]
    split
    · split <;> simp [Mem.read, Ne.symm h]
    · split
      · next he => subst he; split <;> simp [Mem.read, Ne.symm h]
      · simp only [Mem.read, ih]

/-- The written address reads as the written byte. -/
theorem Mem.read_write_self {d : Byte} {m : Mem} (a : Nat) (b : Byte) : ∀ {lo : Option Nat}, Mem.above d lo m = true →
    Mem.read d (Mem.write d m a b) a = b := by
  induction m with
  | nil => intro lo _; by_cases hb : b = d <;> simp_all [Mem.write, Mem.read]
  | cons q r ih =>
    intro lo h
    simp only [Mem.above, Bool.and_eq_true] at h
    simp only [Mem.write]
    split
    · next hlt =>
      split
      · next hb =>
        have : q.1 ≠ a := by omega
        simp only [Mem.read, this, if_false, hb]
        exact Mem.read_below h.2 (by omega)
      · simp [Mem.read]
    · split
      · next he =>
        split
        · next hb => rw [hb]; exact Mem.read_below h.2 (by omega)
        · simp [Mem.read]
      · next he =>
        simp only [Mem.read, Ne.symm he, if_false]
        exact ih h.2

/-- Reads after a byte write. -/
theorem Mem.read_write {d : Byte} {m : Mem} (h : m.wf d = true) (a p : Nat) (b : Byte) :
    Mem.read d (Mem.write d m a b) p = if p = a then b else Mem.read d m p := by
  split
  · next e => rw [e]; exact Mem.read_write_self a b h
  · next e => exact Mem.read_write_ne m b e

/-- Outside the bytes written every address reads as before. -/
theorem Mem.read_writeBytes_out {d : Byte} (m : Mem) (a p : Nat) (bs : List Byte) (h : p < a ∨ a + bs.length ≤ p) :
    Mem.read d (Mem.writeBytes d m a bs) p = Mem.read d m p := by
  induction bs generalizing m a with
  | nil => rfl
  | cons b r ih =>
    simp only [List.length_cons] at h
    rw [Mem.writeBytes, ih _ _ (by omega), Mem.read_write_ne _ _ (by omega)]

/-- Reads after a write of consecutive bytes. -/
theorem Mem.read_writeBytes {d : Byte} {m : Mem} (h : m.wf d = true) (a p : Nat) (bs : List Byte) :
    Mem.read d (Mem.writeBytes d m a bs) p =
      if a ≤ p ∧ p < a + bs.length then bs.getD (p - a) 0 else Mem.read d m p := by
  induction bs generalizing m a with
  | nil => rw [if_neg (by simp)]; rfl
  | cons b r ih =>
    rw [Mem.writeBytes, ih (Mem.write_wf a b h), Mem.read_write h]
    simp only [List.length_cons]
    by_cases h1 : p = a
    · subst h1; rw [if_neg (by omega), if_pos rfl, if_pos (by omega)]; simp
    · by_cases h2 : a + 1 ≤ p ∧ p < a + 1 + r.length
      · rw [if_pos h2, if_pos (by omega), show p - a = p - (a + 1) + 1 by omega]; simp
      · rw [if_neg h2, if_neg h1, if_neg (by omega)]

@[simp] theorem Mem.readBytes_length (d : Byte) (m : Mem) (a n : Nat) : (Mem.readBytes d m a n).length = n := by
  induction n generalizing a with
  | zero => rfl
  | succ n ih => simp [Mem.readBytes, ih]

/-- Two memories that read alike over a range give the same bytes. -/
theorem Mem.readBytes_congr {d : Byte} {m m' : Mem} {a n : Nat}
    (h : ∀ p, a ≤ p → p < a + n → Mem.read d m p = Mem.read d m' p) : Mem.readBytes d m a n = Mem.readBytes d m' a n := by
  induction n generalizing a with
  | zero => rfl
  | succ n ih =>
    simp only [Mem.readBytes]
    rw [h a (Nat.le_refl a) (by omega), ih fun p h1 h2 => h p (by omega) (by omega)]

/-- The bytes just written are read back. -/
theorem Mem.readBytes_writeBytes {d : Byte} {m : Mem} (h : m.wf d = true) (a : Nat) (bs : List Byte) :
    Mem.readBytes d (Mem.writeBytes d m a bs) a bs.length = bs := by
  induction bs generalizing m a with
  | nil => rfl
  | cons b r ih =>
    simp only [List.length_cons, Mem.readBytes, Mem.writeBytes]
    rw [ih (Mem.write_wf a b h), Mem.read_writeBytes_out _ _ _ _ (Or.inl (Nat.lt_succ_self a)), Mem.read_write_self a b h]

end Sys2Proof.Machine
end

