-- ==== Sys2Proof/Laws/State.lean ====
section
/-! SUPPORT. Laws of the state's updates: what each field is after each update, and what a unit's record is. -/

namespace Sys2Proof.Machine
open Sys2Proof

section Updates
variable (s : State)

/-! #### State.updCm -/

@[simp] theorem State.updCm_time (f : Cm → Cm) : (s.updCm f).time = s.time := rfl
@[simp] theorem State.updCm_otp (f : Cm → Cm) : (s.updCm f).otp = s.otp := rfl
@[simp] theorem State.updCm_pes (f : Cm → Cm) : (s.updCm f).pes = s.pes := rfl
@[simp] theorem State.updCm_cab (f : Cm → Cm) : (s.updCm f).cab = s.cab := rfl
@[simp] theorem State.updCm_trace (f : Cm → Cm) : (s.updCm f).trace = s.trace := rfl
@[simp] theorem State.updCm_tally (f : Cm → Cm) : (s.updCm f).tally = s.tally := rfl
@[simp] theorem State.updCm_cm (f : Cm → Cm) : (s.updCm f).cm = f s.cm := rfl
@[simp] theorem State.updCm_net (f : Cm → Cm) : (s.updCm f).net = s.net := rfl
@[simp] theorem State.updCm_sites (f : Cm → Cm) : (s.updCm f).sites = s.sites := rfl
@[simp] theorem State.updCm_lanes (f : Cm → Cm) : (s.updCm f).lanes = s.lanes := rfl
@[simp] theorem State.updCm_cus (f : Cm → Cm) : (s.updCm f).cus = s.cus := rfl
@[simp] theorem State.updCm_lgs (f : Cm → Cm) : (s.updCm f).lgs = s.lgs := rfl
@[simp] theorem State.updCm_cohorts (f : Cm → Cm) : (s.updCm f).cohorts = s.cohorts := rfl
@[simp] theorem State.updCm_cohIdx (f : Cm → Cm) : (s.updCm f).cohIdx = s.cohIdx := rfl
@[simp] theorem State.updCm_readers (f : Cm → Cm) : (s.updCm f).readers = s.readers := rfl
@[simp] theorem State.updCm_maps (f : Cm → Cm) : (s.updCm f).maps = s.maps := rfl
@[simp] theorem State.updCm_outlets (f : Cm → Cm) : (s.updCm f).outlets = s.outlets := rfl
@[simp] theorem State.updCm_ddrs (f : Cm → Cm) : (s.updCm f).ddrs = s.ddrs := rfl
@[simp] theorem State.updCm_ddr (f : Cm → Cm) : (s.updCm f).ddr = s.ddr := rfl
@[simp] theorem State.updCm_ddrPoison (f : Cm → Cm) : (s.updCm f).ddrPoison = s.ddrPoison := rfl
@[simp] theorem State.updCm_ddrUpset (f : Cm → Cm) : (s.updCm f).ddrUpset = s.ddrUpset := rfl
@[simp] theorem State.updCm_shelf (f : Cm → Cm) : (s.updCm f).shelf = s.shelf := rfl
@[simp] theorem State.updCm_shelfBad (f : Cm → Cm) : (s.updCm f).shelfBad = s.shelfBad := rfl
@[simp] theorem State.updCm_shelfQ (f : Cm → Cm) : (s.updCm f).shelfQ = s.shelfQ := rfl
@[simp] theorem State.updCm_shelfAtomics (f : Cm → Cm) : (s.updCm f).shelfAtomics = s.shelfAtomics := rfl
@[simp] theorem State.updCm_istr (f : Cm → Cm) : (s.updCm f).istr = s.istr := rfl
@[simp] theorem State.updCm_shareWritten (f : Cm → Cm) : (s.updCm f).shareWritten = s.shareWritten := rfl
@[simp] theorem State.updCm_budgetRefused (f : Cm → Cm) : (s.updCm f).budgetRefused = s.budgetRefused := rfl
@[simp] theorem State.updCm_pegs (f : Cm → Cm) : (s.updCm f).pegs = s.pegs := rfl
@[simp] theorem State.updCm_st (f : Cm → Cm) : (s.updCm f).st = s.st := rfl
@[simp] theorem State.updCm_mbs (f : Cm → Cm) : (s.updCm f).mbs = s.mbs := rfl
@[simp] theorem State.updCm_host (f : Cm → Cm) : (s.updCm f).host = s.host := rfl
@[simp] theorem State.updCm_i3c (f : Cm → Cm) : (s.updCm f).i3c = s.i3c := rfl
@[simp] theorem State.updCm_arb (f : Cm → Cm) : (s.updCm f).arb = s.arb := rfl
@[simp] theorem State.updCm_pair (f : Cm → Cm) : (s.updCm f).pair = s.pair := rfl
@[simp] theorem State.updCm_pwr (f : Cm → Cm) : (s.updCm f).pwr = s.pwr := rfl
@[simp] theorem State.updCm_sn (f : Cm → Cm) : (s.updCm f).sn = s.sn := rfl
@[simp] theorem State.updCm_boot (f : Cm → Cm) : (s.updCm f).boot = s.boot := rfl
@[simp] theorem State.updCm_sec (f : Cm → Cm) : (s.updCm f).sec = s.sec := rfl
@[simp] theorem State.updCm_rcd (f : Cm → Cm) : (s.updCm f).rcd = s.rcd := rfl
@[simp] theorem State.updCm_led (f : Cm → Cm) : (s.updCm f).led = s.led := rfl
@[simp] theorem State.updCm_pat (f : Cm → Cm) : (s.updCm f).pat = s.pat := rfl
@[simp] theorem State.updCm_regs (f : Cm → Cm) : (s.updCm f).regs = s.regs := rfl
@[simp] theorem State.updCm_fc (f : Cm → Cm) : (s.updCm f).fc = s.fc := rfl
@[simp] theorem State.updCm_freeCnt (f : Cm → Cm) : (s.updCm f).freeCnt = s.freeCnt := rfl
@[simp] theorem State.updCm_pending (f : Cm → Cm) : (s.updCm f).pending = s.pending := rfl

/-! #### State.updNet -/

@[simp] theorem State.updNet_time (f : Net → Net) : (s.updNet f).time = s.time := rfl
@[simp] theorem State.updNet_otp (f : Net → Net) : (s.updNet f).otp = s.otp := rfl
@[simp] theorem State.updNet_pes (f : Net → Net) : (s.updNet f).pes = s.pes := rfl
@[simp] theorem State.updNet_cab (f : Net → Net) : (s.updNet f).cab = s.cab := rfl
@[simp] theorem State.updNet_trace (f : Net → Net) : (s.updNet f).trace = s.trace := rfl
@[simp] theorem State.updNet_tally (f : Net → Net) : (s.updNet f).tally = s.tally := rfl
@[simp] theorem State.updNet_cm (f : Net → Net) : (s.updNet f).cm = s.cm := rfl
@[simp] theorem State.updNet_net (f : Net → Net) : (s.updNet f).net = f s.net := rfl
@[simp] theorem State.updNet_sites (f : Net → Net) : (s.updNet f).sites = s.sites := rfl
@[simp] theorem State.updNet_lanes (f : Net → Net) : (s.updNet f).lanes = s.lanes := rfl
@[simp] theorem State.updNet_cus (f : Net → Net) : (s.updNet f).cus = s.cus := rfl
@[simp] theorem State.updNet_lgs (f : Net → Net) : (s.updNet f).lgs = s.lgs := rfl
@[simp] theorem State.updNet_cohorts (f : Net → Net) : (s.updNet f).cohorts = s.cohorts := rfl
@[simp] theorem State.updNet_cohIdx (f : Net → Net) : (s.updNet f).cohIdx = s.cohIdx := rfl
@[simp] theorem State.updNet_readers (f : Net → Net) : (s.updNet f).readers = s.readers := rfl
@[simp] theorem State.updNet_maps (f : Net → Net) : (s.updNet f).maps = s.maps := rfl
@[simp] theorem State.updNet_outlets (f : Net → Net) : (s.updNet f).outlets = s.outlets := rfl
@[simp] theorem State.updNet_ddrs (f : Net → Net) : (s.updNet f).ddrs = s.ddrs := rfl
@[simp] theorem State.updNet_ddr (f : Net → Net) : (s.updNet f).ddr = s.ddr := rfl
@[simp] theorem State.updNet_ddrPoison (f : Net → Net) : (s.updNet f).ddrPoison = s.ddrPoison := rfl
@[simp] theorem State.updNet_ddrUpset (f : Net → Net) : (s.updNet f).ddrUpset = s.ddrUpset := rfl
@[simp] theorem State.updNet_shelf (f : Net → Net) : (s.updNet f).shelf = s.shelf := rfl
@[simp] theorem State.updNet_shelfBad (f : Net → Net) : (s.updNet f).shelfBad = s.shelfBad := rfl
@[simp] theorem State.updNet_shelfQ (f : Net → Net) : (s.updNet f).shelfQ = s.shelfQ := rfl
@[simp] theorem State.updNet_shelfAtomics (f : Net → Net) : (s.updNet f).shelfAtomics = s.shelfAtomics := rfl
@[simp] theorem State.updNet_istr (f : Net → Net) : (s.updNet f).istr = s.istr := rfl
@[simp] theorem State.updNet_shareWritten (f : Net → Net) : (s.updNet f).shareWritten = s.shareWritten := rfl
@[simp] theorem State.updNet_budgetRefused (f : Net → Net) : (s.updNet f).budgetRefused = s.budgetRefused := rfl
@[simp] theorem State.updNet_pegs (f : Net → Net) : (s.updNet f).pegs = s.pegs := rfl
@[simp] theorem State.updNet_st (f : Net → Net) : (s.updNet f).st = s.st := rfl
@[simp] theorem State.updNet_mbs (f : Net → Net) : (s.updNet f).mbs = s.mbs := rfl
@[simp] theorem State.updNet_host (f : Net → Net) : (s.updNet f).host = s.host := rfl
@[simp] theorem State.updNet_i3c (f : Net → Net) : (s.updNet f).i3c = s.i3c := rfl
@[simp] theorem State.updNet_arb (f : Net → Net) : (s.updNet f).arb = s.arb := rfl
@[simp] theorem State.updNet_pair (f : Net → Net) : (s.updNet f).pair = s.pair := rfl
@[simp] theorem State.updNet_pwr (f : Net → Net) : (s.updNet f).pwr = s.pwr := rfl
@[simp] theorem State.updNet_sn (f : Net → Net) : (s.updNet f).sn = s.sn := rfl
@[simp] theorem State.updNet_boot (f : Net → Net) : (s.updNet f).boot = s.boot := rfl
@[simp] theorem State.updNet_sec (f : Net → Net) : (s.updNet f).sec = s.sec := rfl
@[simp] theorem State.updNet_rcd (f : Net → Net) : (s.updNet f).rcd = s.rcd := rfl
@[simp] theorem State.updNet_led (f : Net → Net) : (s.updNet f).led = s.led := rfl
@[simp] theorem State.updNet_pat (f : Net → Net) : (s.updNet f).pat = s.pat := rfl
@[simp] theorem State.updNet_regs (f : Net → Net) : (s.updNet f).regs = s.regs := rfl
@[simp] theorem State.updNet_fc (f : Net → Net) : (s.updNet f).fc = s.fc := rfl
@[simp] theorem State.updNet_freeCnt (f : Net → Net) : (s.updNet f).freeCnt = s.freeCnt := rfl
@[simp] theorem State.updNet_pending (f : Net → Net) : (s.updNet f).pending = s.pending := rfl

/-! #### State.updHost -/

@[simp] theorem State.updHost_time (f : HostIf → HostIf) : (s.updHost f).time = s.time := rfl
@[simp] theorem State.updHost_otp (f : HostIf → HostIf) : (s.updHost f).otp = s.otp := rfl
@[simp] theorem State.updHost_pes (f : HostIf → HostIf) : (s.updHost f).pes = s.pes := rfl
@[simp] theorem State.updHost_cab (f : HostIf → HostIf) : (s.updHost f).cab = s.cab := rfl
@[simp] theorem State.updHost_trace (f : HostIf → HostIf) : (s.updHost f).trace = s.trace := rfl
@[simp] theorem State.updHost_tally (f : HostIf → HostIf) : (s.updHost f).tally = s.tally := rfl
@[simp] theorem State.updHost_cm (f : HostIf → HostIf) : (s.updHost f).cm = s.cm := rfl
@[simp] theorem State.updHost_net (f : HostIf → HostIf) : (s.updHost f).net = s.net := rfl
@[simp] theorem State.updHost_sites (f : HostIf → HostIf) : (s.updHost f).sites = s.sites := rfl
@[simp] theorem State.updHost_lanes (f : HostIf → HostIf) : (s.updHost f).lanes = s.lanes := rfl
@[simp] theorem State.updHost_cus (f : HostIf → HostIf) : (s.updHost f).cus = s.cus := rfl
@[simp] theorem State.updHost_lgs (f : HostIf → HostIf) : (s.updHost f).lgs = s.lgs := rfl
@[simp] theorem State.updHost_cohorts (f : HostIf → HostIf) : (s.updHost f).cohorts = s.cohorts := rfl
@[simp] theorem State.updHost_cohIdx (f : HostIf → HostIf) : (s.updHost f).cohIdx = s.cohIdx := rfl
@[simp] theorem State.updHost_readers (f : HostIf → HostIf) : (s.updHost f).readers = s.readers := rfl
@[simp] theorem State.updHost_maps (f : HostIf → HostIf) : (s.updHost f).maps = s.maps := rfl
@[simp] theorem State.updHost_outlets (f : HostIf → HostIf) : (s.updHost f).outlets = s.outlets := rfl
@[simp] theorem State.updHost_ddrs (f : HostIf → HostIf) : (s.updHost f).ddrs = s.ddrs := rfl
@[simp] theorem State.updHost_ddr (f : HostIf → HostIf) : (s.updHost f).ddr = s.ddr := rfl
@[simp] theorem State.updHost_ddrPoison (f : HostIf → HostIf) : (s.updHost f).ddrPoison = s.ddrPoison := rfl
@[simp] theorem State.updHost_ddrUpset (f : HostIf → HostIf) : (s.updHost f).ddrUpset = s.ddrUpset := rfl
@[simp] theorem State.updHost_shelf (f : HostIf → HostIf) : (s.updHost f).shelf = s.shelf := rfl
@[simp] theorem State.updHost_shelfBad (f : HostIf → HostIf) : (s.updHost f).shelfBad = s.shelfBad := rfl
@[simp] theorem State.updHost_shelfQ (f : HostIf → HostIf) : (s.updHost f).shelfQ = s.shelfQ := rfl
@[simp] theorem State.updHost_shelfAtomics (f : HostIf → HostIf) : (s.updHost f).shelfAtomics = s.shelfAtomics := rfl
@[simp] theorem State.updHost_istr (f : HostIf → HostIf) : (s.updHost f).istr = s.istr := rfl
@[simp] theorem State.updHost_shareWritten (f : HostIf → HostIf) : (s.updHost f).shareWritten = s.shareWritten := rfl
@[simp] theorem State.updHost_budgetRefused (f : HostIf → HostIf) : (s.updHost f).budgetRefused = s.budgetRefused := rfl
@[simp] theorem State.updHost_pegs (f : HostIf → HostIf) : (s.updHost f).pegs = s.pegs := rfl
@[simp] theorem State.updHost_st (f : HostIf → HostIf) : (s.updHost f).st = s.st := rfl
@[simp] theorem State.updHost_mbs (f : HostIf → HostIf) : (s.updHost f).mbs = s.mbs := rfl
@[simp] theorem State.updHost_host (f : HostIf → HostIf) : (s.updHost f).host = f s.host := rfl
@[simp] theorem State.updHost_i3c (f : HostIf → HostIf) : (s.updHost f).i3c = s.i3c := rfl
@[simp] theorem State.updHost_arb (f : HostIf → HostIf) : (s.updHost f).arb = s.arb := rfl
@[simp] theorem State.updHost_pair (f : HostIf → HostIf) : (s.updHost f).pair = s.pair := rfl
@[simp] theorem State.updHost_pwr (f : HostIf → HostIf) : (s.updHost f).pwr = s.pwr := rfl
@[simp] theorem State.updHost_sn (f : HostIf → HostIf) : (s.updHost f).sn = s.sn := rfl
@[simp] theorem State.updHost_boot (f : HostIf → HostIf) : (s.updHost f).boot = s.boot := rfl
@[simp] theorem State.updHost_sec (f : HostIf → HostIf) : (s.updHost f).sec = s.sec := rfl
@[simp] theorem State.updHost_rcd (f : HostIf → HostIf) : (s.updHost f).rcd = s.rcd := rfl
@[simp] theorem State.updHost_led (f : HostIf → HostIf) : (s.updHost f).led = s.led := rfl
@[simp] theorem State.updHost_pat (f : HostIf → HostIf) : (s.updHost f).pat = s.pat := rfl
@[simp] theorem State.updHost_regs (f : HostIf → HostIf) : (s.updHost f).regs = s.regs := rfl
@[simp] theorem State.updHost_fc (f : HostIf → HostIf) : (s.updHost f).fc = s.fc := rfl
@[simp] theorem State.updHost_freeCnt (f : HostIf → HostIf) : (s.updHost f).freeCnt = s.freeCnt := rfl
@[simp] theorem State.updHost_pending (f : HostIf → HostIf) : (s.updHost f).pending = s.pending := rfl

/-! #### State.updPair -/

@[simp] theorem State.updPair_time (f : Pair → Pair) : (s.updPair f).time = s.time := rfl
@[simp] theorem State.updPair_otp (f : Pair → Pair) : (s.updPair f).otp = s.otp := rfl
@[simp] theorem State.updPair_pes (f : Pair → Pair) : (s.updPair f).pes = s.pes := rfl
@[simp] theorem State.updPair_cab (f : Pair → Pair) : (s.updPair f).cab = s.cab := rfl
@[simp] theorem State.updPair_trace (f : Pair → Pair) : (s.updPair f).trace = s.trace := rfl
@[simp] theorem State.updPair_tally (f : Pair → Pair) : (s.updPair f).tally = s.tally := rfl
@[simp] theorem State.updPair_cm (f : Pair → Pair) : (s.updPair f).cm = s.cm := rfl
@[simp] theorem State.updPair_net (f : Pair → Pair) : (s.updPair f).net = s.net := rfl
@[simp] theorem State.updPair_sites (f : Pair → Pair) : (s.updPair f).sites = s.sites := rfl
@[simp] theorem State.updPair_lanes (f : Pair → Pair) : (s.updPair f).lanes = s.lanes := rfl
@[simp] theorem State.updPair_cus (f : Pair → Pair) : (s.updPair f).cus = s.cus := rfl
@[simp] theorem State.updPair_lgs (f : Pair → Pair) : (s.updPair f).lgs = s.lgs := rfl
@[simp] theorem State.updPair_cohorts (f : Pair → Pair) : (s.updPair f).cohorts = s.cohorts := rfl
@[simp] theorem State.updPair_cohIdx (f : Pair → Pair) : (s.updPair f).cohIdx = s.cohIdx := rfl
@[simp] theorem State.updPair_readers (f : Pair → Pair) : (s.updPair f).readers = s.readers := rfl
@[simp] theorem State.updPair_maps (f : Pair → Pair) : (s.updPair f).maps = s.maps := rfl
@[simp] theorem State.updPair_outlets (f : Pair → Pair) : (s.updPair f).outlets = s.outlets := rfl
@[simp] theorem State.updPair_ddrs (f : Pair → Pair) : (s.updPair f).ddrs = s.ddrs := rfl
@[simp] theorem State.updPair_ddr (f : Pair → Pair) : (s.updPair f).ddr = s.ddr := rfl
@[simp] theorem State.updPair_ddrPoison (f : Pair → Pair) : (s.updPair f).ddrPoison = s.ddrPoison := rfl
@[simp] theorem State.updPair_ddrUpset (f : Pair → Pair) : (s.updPair f).ddrUpset = s.ddrUpset := rfl
@[simp] theorem State.updPair_shelf (f : Pair → Pair) : (s.updPair f).shelf = s.shelf := rfl
@[simp] theorem State.updPair_shelfBad (f : Pair → Pair) : (s.updPair f).shelfBad = s.shelfBad := rfl
@[simp] theorem State.updPair_shelfQ (f : Pair → Pair) : (s.updPair f).shelfQ = s.shelfQ := rfl
@[simp] theorem State.updPair_shelfAtomics (f : Pair → Pair) : (s.updPair f).shelfAtomics = s.shelfAtomics := rfl
@[simp] theorem State.updPair_istr (f : Pair → Pair) : (s.updPair f).istr = s.istr := rfl
@[simp] theorem State.updPair_shareWritten (f : Pair → Pair) : (s.updPair f).shareWritten = s.shareWritten := rfl
@[simp] theorem State.updPair_budgetRefused (f : Pair → Pair) : (s.updPair f).budgetRefused = s.budgetRefused := rfl
@[simp] theorem State.updPair_pegs (f : Pair → Pair) : (s.updPair f).pegs = s.pegs := rfl
@[simp] theorem State.updPair_st (f : Pair → Pair) : (s.updPair f).st = s.st := rfl
@[simp] theorem State.updPair_mbs (f : Pair → Pair) : (s.updPair f).mbs = s.mbs := rfl
@[simp] theorem State.updPair_host (f : Pair → Pair) : (s.updPair f).host = s.host := rfl
@[simp] theorem State.updPair_i3c (f : Pair → Pair) : (s.updPair f).i3c = s.i3c := rfl
@[simp] theorem State.updPair_arb (f : Pair → Pair) : (s.updPair f).arb = s.arb := rfl
@[simp] theorem State.updPair_pair (f : Pair → Pair) : (s.updPair f).pair = f s.pair := rfl
@[simp] theorem State.updPair_pwr (f : Pair → Pair) : (s.updPair f).pwr = s.pwr := rfl
@[simp] theorem State.updPair_sn (f : Pair → Pair) : (s.updPair f).sn = s.sn := rfl
@[simp] theorem State.updPair_boot (f : Pair → Pair) : (s.updPair f).boot = s.boot := rfl
@[simp] theorem State.updPair_sec (f : Pair → Pair) : (s.updPair f).sec = s.sec := rfl
@[simp] theorem State.updPair_rcd (f : Pair → Pair) : (s.updPair f).rcd = s.rcd := rfl
@[simp] theorem State.updPair_led (f : Pair → Pair) : (s.updPair f).led = s.led := rfl
@[simp] theorem State.updPair_pat (f : Pair → Pair) : (s.updPair f).pat = s.pat := rfl
@[simp] theorem State.updPair_regs (f : Pair → Pair) : (s.updPair f).regs = s.regs := rfl
@[simp] theorem State.updPair_fc (f : Pair → Pair) : (s.updPair f).fc = s.fc := rfl
@[simp] theorem State.updPair_freeCnt (f : Pair → Pair) : (s.updPair f).freeCnt = s.freeCnt := rfl
@[simp] theorem State.updPair_pending (f : Pair → Pair) : (s.updPair f).pending = s.pending := rfl

/-! #### State.updPwr -/

@[simp] theorem State.updPwr_time (f : Power → Power) : (s.updPwr f).time = s.time := rfl
@[simp] theorem State.updPwr_otp (f : Power → Power) : (s.updPwr f).otp = s.otp := rfl
@[simp] theorem State.updPwr_pes (f : Power → Power) : (s.updPwr f).pes = s.pes := rfl
@[simp] theorem State.updPwr_cab (f : Power → Power) : (s.updPwr f).cab = s.cab := rfl
@[simp] theorem State.updPwr_trace (f : Power → Power) : (s.updPwr f).trace = s.trace := rfl
@[simp] theorem State.updPwr_tally (f : Power → Power) : (s.updPwr f).tally = s.tally := rfl
@[simp] theorem State.updPwr_cm (f : Power → Power) : (s.updPwr f).cm = s.cm := rfl
@[simp] theorem State.updPwr_net (f : Power → Power) : (s.updPwr f).net = s.net := rfl
@[simp] theorem State.updPwr_sites (f : Power → Power) : (s.updPwr f).sites = s.sites := rfl
@[simp] theorem State.updPwr_lanes (f : Power → Power) : (s.updPwr f).lanes = s.lanes := rfl
@[simp] theorem State.updPwr_cus (f : Power → Power) : (s.updPwr f).cus = s.cus := rfl
@[simp] theorem State.updPwr_lgs (f : Power → Power) : (s.updPwr f).lgs = s.lgs := rfl
@[simp] theorem State.updPwr_cohorts (f : Power → Power) : (s.updPwr f).cohorts = s.cohorts := rfl
@[simp] theorem State.updPwr_cohIdx (f : Power → Power) : (s.updPwr f).cohIdx = s.cohIdx := rfl
@[simp] theorem State.updPwr_readers (f : Power → Power) : (s.updPwr f).readers = s.readers := rfl
@[simp] theorem State.updPwr_maps (f : Power → Power) : (s.updPwr f).maps = s.maps := rfl
@[simp] theorem State.updPwr_outlets (f : Power → Power) : (s.updPwr f).outlets = s.outlets := rfl
@[simp] theorem State.updPwr_ddrs (f : Power → Power) : (s.updPwr f).ddrs = s.ddrs := rfl
@[simp] theorem State.updPwr_ddr (f : Power → Power) : (s.updPwr f).ddr = s.ddr := rfl
@[simp] theorem State.updPwr_ddrPoison (f : Power → Power) : (s.updPwr f).ddrPoison = s.ddrPoison := rfl
@[simp] theorem State.updPwr_ddrUpset (f : Power → Power) : (s.updPwr f).ddrUpset = s.ddrUpset := rfl
@[simp] theorem State.updPwr_shelf (f : Power → Power) : (s.updPwr f).shelf = s.shelf := rfl
@[simp] theorem State.updPwr_shelfBad (f : Power → Power) : (s.updPwr f).shelfBad = s.shelfBad := rfl
@[simp] theorem State.updPwr_shelfQ (f : Power → Power) : (s.updPwr f).shelfQ = s.shelfQ := rfl
@[simp] theorem State.updPwr_shelfAtomics (f : Power → Power) : (s.updPwr f).shelfAtomics = s.shelfAtomics := rfl
@[simp] theorem State.updPwr_istr (f : Power → Power) : (s.updPwr f).istr = s.istr := rfl
@[simp] theorem State.updPwr_shareWritten (f : Power → Power) : (s.updPwr f).shareWritten = s.shareWritten := rfl
@[simp] theorem State.updPwr_budgetRefused (f : Power → Power) : (s.updPwr f).budgetRefused = s.budgetRefused := rfl
@[simp] theorem State.updPwr_pegs (f : Power → Power) : (s.updPwr f).pegs = s.pegs := rfl
@[simp] theorem State.updPwr_st (f : Power → Power) : (s.updPwr f).st = s.st := rfl
@[simp] theorem State.updPwr_mbs (f : Power → Power) : (s.updPwr f).mbs = s.mbs := rfl
@[simp] theorem State.updPwr_host (f : Power → Power) : (s.updPwr f).host = s.host := rfl
@[simp] theorem State.updPwr_i3c (f : Power → Power) : (s.updPwr f).i3c = s.i3c := rfl
@[simp] theorem State.updPwr_arb (f : Power → Power) : (s.updPwr f).arb = s.arb := rfl
@[simp] theorem State.updPwr_pair (f : Power → Power) : (s.updPwr f).pair = s.pair := rfl
@[simp] theorem State.updPwr_pwr (f : Power → Power) : (s.updPwr f).pwr = f s.pwr := rfl
@[simp] theorem State.updPwr_sn (f : Power → Power) : (s.updPwr f).sn = s.sn := rfl
@[simp] theorem State.updPwr_boot (f : Power → Power) : (s.updPwr f).boot = s.boot := rfl
@[simp] theorem State.updPwr_sec (f : Power → Power) : (s.updPwr f).sec = s.sec := rfl
@[simp] theorem State.updPwr_rcd (f : Power → Power) : (s.updPwr f).rcd = s.rcd := rfl
@[simp] theorem State.updPwr_led (f : Power → Power) : (s.updPwr f).led = s.led := rfl
@[simp] theorem State.updPwr_pat (f : Power → Power) : (s.updPwr f).pat = s.pat := rfl
@[simp] theorem State.updPwr_regs (f : Power → Power) : (s.updPwr f).regs = s.regs := rfl
@[simp] theorem State.updPwr_fc (f : Power → Power) : (s.updPwr f).fc = s.fc := rfl
@[simp] theorem State.updPwr_freeCnt (f : Power → Power) : (s.updPwr f).freeCnt = s.freeCnt := rfl
@[simp] theorem State.updPwr_pending (f : Power → Power) : (s.updPwr f).pending = s.pending := rfl

/-! #### State.updSn -/

@[simp] theorem State.updSn_time (f : Sentinel → Sentinel) : (s.updSn f).time = s.time := rfl
@[simp] theorem State.updSn_otp (f : Sentinel → Sentinel) : (s.updSn f).otp = s.otp := rfl
@[simp] theorem State.updSn_pes (f : Sentinel → Sentinel) : (s.updSn f).pes = s.pes := rfl
@[simp] theorem State.updSn_cab (f : Sentinel → Sentinel) : (s.updSn f).cab = s.cab := rfl
@[simp] theorem State.updSn_trace (f : Sentinel → Sentinel) : (s.updSn f).trace = s.trace := rfl
@[simp] theorem State.updSn_tally (f : Sentinel → Sentinel) : (s.updSn f).tally = s.tally := rfl
@[simp] theorem State.updSn_cm (f : Sentinel → Sentinel) : (s.updSn f).cm = s.cm := rfl
@[simp] theorem State.updSn_net (f : Sentinel → Sentinel) : (s.updSn f).net = s.net := rfl
@[simp] theorem State.updSn_sites (f : Sentinel → Sentinel) : (s.updSn f).sites = s.sites := rfl
@[simp] theorem State.updSn_lanes (f : Sentinel → Sentinel) : (s.updSn f).lanes = s.lanes := rfl
@[simp] theorem State.updSn_cus (f : Sentinel → Sentinel) : (s.updSn f).cus = s.cus := rfl
@[simp] theorem State.updSn_lgs (f : Sentinel → Sentinel) : (s.updSn f).lgs = s.lgs := rfl
@[simp] theorem State.updSn_cohorts (f : Sentinel → Sentinel) : (s.updSn f).cohorts = s.cohorts := rfl
@[simp] theorem State.updSn_cohIdx (f : Sentinel → Sentinel) : (s.updSn f).cohIdx = s.cohIdx := rfl
@[simp] theorem State.updSn_readers (f : Sentinel → Sentinel) : (s.updSn f).readers = s.readers := rfl
@[simp] theorem State.updSn_maps (f : Sentinel → Sentinel) : (s.updSn f).maps = s.maps := rfl
@[simp] theorem State.updSn_outlets (f : Sentinel → Sentinel) : (s.updSn f).outlets = s.outlets := rfl
@[simp] theorem State.updSn_ddrs (f : Sentinel → Sentinel) : (s.updSn f).ddrs = s.ddrs := rfl
@[simp] theorem State.updSn_ddr (f : Sentinel → Sentinel) : (s.updSn f).ddr = s.ddr := rfl
@[simp] theorem State.updSn_ddrPoison (f : Sentinel → Sentinel) : (s.updSn f).ddrPoison = s.ddrPoison := rfl
@[simp] theorem State.updSn_ddrUpset (f : Sentinel → Sentinel) : (s.updSn f).ddrUpset = s.ddrUpset := rfl
@[simp] theorem State.updSn_shelf (f : Sentinel → Sentinel) : (s.updSn f).shelf = s.shelf := rfl
@[simp] theorem State.updSn_shelfBad (f : Sentinel → Sentinel) : (s.updSn f).shelfBad = s.shelfBad := rfl
@[simp] theorem State.updSn_shelfQ (f : Sentinel → Sentinel) : (s.updSn f).shelfQ = s.shelfQ := rfl
@[simp] theorem State.updSn_shelfAtomics (f : Sentinel → Sentinel) : (s.updSn f).shelfAtomics = s.shelfAtomics := rfl
@[simp] theorem State.updSn_istr (f : Sentinel → Sentinel) : (s.updSn f).istr = s.istr := rfl
@[simp] theorem State.updSn_shareWritten (f : Sentinel → Sentinel) : (s.updSn f).shareWritten = s.shareWritten := rfl
@[simp] theorem State.updSn_budgetRefused (f : Sentinel → Sentinel) : (s.updSn f).budgetRefused = s.budgetRefused := rfl
@[simp] theorem State.updSn_pegs (f : Sentinel → Sentinel) : (s.updSn f).pegs = s.pegs := rfl
@[simp] theorem State.updSn_st (f : Sentinel → Sentinel) : (s.updSn f).st = s.st := rfl
@[simp] theorem State.updSn_mbs (f : Sentinel → Sentinel) : (s.updSn f).mbs = s.mbs := rfl
@[simp] theorem State.updSn_host (f : Sentinel → Sentinel) : (s.updSn f).host = s.host := rfl
@[simp] theorem State.updSn_i3c (f : Sentinel → Sentinel) : (s.updSn f).i3c = s.i3c := rfl
@[simp] theorem State.updSn_arb (f : Sentinel → Sentinel) : (s.updSn f).arb = s.arb := rfl
@[simp] theorem State.updSn_pair (f : Sentinel → Sentinel) : (s.updSn f).pair = s.pair := rfl
@[simp] theorem State.updSn_pwr (f : Sentinel → Sentinel) : (s.updSn f).pwr = s.pwr := rfl
@[simp] theorem State.updSn_sn (f : Sentinel → Sentinel) : (s.updSn f).sn = f s.sn := rfl
@[simp] theorem State.updSn_boot (f : Sentinel → Sentinel) : (s.updSn f).boot = s.boot := rfl
@[simp] theorem State.updSn_sec (f : Sentinel → Sentinel) : (s.updSn f).sec = s.sec := rfl
@[simp] theorem State.updSn_rcd (f : Sentinel → Sentinel) : (s.updSn f).rcd = s.rcd := rfl
@[simp] theorem State.updSn_led (f : Sentinel → Sentinel) : (s.updSn f).led = s.led := rfl
@[simp] theorem State.updSn_pat (f : Sentinel → Sentinel) : (s.updSn f).pat = s.pat := rfl
@[simp] theorem State.updSn_regs (f : Sentinel → Sentinel) : (s.updSn f).regs = s.regs := rfl
@[simp] theorem State.updSn_fc (f : Sentinel → Sentinel) : (s.updSn f).fc = s.fc := rfl
@[simp] theorem State.updSn_freeCnt (f : Sentinel → Sentinel) : (s.updSn f).freeCnt = s.freeCnt := rfl
@[simp] theorem State.updSn_pending (f : Sentinel → Sentinel) : (s.updSn f).pending = s.pending := rfl

/-! #### State.updBoot -/

@[simp] theorem State.updBoot_time (f : Boot → Boot) : (s.updBoot f).time = s.time := rfl
@[simp] theorem State.updBoot_otp (f : Boot → Boot) : (s.updBoot f).otp = s.otp := rfl
@[simp] theorem State.updBoot_pes (f : Boot → Boot) : (s.updBoot f).pes = s.pes := rfl
@[simp] theorem State.updBoot_cab (f : Boot → Boot) : (s.updBoot f).cab = s.cab := rfl
@[simp] theorem State.updBoot_trace (f : Boot → Boot) : (s.updBoot f).trace = s.trace := rfl
@[simp] theorem State.updBoot_tally (f : Boot → Boot) : (s.updBoot f).tally = s.tally := rfl
@[simp] theorem State.updBoot_cm (f : Boot → Boot) : (s.updBoot f).cm = s.cm := rfl
@[simp] theorem State.updBoot_net (f : Boot → Boot) : (s.updBoot f).net = s.net := rfl
@[simp] theorem State.updBoot_sites (f : Boot → Boot) : (s.updBoot f).sites = s.sites := rfl
@[simp] theorem State.updBoot_lanes (f : Boot → Boot) : (s.updBoot f).lanes = s.lanes := rfl
@[simp] theorem State.updBoot_cus (f : Boot → Boot) : (s.updBoot f).cus = s.cus := rfl
@[simp] theorem State.updBoot_lgs (f : Boot → Boot) : (s.updBoot f).lgs = s.lgs := rfl
@[simp] theorem State.updBoot_cohorts (f : Boot → Boot) : (s.updBoot f).cohorts = s.cohorts := rfl
@[simp] theorem State.updBoot_cohIdx (f : Boot → Boot) : (s.updBoot f).cohIdx = s.cohIdx := rfl
@[simp] theorem State.updBoot_readers (f : Boot → Boot) : (s.updBoot f).readers = s.readers := rfl
@[simp] theorem State.updBoot_maps (f : Boot → Boot) : (s.updBoot f).maps = s.maps := rfl
@[simp] theorem State.updBoot_outlets (f : Boot → Boot) : (s.updBoot f).outlets = s.outlets := rfl
@[simp] theorem State.updBoot_ddrs (f : Boot → Boot) : (s.updBoot f).ddrs = s.ddrs := rfl
@[simp] theorem State.updBoot_ddr (f : Boot → Boot) : (s.updBoot f).ddr = s.ddr := rfl
@[simp] theorem State.updBoot_ddrPoison (f : Boot → Boot) : (s.updBoot f).ddrPoison = s.ddrPoison := rfl
@[simp] theorem State.updBoot_ddrUpset (f : Boot → Boot) : (s.updBoot f).ddrUpset = s.ddrUpset := rfl
@[simp] theorem State.updBoot_shelf (f : Boot → Boot) : (s.updBoot f).shelf = s.shelf := rfl
@[simp] theorem State.updBoot_shelfBad (f : Boot → Boot) : (s.updBoot f).shelfBad = s.shelfBad := rfl
@[simp] theorem State.updBoot_shelfQ (f : Boot → Boot) : (s.updBoot f).shelfQ = s.shelfQ := rfl
@[simp] theorem State.updBoot_shelfAtomics (f : Boot → Boot) : (s.updBoot f).shelfAtomics = s.shelfAtomics := rfl
@[simp] theorem State.updBoot_istr (f : Boot → Boot) : (s.updBoot f).istr = s.istr := rfl
@[simp] theorem State.updBoot_shareWritten (f : Boot → Boot) : (s.updBoot f).shareWritten = s.shareWritten := rfl
@[simp] theorem State.updBoot_budgetRefused (f : Boot → Boot) : (s.updBoot f).budgetRefused = s.budgetRefused := rfl
@[simp] theorem State.updBoot_pegs (f : Boot → Boot) : (s.updBoot f).pegs = s.pegs := rfl
@[simp] theorem State.updBoot_st (f : Boot → Boot) : (s.updBoot f).st = s.st := rfl
@[simp] theorem State.updBoot_mbs (f : Boot → Boot) : (s.updBoot f).mbs = s.mbs := rfl
@[simp] theorem State.updBoot_host (f : Boot → Boot) : (s.updBoot f).host = s.host := rfl
@[simp] theorem State.updBoot_i3c (f : Boot → Boot) : (s.updBoot f).i3c = s.i3c := rfl
@[simp] theorem State.updBoot_arb (f : Boot → Boot) : (s.updBoot f).arb = s.arb := rfl
@[simp] theorem State.updBoot_pair (f : Boot → Boot) : (s.updBoot f).pair = s.pair := rfl
@[simp] theorem State.updBoot_pwr (f : Boot → Boot) : (s.updBoot f).pwr = s.pwr := rfl
@[simp] theorem State.updBoot_sn (f : Boot → Boot) : (s.updBoot f).sn = s.sn := rfl
@[simp] theorem State.updBoot_boot (f : Boot → Boot) : (s.updBoot f).boot = f s.boot := rfl
@[simp] theorem State.updBoot_sec (f : Boot → Boot) : (s.updBoot f).sec = s.sec := rfl
@[simp] theorem State.updBoot_rcd (f : Boot → Boot) : (s.updBoot f).rcd = s.rcd := rfl
@[simp] theorem State.updBoot_led (f : Boot → Boot) : (s.updBoot f).led = s.led := rfl
@[simp] theorem State.updBoot_pat (f : Boot → Boot) : (s.updBoot f).pat = s.pat := rfl
@[simp] theorem State.updBoot_regs (f : Boot → Boot) : (s.updBoot f).regs = s.regs := rfl
@[simp] theorem State.updBoot_fc (f : Boot → Boot) : (s.updBoot f).fc = s.fc := rfl
@[simp] theorem State.updBoot_freeCnt (f : Boot → Boot) : (s.updBoot f).freeCnt = s.freeCnt := rfl
@[simp] theorem State.updBoot_pending (f : Boot → Boot) : (s.updBoot f).pending = s.pending := rfl

/-! #### State.updSec -/

@[simp] theorem State.updSec_time (f : Sec → Sec) : (s.updSec f).time = s.time := rfl
@[simp] theorem State.updSec_otp (f : Sec → Sec) : (s.updSec f).otp = s.otp := rfl
@[simp] theorem State.updSec_pes (f : Sec → Sec) : (s.updSec f).pes = s.pes := rfl
@[simp] theorem State.updSec_cab (f : Sec → Sec) : (s.updSec f).cab = s.cab := rfl
@[simp] theorem State.updSec_trace (f : Sec → Sec) : (s.updSec f).trace = s.trace := rfl
@[simp] theorem State.updSec_tally (f : Sec → Sec) : (s.updSec f).tally = s.tally := rfl
@[simp] theorem State.updSec_cm (f : Sec → Sec) : (s.updSec f).cm = s.cm := rfl
@[simp] theorem State.updSec_net (f : Sec → Sec) : (s.updSec f).net = s.net := rfl
@[simp] theorem State.updSec_sites (f : Sec → Sec) : (s.updSec f).sites = s.sites := rfl
@[simp] theorem State.updSec_lanes (f : Sec → Sec) : (s.updSec f).lanes = s.lanes := rfl
@[simp] theorem State.updSec_cus (f : Sec → Sec) : (s.updSec f).cus = s.cus := rfl
@[simp] theorem State.updSec_lgs (f : Sec → Sec) : (s.updSec f).lgs = s.lgs := rfl
@[simp] theorem State.updSec_cohorts (f : Sec → Sec) : (s.updSec f).cohorts = s.cohorts := rfl
@[simp] theorem State.updSec_cohIdx (f : Sec → Sec) : (s.updSec f).cohIdx = s.cohIdx := rfl
@[simp] theorem State.updSec_readers (f : Sec → Sec) : (s.updSec f).readers = s.readers := rfl
@[simp] theorem State.updSec_maps (f : Sec → Sec) : (s.updSec f).maps = s.maps := rfl
@[simp] theorem State.updSec_outlets (f : Sec → Sec) : (s.updSec f).outlets = s.outlets := rfl
@[simp] theorem State.updSec_ddrs (f : Sec → Sec) : (s.updSec f).ddrs = s.ddrs := rfl
@[simp] theorem State.updSec_ddr (f : Sec → Sec) : (s.updSec f).ddr = s.ddr := rfl
@[simp] theorem State.updSec_ddrPoison (f : Sec → Sec) : (s.updSec f).ddrPoison = s.ddrPoison := rfl
@[simp] theorem State.updSec_ddrUpset (f : Sec → Sec) : (s.updSec f).ddrUpset = s.ddrUpset := rfl
@[simp] theorem State.updSec_shelf (f : Sec → Sec) : (s.updSec f).shelf = s.shelf := rfl
@[simp] theorem State.updSec_shelfBad (f : Sec → Sec) : (s.updSec f).shelfBad = s.shelfBad := rfl
@[simp] theorem State.updSec_shelfQ (f : Sec → Sec) : (s.updSec f).shelfQ = s.shelfQ := rfl
@[simp] theorem State.updSec_shelfAtomics (f : Sec → Sec) : (s.updSec f).shelfAtomics = s.shelfAtomics := rfl
@[simp] theorem State.updSec_istr (f : Sec → Sec) : (s.updSec f).istr = s.istr := rfl
@[simp] theorem State.updSec_shareWritten (f : Sec → Sec) : (s.updSec f).shareWritten = s.shareWritten := rfl
@[simp] theorem State.updSec_budgetRefused (f : Sec → Sec) : (s.updSec f).budgetRefused = s.budgetRefused := rfl
@[simp] theorem State.updSec_pegs (f : Sec → Sec) : (s.updSec f).pegs = s.pegs := rfl
@[simp] theorem State.updSec_st (f : Sec → Sec) : (s.updSec f).st = s.st := rfl
@[simp] theorem State.updSec_mbs (f : Sec → Sec) : (s.updSec f).mbs = s.mbs := rfl
@[simp] theorem State.updSec_host (f : Sec → Sec) : (s.updSec f).host = s.host := rfl
@[simp] theorem State.updSec_i3c (f : Sec → Sec) : (s.updSec f).i3c = s.i3c := rfl
@[simp] theorem State.updSec_arb (f : Sec → Sec) : (s.updSec f).arb = s.arb := rfl
@[simp] theorem State.updSec_pair (f : Sec → Sec) : (s.updSec f).pair = s.pair := rfl
@[simp] theorem State.updSec_pwr (f : Sec → Sec) : (s.updSec f).pwr = s.pwr := rfl
@[simp] theorem State.updSec_sn (f : Sec → Sec) : (s.updSec f).sn = s.sn := rfl
@[simp] theorem State.updSec_boot (f : Sec → Sec) : (s.updSec f).boot = s.boot := rfl
@[simp] theorem State.updSec_sec (f : Sec → Sec) : (s.updSec f).sec = f s.sec := rfl
@[simp] theorem State.updSec_rcd (f : Sec → Sec) : (s.updSec f).rcd = s.rcd := rfl
@[simp] theorem State.updSec_led (f : Sec → Sec) : (s.updSec f).led = s.led := rfl
@[simp] theorem State.updSec_pat (f : Sec → Sec) : (s.updSec f).pat = s.pat := rfl
@[simp] theorem State.updSec_regs (f : Sec → Sec) : (s.updSec f).regs = s.regs := rfl
@[simp] theorem State.updSec_fc (f : Sec → Sec) : (s.updSec f).fc = s.fc := rfl
@[simp] theorem State.updSec_freeCnt (f : Sec → Sec) : (s.updSec f).freeCnt = s.freeCnt := rfl
@[simp] theorem State.updSec_pending (f : Sec → Sec) : (s.updSec f).pending = s.pending := rfl

/-! #### State.updRcd -/

@[simp] theorem State.updRcd_time (f : Recorder → Recorder) : (s.updRcd f).time = s.time := rfl
@[simp] theorem State.updRcd_otp (f : Recorder → Recorder) : (s.updRcd f).otp = s.otp := rfl
@[simp] theorem State.updRcd_pes (f : Recorder → Recorder) : (s.updRcd f).pes = s.pes := rfl
@[simp] theorem State.updRcd_cab (f : Recorder → Recorder) : (s.updRcd f).cab = s.cab := rfl
@[simp] theorem State.updRcd_trace (f : Recorder → Recorder) : (s.updRcd f).trace = s.trace := rfl
@[simp] theorem State.updRcd_tally (f : Recorder → Recorder) : (s.updRcd f).tally = s.tally := rfl
@[simp] theorem State.updRcd_cm (f : Recorder → Recorder) : (s.updRcd f).cm = s.cm := rfl
@[simp] theorem State.updRcd_net (f : Recorder → Recorder) : (s.updRcd f).net = s.net := rfl
@[simp] theorem State.updRcd_sites (f : Recorder → Recorder) : (s.updRcd f).sites = s.sites := rfl
@[simp] theorem State.updRcd_lanes (f : Recorder → Recorder) : (s.updRcd f).lanes = s.lanes := rfl
@[simp] theorem State.updRcd_cus (f : Recorder → Recorder) : (s.updRcd f).cus = s.cus := rfl
@[simp] theorem State.updRcd_lgs (f : Recorder → Recorder) : (s.updRcd f).lgs = s.lgs := rfl
@[simp] theorem State.updRcd_cohorts (f : Recorder → Recorder) : (s.updRcd f).cohorts = s.cohorts := rfl
@[simp] theorem State.updRcd_cohIdx (f : Recorder → Recorder) : (s.updRcd f).cohIdx = s.cohIdx := rfl
@[simp] theorem State.updRcd_readers (f : Recorder → Recorder) : (s.updRcd f).readers = s.readers := rfl
@[simp] theorem State.updRcd_maps (f : Recorder → Recorder) : (s.updRcd f).maps = s.maps := rfl
@[simp] theorem State.updRcd_outlets (f : Recorder → Recorder) : (s.updRcd f).outlets = s.outlets := rfl
@[simp] theorem State.updRcd_ddrs (f : Recorder → Recorder) : (s.updRcd f).ddrs = s.ddrs := rfl
@[simp] theorem State.updRcd_ddr (f : Recorder → Recorder) : (s.updRcd f).ddr = s.ddr := rfl
@[simp] theorem State.updRcd_ddrPoison (f : Recorder → Recorder) : (s.updRcd f).ddrPoison = s.ddrPoison := rfl
@[simp] theorem State.updRcd_ddrUpset (f : Recorder → Recorder) : (s.updRcd f).ddrUpset = s.ddrUpset := rfl
@[simp] theorem State.updRcd_shelf (f : Recorder → Recorder) : (s.updRcd f).shelf = s.shelf := rfl
@[simp] theorem State.updRcd_shelfBad (f : Recorder → Recorder) : (s.updRcd f).shelfBad = s.shelfBad := rfl
@[simp] theorem State.updRcd_shelfQ (f : Recorder → Recorder) : (s.updRcd f).shelfQ = s.shelfQ := rfl
@[simp] theorem State.updRcd_shelfAtomics (f : Recorder → Recorder) : (s.updRcd f).shelfAtomics = s.shelfAtomics := rfl
@[simp] theorem State.updRcd_istr (f : Recorder → Recorder) : (s.updRcd f).istr = s.istr := rfl
@[simp] theorem State.updRcd_shareWritten (f : Recorder → Recorder) : (s.updRcd f).shareWritten = s.shareWritten := rfl
@[simp] theorem State.updRcd_budgetRefused (f : Recorder → Recorder) : (s.updRcd f).budgetRefused = s.budgetRefused := rfl
@[simp] theorem State.updRcd_pegs (f : Recorder → Recorder) : (s.updRcd f).pegs = s.pegs := rfl
@[simp] theorem State.updRcd_st (f : Recorder → Recorder) : (s.updRcd f).st = s.st := rfl
@[simp] theorem State.updRcd_mbs (f : Recorder → Recorder) : (s.updRcd f).mbs = s.mbs := rfl
@[simp] theorem State.updRcd_host (f : Recorder → Recorder) : (s.updRcd f).host = s.host := rfl
@[simp] theorem State.updRcd_i3c (f : Recorder → Recorder) : (s.updRcd f).i3c = s.i3c := rfl
@[simp] theorem State.updRcd_arb (f : Recorder → Recorder) : (s.updRcd f).arb = s.arb := rfl
@[simp] theorem State.updRcd_pair (f : Recorder → Recorder) : (s.updRcd f).pair = s.pair := rfl
@[simp] theorem State.updRcd_pwr (f : Recorder → Recorder) : (s.updRcd f).pwr = s.pwr := rfl
@[simp] theorem State.updRcd_sn (f : Recorder → Recorder) : (s.updRcd f).sn = s.sn := rfl
@[simp] theorem State.updRcd_boot (f : Recorder → Recorder) : (s.updRcd f).boot = s.boot := rfl
@[simp] theorem State.updRcd_sec (f : Recorder → Recorder) : (s.updRcd f).sec = s.sec := rfl
@[simp] theorem State.updRcd_rcd (f : Recorder → Recorder) : (s.updRcd f).rcd = f s.rcd := rfl
@[simp] theorem State.updRcd_led (f : Recorder → Recorder) : (s.updRcd f).led = s.led := rfl
@[simp] theorem State.updRcd_pat (f : Recorder → Recorder) : (s.updRcd f).pat = s.pat := rfl
@[simp] theorem State.updRcd_regs (f : Recorder → Recorder) : (s.updRcd f).regs = s.regs := rfl
@[simp] theorem State.updRcd_fc (f : Recorder → Recorder) : (s.updRcd f).fc = s.fc := rfl
@[simp] theorem State.updRcd_freeCnt (f : Recorder → Recorder) : (s.updRcd f).freeCnt = s.freeCnt := rfl
@[simp] theorem State.updRcd_pending (f : Recorder → Recorder) : (s.updRcd f).pending = s.pending := rfl

/-! #### State.updLed -/

@[simp] theorem State.updLed_time (f : Ledger → Ledger) : (s.updLed f).time = s.time := rfl
@[simp] theorem State.updLed_otp (f : Ledger → Ledger) : (s.updLed f).otp = s.otp := rfl
@[simp] theorem State.updLed_pes (f : Ledger → Ledger) : (s.updLed f).pes = s.pes := rfl
@[simp] theorem State.updLed_cab (f : Ledger → Ledger) : (s.updLed f).cab = s.cab := rfl
@[simp] theorem State.updLed_trace (f : Ledger → Ledger) : (s.updLed f).trace = s.trace := rfl
@[simp] theorem State.updLed_tally (f : Ledger → Ledger) : (s.updLed f).tally = s.tally := rfl
@[simp] theorem State.updLed_cm (f : Ledger → Ledger) : (s.updLed f).cm = s.cm := rfl
@[simp] theorem State.updLed_net (f : Ledger → Ledger) : (s.updLed f).net = s.net := rfl
@[simp] theorem State.updLed_sites (f : Ledger → Ledger) : (s.updLed f).sites = s.sites := rfl
@[simp] theorem State.updLed_lanes (f : Ledger → Ledger) : (s.updLed f).lanes = s.lanes := rfl
@[simp] theorem State.updLed_cus (f : Ledger → Ledger) : (s.updLed f).cus = s.cus := rfl
@[simp] theorem State.updLed_lgs (f : Ledger → Ledger) : (s.updLed f).lgs = s.lgs := rfl
@[simp] theorem State.updLed_cohorts (f : Ledger → Ledger) : (s.updLed f).cohorts = s.cohorts := rfl
@[simp] theorem State.updLed_cohIdx (f : Ledger → Ledger) : (s.updLed f).cohIdx = s.cohIdx := rfl
@[simp] theorem State.updLed_readers (f : Ledger → Ledger) : (s.updLed f).readers = s.readers := rfl
@[simp] theorem State.updLed_maps (f : Ledger → Ledger) : (s.updLed f).maps = s.maps := rfl
@[simp] theorem State.updLed_outlets (f : Ledger → Ledger) : (s.updLed f).outlets = s.outlets := rfl
@[simp] theorem State.updLed_ddrs (f : Ledger → Ledger) : (s.updLed f).ddrs = s.ddrs := rfl
@[simp] theorem State.updLed_ddr (f : Ledger → Ledger) : (s.updLed f).ddr = s.ddr := rfl
@[simp] theorem State.updLed_ddrPoison (f : Ledger → Ledger) : (s.updLed f).ddrPoison = s.ddrPoison := rfl
@[simp] theorem State.updLed_ddrUpset (f : Ledger → Ledger) : (s.updLed f).ddrUpset = s.ddrUpset := rfl
@[simp] theorem State.updLed_shelf (f : Ledger → Ledger) : (s.updLed f).shelf = s.shelf := rfl
@[simp] theorem State.updLed_shelfBad (f : Ledger → Ledger) : (s.updLed f).shelfBad = s.shelfBad := rfl
@[simp] theorem State.updLed_shelfQ (f : Ledger → Ledger) : (s.updLed f).shelfQ = s.shelfQ := rfl
@[simp] theorem State.updLed_shelfAtomics (f : Ledger → Ledger) : (s.updLed f).shelfAtomics = s.shelfAtomics := rfl
@[simp] theorem State.updLed_istr (f : Ledger → Ledger) : (s.updLed f).istr = s.istr := rfl
@[simp] theorem State.updLed_shareWritten (f : Ledger → Ledger) : (s.updLed f).shareWritten = s.shareWritten := rfl
@[simp] theorem State.updLed_budgetRefused (f : Ledger → Ledger) : (s.updLed f).budgetRefused = s.budgetRefused := rfl
@[simp] theorem State.updLed_pegs (f : Ledger → Ledger) : (s.updLed f).pegs = s.pegs := rfl
@[simp] theorem State.updLed_st (f : Ledger → Ledger) : (s.updLed f).st = s.st := rfl
@[simp] theorem State.updLed_mbs (f : Ledger → Ledger) : (s.updLed f).mbs = s.mbs := rfl
@[simp] theorem State.updLed_host (f : Ledger → Ledger) : (s.updLed f).host = s.host := rfl
@[simp] theorem State.updLed_i3c (f : Ledger → Ledger) : (s.updLed f).i3c = s.i3c := rfl
@[simp] theorem State.updLed_arb (f : Ledger → Ledger) : (s.updLed f).arb = s.arb := rfl
@[simp] theorem State.updLed_pair (f : Ledger → Ledger) : (s.updLed f).pair = s.pair := rfl
@[simp] theorem State.updLed_pwr (f : Ledger → Ledger) : (s.updLed f).pwr = s.pwr := rfl
@[simp] theorem State.updLed_sn (f : Ledger → Ledger) : (s.updLed f).sn = s.sn := rfl
@[simp] theorem State.updLed_boot (f : Ledger → Ledger) : (s.updLed f).boot = s.boot := rfl
@[simp] theorem State.updLed_sec (f : Ledger → Ledger) : (s.updLed f).sec = s.sec := rfl
@[simp] theorem State.updLed_rcd (f : Ledger → Ledger) : (s.updLed f).rcd = s.rcd := rfl
@[simp] theorem State.updLed_led (f : Ledger → Ledger) : (s.updLed f).led = f s.led := rfl
@[simp] theorem State.updLed_pat (f : Ledger → Ledger) : (s.updLed f).pat = s.pat := rfl
@[simp] theorem State.updLed_regs (f : Ledger → Ledger) : (s.updLed f).regs = s.regs := rfl
@[simp] theorem State.updLed_fc (f : Ledger → Ledger) : (s.updLed f).fc = s.fc := rfl
@[simp] theorem State.updLed_freeCnt (f : Ledger → Ledger) : (s.updLed f).freeCnt = s.freeCnt := rfl
@[simp] theorem State.updLed_pending (f : Ledger → Ledger) : (s.updLed f).pending = s.pending := rfl

/-! #### State.updPat -/

@[simp] theorem State.updPat_time (f : Patrol → Patrol) : (s.updPat f).time = s.time := rfl
@[simp] theorem State.updPat_otp (f : Patrol → Patrol) : (s.updPat f).otp = s.otp := rfl
@[simp] theorem State.updPat_pes (f : Patrol → Patrol) : (s.updPat f).pes = s.pes := rfl
@[simp] theorem State.updPat_cab (f : Patrol → Patrol) : (s.updPat f).cab = s.cab := rfl
@[simp] theorem State.updPat_trace (f : Patrol → Patrol) : (s.updPat f).trace = s.trace := rfl
@[simp] theorem State.updPat_tally (f : Patrol → Patrol) : (s.updPat f).tally = s.tally := rfl
@[simp] theorem State.updPat_cm (f : Patrol → Patrol) : (s.updPat f).cm = s.cm := rfl
@[simp] theorem State.updPat_net (f : Patrol → Patrol) : (s.updPat f).net = s.net := rfl
@[simp] theorem State.updPat_sites (f : Patrol → Patrol) : (s.updPat f).sites = s.sites := rfl
@[simp] theorem State.updPat_lanes (f : Patrol → Patrol) : (s.updPat f).lanes = s.lanes := rfl
@[simp] theorem State.updPat_cus (f : Patrol → Patrol) : (s.updPat f).cus = s.cus := rfl
@[simp] theorem State.updPat_lgs (f : Patrol → Patrol) : (s.updPat f).lgs = s.lgs := rfl
@[simp] theorem State.updPat_cohorts (f : Patrol → Patrol) : (s.updPat f).cohorts = s.cohorts := rfl
@[simp] theorem State.updPat_cohIdx (f : Patrol → Patrol) : (s.updPat f).cohIdx = s.cohIdx := rfl
@[simp] theorem State.updPat_readers (f : Patrol → Patrol) : (s.updPat f).readers = s.readers := rfl
@[simp] theorem State.updPat_maps (f : Patrol → Patrol) : (s.updPat f).maps = s.maps := rfl
@[simp] theorem State.updPat_outlets (f : Patrol → Patrol) : (s.updPat f).outlets = s.outlets := rfl
@[simp] theorem State.updPat_ddrs (f : Patrol → Patrol) : (s.updPat f).ddrs = s.ddrs := rfl
@[simp] theorem State.updPat_ddr (f : Patrol → Patrol) : (s.updPat f).ddr = s.ddr := rfl
@[simp] theorem State.updPat_ddrPoison (f : Patrol → Patrol) : (s.updPat f).ddrPoison = s.ddrPoison := rfl
@[simp] theorem State.updPat_ddrUpset (f : Patrol → Patrol) : (s.updPat f).ddrUpset = s.ddrUpset := rfl
@[simp] theorem State.updPat_shelf (f : Patrol → Patrol) : (s.updPat f).shelf = s.shelf := rfl
@[simp] theorem State.updPat_shelfBad (f : Patrol → Patrol) : (s.updPat f).shelfBad = s.shelfBad := rfl
@[simp] theorem State.updPat_shelfQ (f : Patrol → Patrol) : (s.updPat f).shelfQ = s.shelfQ := rfl
@[simp] theorem State.updPat_shelfAtomics (f : Patrol → Patrol) : (s.updPat f).shelfAtomics = s.shelfAtomics := rfl
@[simp] theorem State.updPat_istr (f : Patrol → Patrol) : (s.updPat f).istr = s.istr := rfl
@[simp] theorem State.updPat_shareWritten (f : Patrol → Patrol) : (s.updPat f).shareWritten = s.shareWritten := rfl
@[simp] theorem State.updPat_budgetRefused (f : Patrol → Patrol) : (s.updPat f).budgetRefused = s.budgetRefused := rfl
@[simp] theorem State.updPat_pegs (f : Patrol → Patrol) : (s.updPat f).pegs = s.pegs := rfl
@[simp] theorem State.updPat_st (f : Patrol → Patrol) : (s.updPat f).st = s.st := rfl
@[simp] theorem State.updPat_mbs (f : Patrol → Patrol) : (s.updPat f).mbs = s.mbs := rfl
@[simp] theorem State.updPat_host (f : Patrol → Patrol) : (s.updPat f).host = s.host := rfl
@[simp] theorem State.updPat_i3c (f : Patrol → Patrol) : (s.updPat f).i3c = s.i3c := rfl
@[simp] theorem State.updPat_arb (f : Patrol → Patrol) : (s.updPat f).arb = s.arb := rfl
@[simp] theorem State.updPat_pair (f : Patrol → Patrol) : (s.updPat f).pair = s.pair := rfl
@[simp] theorem State.updPat_pwr (f : Patrol → Patrol) : (s.updPat f).pwr = s.pwr := rfl
@[simp] theorem State.updPat_sn (f : Patrol → Patrol) : (s.updPat f).sn = s.sn := rfl
@[simp] theorem State.updPat_boot (f : Patrol → Patrol) : (s.updPat f).boot = s.boot := rfl
@[simp] theorem State.updPat_sec (f : Patrol → Patrol) : (s.updPat f).sec = s.sec := rfl
@[simp] theorem State.updPat_rcd (f : Patrol → Patrol) : (s.updPat f).rcd = s.rcd := rfl
@[simp] theorem State.updPat_led (f : Patrol → Patrol) : (s.updPat f).led = s.led := rfl
@[simp] theorem State.updPat_pat (f : Patrol → Patrol) : (s.updPat f).pat = f s.pat := rfl
@[simp] theorem State.updPat_regs (f : Patrol → Patrol) : (s.updPat f).regs = s.regs := rfl
@[simp] theorem State.updPat_fc (f : Patrol → Patrol) : (s.updPat f).fc = s.fc := rfl
@[simp] theorem State.updPat_freeCnt (f : Patrol → Patrol) : (s.updPat f).freeCnt = s.freeCnt := rfl
@[simp] theorem State.updPat_pending (f : Patrol → Patrol) : (s.updPat f).pending = s.pending := rfl

/-! #### State.updTrace -/

@[simp] theorem State.updTrace_time (f : Trace → Trace) : (s.updTrace f).time = s.time := rfl
@[simp] theorem State.updTrace_otp (f : Trace → Trace) : (s.updTrace f).otp = s.otp := rfl
@[simp] theorem State.updTrace_pes (f : Trace → Trace) : (s.updTrace f).pes = s.pes := rfl
@[simp] theorem State.updTrace_cab (f : Trace → Trace) : (s.updTrace f).cab = s.cab := rfl
@[simp] theorem State.updTrace_trace (f : Trace → Trace) : (s.updTrace f).trace = f s.trace := rfl
@[simp] theorem State.updTrace_tally (f : Trace → Trace) : (s.updTrace f).tally = s.tally := rfl
@[simp] theorem State.updTrace_cm (f : Trace → Trace) : (s.updTrace f).cm = s.cm := rfl
@[simp] theorem State.updTrace_net (f : Trace → Trace) : (s.updTrace f).net = s.net := rfl
@[simp] theorem State.updTrace_sites (f : Trace → Trace) : (s.updTrace f).sites = s.sites := rfl
@[simp] theorem State.updTrace_lanes (f : Trace → Trace) : (s.updTrace f).lanes = s.lanes := rfl
@[simp] theorem State.updTrace_cus (f : Trace → Trace) : (s.updTrace f).cus = s.cus := rfl
@[simp] theorem State.updTrace_lgs (f : Trace → Trace) : (s.updTrace f).lgs = s.lgs := rfl
@[simp] theorem State.updTrace_cohorts (f : Trace → Trace) : (s.updTrace f).cohorts = s.cohorts := rfl
@[simp] theorem State.updTrace_cohIdx (f : Trace → Trace) : (s.updTrace f).cohIdx = s.cohIdx := rfl
@[simp] theorem State.updTrace_readers (f : Trace → Trace) : (s.updTrace f).readers = s.readers := rfl
@[simp] theorem State.updTrace_maps (f : Trace → Trace) : (s.updTrace f).maps = s.maps := rfl
@[simp] theorem State.updTrace_outlets (f : Trace → Trace) : (s.updTrace f).outlets = s.outlets := rfl
@[simp] theorem State.updTrace_ddrs (f : Trace → Trace) : (s.updTrace f).ddrs = s.ddrs := rfl
@[simp] theorem State.updTrace_ddr (f : Trace → Trace) : (s.updTrace f).ddr = s.ddr := rfl
@[simp] theorem State.updTrace_ddrPoison (f : Trace → Trace) : (s.updTrace f).ddrPoison = s.ddrPoison := rfl
@[simp] theorem State.updTrace_ddrUpset (f : Trace → Trace) : (s.updTrace f).ddrUpset = s.ddrUpset := rfl
@[simp] theorem State.updTrace_shelf (f : Trace → Trace) : (s.updTrace f).shelf = s.shelf := rfl
@[simp] theorem State.updTrace_shelfBad (f : Trace → Trace) : (s.updTrace f).shelfBad = s.shelfBad := rfl
@[simp] theorem State.updTrace_shelfQ (f : Trace → Trace) : (s.updTrace f).shelfQ = s.shelfQ := rfl
@[simp] theorem State.updTrace_shelfAtomics (f : Trace → Trace) : (s.updTrace f).shelfAtomics = s.shelfAtomics := rfl
@[simp] theorem State.updTrace_istr (f : Trace → Trace) : (s.updTrace f).istr = s.istr := rfl
@[simp] theorem State.updTrace_shareWritten (f : Trace → Trace) : (s.updTrace f).shareWritten = s.shareWritten := rfl
@[simp] theorem State.updTrace_budgetRefused (f : Trace → Trace) : (s.updTrace f).budgetRefused = s.budgetRefused := rfl
@[simp] theorem State.updTrace_pegs (f : Trace → Trace) : (s.updTrace f).pegs = s.pegs := rfl
@[simp] theorem State.updTrace_st (f : Trace → Trace) : (s.updTrace f).st = s.st := rfl
@[simp] theorem State.updTrace_mbs (f : Trace → Trace) : (s.updTrace f).mbs = s.mbs := rfl
@[simp] theorem State.updTrace_host (f : Trace → Trace) : (s.updTrace f).host = s.host := rfl
@[simp] theorem State.updTrace_i3c (f : Trace → Trace) : (s.updTrace f).i3c = s.i3c := rfl
@[simp] theorem State.updTrace_arb (f : Trace → Trace) : (s.updTrace f).arb = s.arb := rfl
@[simp] theorem State.updTrace_pair (f : Trace → Trace) : (s.updTrace f).pair = s.pair := rfl
@[simp] theorem State.updTrace_pwr (f : Trace → Trace) : (s.updTrace f).pwr = s.pwr := rfl
@[simp] theorem State.updTrace_sn (f : Trace → Trace) : (s.updTrace f).sn = s.sn := rfl
@[simp] theorem State.updTrace_boot (f : Trace → Trace) : (s.updTrace f).boot = s.boot := rfl
@[simp] theorem State.updTrace_sec (f : Trace → Trace) : (s.updTrace f).sec = s.sec := rfl
@[simp] theorem State.updTrace_rcd (f : Trace → Trace) : (s.updTrace f).rcd = s.rcd := rfl
@[simp] theorem State.updTrace_led (f : Trace → Trace) : (s.updTrace f).led = s.led := rfl
@[simp] theorem State.updTrace_pat (f : Trace → Trace) : (s.updTrace f).pat = s.pat := rfl
@[simp] theorem State.updTrace_regs (f : Trace → Trace) : (s.updTrace f).regs = s.regs := rfl
@[simp] theorem State.updTrace_fc (f : Trace → Trace) : (s.updTrace f).fc = s.fc := rfl
@[simp] theorem State.updTrace_freeCnt (f : Trace → Trace) : (s.updTrace f).freeCnt = s.freeCnt := rfl
@[simp] theorem State.updTrace_pending (f : Trace → Trace) : (s.updTrace f).pending = s.pending := rfl

/-! #### State.updCab -/

@[simp] theorem State.updCab_time (f : Cabinet → Cabinet) : (s.updCab f).time = s.time := rfl
@[simp] theorem State.updCab_otp (f : Cabinet → Cabinet) : (s.updCab f).otp = s.otp := rfl
@[simp] theorem State.updCab_pes (f : Cabinet → Cabinet) : (s.updCab f).pes = s.pes := rfl
@[simp] theorem State.updCab_cab (f : Cabinet → Cabinet) : (s.updCab f).cab = f s.cab := rfl
@[simp] theorem State.updCab_trace (f : Cabinet → Cabinet) : (s.updCab f).trace = s.trace := rfl
@[simp] theorem State.updCab_tally (f : Cabinet → Cabinet) : (s.updCab f).tally = s.tally := rfl
@[simp] theorem State.updCab_cm (f : Cabinet → Cabinet) : (s.updCab f).cm = s.cm := rfl
@[simp] theorem State.updCab_net (f : Cabinet → Cabinet) : (s.updCab f).net = s.net := rfl
@[simp] theorem State.updCab_sites (f : Cabinet → Cabinet) : (s.updCab f).sites = s.sites := rfl
@[simp] theorem State.updCab_lanes (f : Cabinet → Cabinet) : (s.updCab f).lanes = s.lanes := rfl
@[simp] theorem State.updCab_cus (f : Cabinet → Cabinet) : (s.updCab f).cus = s.cus := rfl
@[simp] theorem State.updCab_lgs (f : Cabinet → Cabinet) : (s.updCab f).lgs = s.lgs := rfl
@[simp] theorem State.updCab_cohorts (f : Cabinet → Cabinet) : (s.updCab f).cohorts = s.cohorts := rfl
@[simp] theorem State.updCab_cohIdx (f : Cabinet → Cabinet) : (s.updCab f).cohIdx = s.cohIdx := rfl
@[simp] theorem State.updCab_readers (f : Cabinet → Cabinet) : (s.updCab f).readers = s.readers := rfl
@[simp] theorem State.updCab_maps (f : Cabinet → Cabinet) : (s.updCab f).maps = s.maps := rfl
@[simp] theorem State.updCab_outlets (f : Cabinet → Cabinet) : (s.updCab f).outlets = s.outlets := rfl
@[simp] theorem State.updCab_ddrs (f : Cabinet → Cabinet) : (s.updCab f).ddrs = s.ddrs := rfl
@[simp] theorem State.updCab_ddr (f : Cabinet → Cabinet) : (s.updCab f).ddr = s.ddr := rfl
@[simp] theorem State.updCab_ddrPoison (f : Cabinet → Cabinet) : (s.updCab f).ddrPoison = s.ddrPoison := rfl
@[simp] theorem State.updCab_ddrUpset (f : Cabinet → Cabinet) : (s.updCab f).ddrUpset = s.ddrUpset := rfl
@[simp] theorem State.updCab_shelf (f : Cabinet → Cabinet) : (s.updCab f).shelf = s.shelf := rfl
@[simp] theorem State.updCab_shelfBad (f : Cabinet → Cabinet) : (s.updCab f).shelfBad = s.shelfBad := rfl
@[simp] theorem State.updCab_shelfQ (f : Cabinet → Cabinet) : (s.updCab f).shelfQ = s.shelfQ := rfl
@[simp] theorem State.updCab_shelfAtomics (f : Cabinet → Cabinet) : (s.updCab f).shelfAtomics = s.shelfAtomics := rfl
@[simp] theorem State.updCab_istr (f : Cabinet → Cabinet) : (s.updCab f).istr = s.istr := rfl
@[simp] theorem State.updCab_shareWritten (f : Cabinet → Cabinet) : (s.updCab f).shareWritten = s.shareWritten := rfl
@[simp] theorem State.updCab_budgetRefused (f : Cabinet → Cabinet) : (s.updCab f).budgetRefused = s.budgetRefused := rfl
@[simp] theorem State.updCab_pegs (f : Cabinet → Cabinet) : (s.updCab f).pegs = s.pegs := rfl
@[simp] theorem State.updCab_st (f : Cabinet → Cabinet) : (s.updCab f).st = s.st := rfl
@[simp] theorem State.updCab_mbs (f : Cabinet → Cabinet) : (s.updCab f).mbs = s.mbs := rfl
@[simp] theorem State.updCab_host (f : Cabinet → Cabinet) : (s.updCab f).host = s.host := rfl
@[simp] theorem State.updCab_i3c (f : Cabinet → Cabinet) : (s.updCab f).i3c = s.i3c := rfl
@[simp] theorem State.updCab_arb (f : Cabinet → Cabinet) : (s.updCab f).arb = s.arb := rfl
@[simp] theorem State.updCab_pair (f : Cabinet → Cabinet) : (s.updCab f).pair = s.pair := rfl
@[simp] theorem State.updCab_pwr (f : Cabinet → Cabinet) : (s.updCab f).pwr = s.pwr := rfl
@[simp] theorem State.updCab_sn (f : Cabinet → Cabinet) : (s.updCab f).sn = s.sn := rfl
@[simp] theorem State.updCab_boot (f : Cabinet → Cabinet) : (s.updCab f).boot = s.boot := rfl
@[simp] theorem State.updCab_sec (f : Cabinet → Cabinet) : (s.updCab f).sec = s.sec := rfl
@[simp] theorem State.updCab_rcd (f : Cabinet → Cabinet) : (s.updCab f).rcd = s.rcd := rfl
@[simp] theorem State.updCab_led (f : Cabinet → Cabinet) : (s.updCab f).led = s.led := rfl
@[simp] theorem State.updCab_pat (f : Cabinet → Cabinet) : (s.updCab f).pat = s.pat := rfl
@[simp] theorem State.updCab_regs (f : Cabinet → Cabinet) : (s.updCab f).regs = s.regs := rfl
@[simp] theorem State.updCab_fc (f : Cabinet → Cabinet) : (s.updCab f).fc = s.fc := rfl
@[simp] theorem State.updCab_freeCnt (f : Cabinet → Cabinet) : (s.updCab f).freeCnt = s.freeCnt := rfl
@[simp] theorem State.updCab_pending (f : Cabinet → Cabinet) : (s.updCab f).pending = s.pending := rfl

/-! #### State.updCl -/

@[simp] theorem State.updCl_time (f : Cluster → Cluster) : (s.updCl f).time = s.time := rfl
@[simp] theorem State.updCl_otp (f : Cluster → Cluster) : (s.updCl f).otp = s.otp := rfl
@[simp] theorem State.updCl_pes (f : Cluster → Cluster) : (s.updCl f).pes = s.pes := rfl
@[simp] theorem State.updCl_cab (f : Cluster → Cluster) : (s.updCl f).cab = s.cab := rfl
@[simp] theorem State.updCl_trace (f : Cluster → Cluster) : (s.updCl f).trace = s.trace := rfl
@[simp] theorem State.updCl_tally (f : Cluster → Cluster) : (s.updCl f).tally = s.tally := rfl
@[simp] theorem State.updCl_cm (f : Cluster → Cluster) : (s.updCl f).cm = s.cm := rfl
@[simp] theorem State.updCl_net (f : Cluster → Cluster) : (s.updCl f).net = s.net := rfl
@[simp] theorem State.updCl_sites (f : Cluster → Cluster) : (s.updCl f).sites = s.sites := rfl
@[simp] theorem State.updCl_lanes (f : Cluster → Cluster) : (s.updCl f).lanes = s.lanes := rfl
@[simp] theorem State.updCl_cus (f : Cluster → Cluster) : (s.updCl f).cus = s.cus := rfl
@[simp] theorem State.updCl_lgs (f : Cluster → Cluster) : (s.updCl f).lgs = s.lgs := rfl
@[simp] theorem State.updCl_cohorts (f : Cluster → Cluster) : (s.updCl f).cohorts = s.cohorts := rfl
@[simp] theorem State.updCl_cohIdx (f : Cluster → Cluster) : (s.updCl f).cohIdx = s.cohIdx := rfl
@[simp] theorem State.updCl_readers (f : Cluster → Cluster) : (s.updCl f).readers = s.readers := rfl
@[simp] theorem State.updCl_maps (f : Cluster → Cluster) : (s.updCl f).maps = s.maps := rfl
@[simp] theorem State.updCl_outlets (f : Cluster → Cluster) : (s.updCl f).outlets = s.outlets := rfl
@[simp] theorem State.updCl_ddrs (f : Cluster → Cluster) : (s.updCl f).ddrs = s.ddrs := rfl
@[simp] theorem State.updCl_ddr (f : Cluster → Cluster) : (s.updCl f).ddr = s.ddr := rfl
@[simp] theorem State.updCl_ddrPoison (f : Cluster → Cluster) : (s.updCl f).ddrPoison = s.ddrPoison := rfl
@[simp] theorem State.updCl_ddrUpset (f : Cluster → Cluster) : (s.updCl f).ddrUpset = s.ddrUpset := rfl
@[simp] theorem State.updCl_shelf (f : Cluster → Cluster) : (s.updCl f).shelf = s.shelf := rfl
@[simp] theorem State.updCl_shelfBad (f : Cluster → Cluster) : (s.updCl f).shelfBad = s.shelfBad := rfl
@[simp] theorem State.updCl_shelfQ (f : Cluster → Cluster) : (s.updCl f).shelfQ = s.shelfQ := rfl
@[simp] theorem State.updCl_shelfAtomics (f : Cluster → Cluster) : (s.updCl f).shelfAtomics = s.shelfAtomics := rfl
@[simp] theorem State.updCl_istr (f : Cluster → Cluster) : (s.updCl f).istr = s.istr := rfl
@[simp] theorem State.updCl_shareWritten (f : Cluster → Cluster) : (s.updCl f).shareWritten = s.shareWritten := rfl
@[simp] theorem State.updCl_budgetRefused (f : Cluster → Cluster) : (s.updCl f).budgetRefused = s.budgetRefused := rfl
@[simp] theorem State.updCl_pegs (f : Cluster → Cluster) : (s.updCl f).pegs = s.pegs := rfl
@[simp] theorem State.updCl_st (f : Cluster → Cluster) : (s.updCl f).st = f s.st := rfl
@[simp] theorem State.updCl_mbs (f : Cluster → Cluster) : (s.updCl f).mbs = s.mbs := rfl
@[simp] theorem State.updCl_host (f : Cluster → Cluster) : (s.updCl f).host = s.host := rfl
@[simp] theorem State.updCl_i3c (f : Cluster → Cluster) : (s.updCl f).i3c = s.i3c := rfl
@[simp] theorem State.updCl_arb (f : Cluster → Cluster) : (s.updCl f).arb = s.arb := rfl
@[simp] theorem State.updCl_pair (f : Cluster → Cluster) : (s.updCl f).pair = s.pair := rfl
@[simp] theorem State.updCl_pwr (f : Cluster → Cluster) : (s.updCl f).pwr = s.pwr := rfl
@[simp] theorem State.updCl_sn (f : Cluster → Cluster) : (s.updCl f).sn = s.sn := rfl
@[simp] theorem State.updCl_boot (f : Cluster → Cluster) : (s.updCl f).boot = s.boot := rfl
@[simp] theorem State.updCl_sec (f : Cluster → Cluster) : (s.updCl f).sec = s.sec := rfl
@[simp] theorem State.updCl_rcd (f : Cluster → Cluster) : (s.updCl f).rcd = s.rcd := rfl
@[simp] theorem State.updCl_led (f : Cluster → Cluster) : (s.updCl f).led = s.led := rfl
@[simp] theorem State.updCl_pat (f : Cluster → Cluster) : (s.updCl f).pat = s.pat := rfl
@[simp] theorem State.updCl_regs (f : Cluster → Cluster) : (s.updCl f).regs = s.regs := rfl
@[simp] theorem State.updCl_fc (f : Cluster → Cluster) : (s.updCl f).fc = s.fc := rfl
@[simp] theorem State.updCl_freeCnt (f : Cluster → Cluster) : (s.updCl f).freeCnt = s.freeCnt := rfl
@[simp] theorem State.updCl_pending (f : Cluster → Cluster) : (s.updCl f).pending = s.pending := rfl

/-! #### State.updI3c -/

@[simp] theorem State.updI3c_time (f : I3c → I3c) : (s.updI3c f).time = s.time := rfl
@[simp] theorem State.updI3c_otp (f : I3c → I3c) : (s.updI3c f).otp = s.otp := rfl
@[simp] theorem State.updI3c_pes (f : I3c → I3c) : (s.updI3c f).pes = s.pes := rfl
@[simp] theorem State.updI3c_cab (f : I3c → I3c) : (s.updI3c f).cab = s.cab := rfl
@[simp] theorem State.updI3c_trace (f : I3c → I3c) : (s.updI3c f).trace = s.trace := rfl
@[simp] theorem State.updI3c_tally (f : I3c → I3c) : (s.updI3c f).tally = s.tally := rfl
@[simp] theorem State.updI3c_cm (f : I3c → I3c) : (s.updI3c f).cm = s.cm := rfl
@[simp] theorem State.updI3c_net (f : I3c → I3c) : (s.updI3c f).net = s.net := rfl
@[simp] theorem State.updI3c_sites (f : I3c → I3c) : (s.updI3c f).sites = s.sites := rfl
@[simp] theorem State.updI3c_lanes (f : I3c → I3c) : (s.updI3c f).lanes = s.lanes := rfl
@[simp] theorem State.updI3c_cus (f : I3c → I3c) : (s.updI3c f).cus = s.cus := rfl
@[simp] theorem State.updI3c_lgs (f : I3c → I3c) : (s.updI3c f).lgs = s.lgs := rfl
@[simp] theorem State.updI3c_cohorts (f : I3c → I3c) : (s.updI3c f).cohorts = s.cohorts := rfl
@[simp] theorem State.updI3c_cohIdx (f : I3c → I3c) : (s.updI3c f).cohIdx = s.cohIdx := rfl
@[simp] theorem State.updI3c_readers (f : I3c → I3c) : (s.updI3c f).readers = s.readers := rfl
@[simp] theorem State.updI3c_maps (f : I3c → I3c) : (s.updI3c f).maps = s.maps := rfl
@[simp] theorem State.updI3c_outlets (f : I3c → I3c) : (s.updI3c f).outlets = s.outlets := rfl
@[simp] theorem State.updI3c_ddrs (f : I3c → I3c) : (s.updI3c f).ddrs = s.ddrs := rfl
@[simp] theorem State.updI3c_ddr (f : I3c → I3c) : (s.updI3c f).ddr = s.ddr := rfl
@[simp] theorem State.updI3c_ddrPoison (f : I3c → I3c) : (s.updI3c f).ddrPoison = s.ddrPoison := rfl
@[simp] theorem State.updI3c_ddrUpset (f : I3c → I3c) : (s.updI3c f).ddrUpset = s.ddrUpset := rfl
@[simp] theorem State.updI3c_shelf (f : I3c → I3c) : (s.updI3c f).shelf = s.shelf := rfl
@[simp] theorem State.updI3c_shelfBad (f : I3c → I3c) : (s.updI3c f).shelfBad = s.shelfBad := rfl
@[simp] theorem State.updI3c_shelfQ (f : I3c → I3c) : (s.updI3c f).shelfQ = s.shelfQ := rfl
@[simp] theorem State.updI3c_shelfAtomics (f : I3c → I3c) : (s.updI3c f).shelfAtomics = s.shelfAtomics := rfl
@[simp] theorem State.updI3c_istr (f : I3c → I3c) : (s.updI3c f).istr = s.istr := rfl
@[simp] theorem State.updI3c_shareWritten (f : I3c → I3c) : (s.updI3c f).shareWritten = s.shareWritten := rfl
@[simp] theorem State.updI3c_budgetRefused (f : I3c → I3c) : (s.updI3c f).budgetRefused = s.budgetRefused := rfl
@[simp] theorem State.updI3c_pegs (f : I3c → I3c) : (s.updI3c f).pegs = s.pegs := rfl
@[simp] theorem State.updI3c_st (f : I3c → I3c) : (s.updI3c f).st = s.st := rfl
@[simp] theorem State.updI3c_mbs (f : I3c → I3c) : (s.updI3c f).mbs = s.mbs := rfl
@[simp] theorem State.updI3c_host (f : I3c → I3c) : (s.updI3c f).host = s.host := rfl
@[simp] theorem State.updI3c_i3c (f : I3c → I3c) : (s.updI3c f).i3c = f s.i3c := rfl
@[simp] theorem State.updI3c_arb (f : I3c → I3c) : (s.updI3c f).arb = s.arb := rfl
@[simp] theorem State.updI3c_pair (f : I3c → I3c) : (s.updI3c f).pair = s.pair := rfl
@[simp] theorem State.updI3c_pwr (f : I3c → I3c) : (s.updI3c f).pwr = s.pwr := rfl
@[simp] theorem State.updI3c_sn (f : I3c → I3c) : (s.updI3c f).sn = s.sn := rfl
@[simp] theorem State.updI3c_boot (f : I3c → I3c) : (s.updI3c f).boot = s.boot := rfl
@[simp] theorem State.updI3c_sec (f : I3c → I3c) : (s.updI3c f).sec = s.sec := rfl
@[simp] theorem State.updI3c_rcd (f : I3c → I3c) : (s.updI3c f).rcd = s.rcd := rfl
@[simp] theorem State.updI3c_led (f : I3c → I3c) : (s.updI3c f).led = s.led := rfl
@[simp] theorem State.updI3c_pat (f : I3c → I3c) : (s.updI3c f).pat = s.pat := rfl
@[simp] theorem State.updI3c_regs (f : I3c → I3c) : (s.updI3c f).regs = s.regs := rfl
@[simp] theorem State.updI3c_fc (f : I3c → I3c) : (s.updI3c f).fc = s.fc := rfl
@[simp] theorem State.updI3c_freeCnt (f : I3c → I3c) : (s.updI3c f).freeCnt = s.freeCnt := rfl
@[simp] theorem State.updI3c_pending (f : I3c → I3c) : (s.updI3c f).pending = s.pending := rfl

/-! #### State.updPe -/

@[simp] theorem State.updPe_time (k : Nat) (f : Pe → Pe) : (s.updPe k f).time = s.time := rfl
@[simp] theorem State.updPe_otp (k : Nat) (f : Pe → Pe) : (s.updPe k f).otp = s.otp := rfl
@[simp] theorem State.updPe_pes (k : Nat) (f : Pe → Pe) : (s.updPe k f).pes = Tbl.upd {} s.pes k f := rfl
@[simp] theorem State.updPe_cab (k : Nat) (f : Pe → Pe) : (s.updPe k f).cab = s.cab := rfl
@[simp] theorem State.updPe_trace (k : Nat) (f : Pe → Pe) : (s.updPe k f).trace = s.trace := rfl
@[simp] theorem State.updPe_tally (k : Nat) (f : Pe → Pe) : (s.updPe k f).tally = s.tally := rfl
@[simp] theorem State.updPe_cm (k : Nat) (f : Pe → Pe) : (s.updPe k f).cm = s.cm := rfl
@[simp] theorem State.updPe_net (k : Nat) (f : Pe → Pe) : (s.updPe k f).net = s.net := rfl
@[simp] theorem State.updPe_sites (k : Nat) (f : Pe → Pe) : (s.updPe k f).sites = s.sites := rfl
@[simp] theorem State.updPe_lanes (k : Nat) (f : Pe → Pe) : (s.updPe k f).lanes = s.lanes := rfl
@[simp] theorem State.updPe_cus (k : Nat) (f : Pe → Pe) : (s.updPe k f).cus = s.cus := rfl
@[simp] theorem State.updPe_lgs (k : Nat) (f : Pe → Pe) : (s.updPe k f).lgs = s.lgs := rfl
@[simp] theorem State.updPe_cohorts (k : Nat) (f : Pe → Pe) : (s.updPe k f).cohorts = s.cohorts := rfl
@[simp] theorem State.updPe_cohIdx (k : Nat) (f : Pe → Pe) : (s.updPe k f).cohIdx = s.cohIdx := rfl
@[simp] theorem State.updPe_readers (k : Nat) (f : Pe → Pe) : (s.updPe k f).readers = s.readers := rfl
@[simp] theorem State.updPe_maps (k : Nat) (f : Pe → Pe) : (s.updPe k f).maps = s.maps := rfl
@[simp] theorem State.updPe_outlets (k : Nat) (f : Pe → Pe) : (s.updPe k f).outlets = s.outlets := rfl
@[simp] theorem State.updPe_ddrs (k : Nat) (f : Pe → Pe) : (s.updPe k f).ddrs = s.ddrs := rfl
@[simp] theorem State.updPe_ddr (k : Nat) (f : Pe → Pe) : (s.updPe k f).ddr = s.ddr := rfl
@[simp] theorem State.updPe_ddrPoison (k : Nat) (f : Pe → Pe) : (s.updPe k f).ddrPoison = s.ddrPoison := rfl
@[simp] theorem State.updPe_ddrUpset (k : Nat) (f : Pe → Pe) : (s.updPe k f).ddrUpset = s.ddrUpset := rfl
@[simp] theorem State.updPe_shelf (k : Nat) (f : Pe → Pe) : (s.updPe k f).shelf = s.shelf := rfl
@[simp] theorem State.updPe_shelfBad (k : Nat) (f : Pe → Pe) : (s.updPe k f).shelfBad = s.shelfBad := rfl
@[simp] theorem State.updPe_shelfQ (k : Nat) (f : Pe → Pe) : (s.updPe k f).shelfQ = s.shelfQ := rfl
@[simp] theorem State.updPe_shelfAtomics (k : Nat) (f : Pe → Pe) : (s.updPe k f).shelfAtomics = s.shelfAtomics := rfl
@[simp] theorem State.updPe_istr (k : Nat) (f : Pe → Pe) : (s.updPe k f).istr = s.istr := rfl
@[simp] theorem State.updPe_shareWritten (k : Nat) (f : Pe → Pe) : (s.updPe k f).shareWritten = s.shareWritten := rfl
@[simp] theorem State.updPe_budgetRefused (k : Nat) (f : Pe → Pe) : (s.updPe k f).budgetRefused = s.budgetRefused := rfl
@[simp] theorem State.updPe_pegs (k : Nat) (f : Pe → Pe) : (s.updPe k f).pegs = s.pegs := rfl
@[simp] theorem State.updPe_st (k : Nat) (f : Pe → Pe) : (s.updPe k f).st = s.st := rfl
@[simp] theorem State.updPe_mbs (k : Nat) (f : Pe → Pe) : (s.updPe k f).mbs = s.mbs := rfl
@[simp] theorem State.updPe_host (k : Nat) (f : Pe → Pe) : (s.updPe k f).host = s.host := rfl
@[simp] theorem State.updPe_i3c (k : Nat) (f : Pe → Pe) : (s.updPe k f).i3c = s.i3c := rfl
@[simp] theorem State.updPe_arb (k : Nat) (f : Pe → Pe) : (s.updPe k f).arb = s.arb := rfl
@[simp] theorem State.updPe_pair (k : Nat) (f : Pe → Pe) : (s.updPe k f).pair = s.pair := rfl
@[simp] theorem State.updPe_pwr (k : Nat) (f : Pe → Pe) : (s.updPe k f).pwr = s.pwr := rfl
@[simp] theorem State.updPe_sn (k : Nat) (f : Pe → Pe) : (s.updPe k f).sn = s.sn := rfl
@[simp] theorem State.updPe_boot (k : Nat) (f : Pe → Pe) : (s.updPe k f).boot = s.boot := rfl
@[simp] theorem State.updPe_sec (k : Nat) (f : Pe → Pe) : (s.updPe k f).sec = s.sec := rfl
@[simp] theorem State.updPe_rcd (k : Nat) (f : Pe → Pe) : (s.updPe k f).rcd = s.rcd := rfl
@[simp] theorem State.updPe_led (k : Nat) (f : Pe → Pe) : (s.updPe k f).led = s.led := rfl
@[simp] theorem State.updPe_pat (k : Nat) (f : Pe → Pe) : (s.updPe k f).pat = s.pat := rfl
@[simp] theorem State.updPe_regs (k : Nat) (f : Pe → Pe) : (s.updPe k f).regs = s.regs := rfl
@[simp] theorem State.updPe_fc (k : Nat) (f : Pe → Pe) : (s.updPe k f).fc = s.fc := rfl
@[simp] theorem State.updPe_freeCnt (k : Nat) (f : Pe → Pe) : (s.updPe k f).freeCnt = s.freeCnt := rfl
@[simp] theorem State.updPe_pending (k : Nat) (f : Pe → Pe) : (s.updPe k f).pending = s.pending := rfl
@[simp] theorem State.updPe_pe (k j : Nat) (f : Pe → Pe) :
    (s.updPe k f).pe j = if j = k then f (s.pe k) else s.pe j := Tbl.get_upd ..

/-! #### State.updSite -/

@[simp] theorem State.updSite_time (k : Nat) (f : Site → Site) : (s.updSite k f).time = s.time := rfl
@[simp] theorem State.updSite_otp (k : Nat) (f : Site → Site) : (s.updSite k f).otp = s.otp := rfl
@[simp] theorem State.updSite_pes (k : Nat) (f : Site → Site) : (s.updSite k f).pes = s.pes := rfl
@[simp] theorem State.updSite_cab (k : Nat) (f : Site → Site) : (s.updSite k f).cab = s.cab := rfl
@[simp] theorem State.updSite_trace (k : Nat) (f : Site → Site) : (s.updSite k f).trace = s.trace := rfl
@[simp] theorem State.updSite_tally (k : Nat) (f : Site → Site) : (s.updSite k f).tally = s.tally := rfl
@[simp] theorem State.updSite_cm (k : Nat) (f : Site → Site) : (s.updSite k f).cm = s.cm := rfl
@[simp] theorem State.updSite_net (k : Nat) (f : Site → Site) : (s.updSite k f).net = s.net := rfl
@[simp] theorem State.updSite_sites (k : Nat) (f : Site → Site) : (s.updSite k f).sites = Tbl.upd {} s.sites k f := rfl
@[simp] theorem State.updSite_lanes (k : Nat) (f : Site → Site) : (s.updSite k f).lanes = s.lanes := rfl
@[simp] theorem State.updSite_cus (k : Nat) (f : Site → Site) : (s.updSite k f).cus = s.cus := rfl
@[simp] theorem State.updSite_lgs (k : Nat) (f : Site → Site) : (s.updSite k f).lgs = s.lgs := rfl
@[simp] theorem State.updSite_cohorts (k : Nat) (f : Site → Site) : (s.updSite k f).cohorts = s.cohorts := rfl
@[simp] theorem State.updSite_cohIdx (k : Nat) (f : Site → Site) : (s.updSite k f).cohIdx = s.cohIdx := rfl
@[simp] theorem State.updSite_readers (k : Nat) (f : Site → Site) : (s.updSite k f).readers = s.readers := rfl
@[simp] theorem State.updSite_maps (k : Nat) (f : Site → Site) : (s.updSite k f).maps = s.maps := rfl
@[simp] theorem State.updSite_outlets (k : Nat) (f : Site → Site) : (s.updSite k f).outlets = s.outlets := rfl
@[simp] theorem State.updSite_ddrs (k : Nat) (f : Site → Site) : (s.updSite k f).ddrs = s.ddrs := rfl
@[simp] theorem State.updSite_ddr (k : Nat) (f : Site → Site) : (s.updSite k f).ddr = s.ddr := rfl
@[simp] theorem State.updSite_ddrPoison (k : Nat) (f : Site → Site) : (s.updSite k f).ddrPoison = s.ddrPoison := rfl
@[simp] theorem State.updSite_ddrUpset (k : Nat) (f : Site → Site) : (s.updSite k f).ddrUpset = s.ddrUpset := rfl
@[simp] theorem State.updSite_shelf (k : Nat) (f : Site → Site) : (s.updSite k f).shelf = s.shelf := rfl
@[simp] theorem State.updSite_shelfBad (k : Nat) (f : Site → Site) : (s.updSite k f).shelfBad = s.shelfBad := rfl
@[simp] theorem State.updSite_shelfQ (k : Nat) (f : Site → Site) : (s.updSite k f).shelfQ = s.shelfQ := rfl
@[simp] theorem State.updSite_shelfAtomics (k : Nat) (f : Site → Site) : (s.updSite k f).shelfAtomics = s.shelfAtomics := rfl
@[simp] theorem State.updSite_istr (k : Nat) (f : Site → Site) : (s.updSite k f).istr = s.istr := rfl
@[simp] theorem State.updSite_shareWritten (k : Nat) (f : Site → Site) : (s.updSite k f).shareWritten = s.shareWritten := rfl
@[simp] theorem State.updSite_budgetRefused (k : Nat) (f : Site → Site) : (s.updSite k f).budgetRefused = s.budgetRefused := rfl
@[simp] theorem State.updSite_pegs (k : Nat) (f : Site → Site) : (s.updSite k f).pegs = s.pegs := rfl
@[simp] theorem State.updSite_st (k : Nat) (f : Site → Site) : (s.updSite k f).st = s.st := rfl
@[simp] theorem State.updSite_mbs (k : Nat) (f : Site → Site) : (s.updSite k f).mbs = s.mbs := rfl
@[simp] theorem State.updSite_host (k : Nat) (f : Site → Site) : (s.updSite k f).host = s.host := rfl
@[simp] theorem State.updSite_i3c (k : Nat) (f : Site → Site) : (s.updSite k f).i3c = s.i3c := rfl
@[simp] theorem State.updSite_arb (k : Nat) (f : Site → Site) : (s.updSite k f).arb = s.arb := rfl
@[simp] theorem State.updSite_pair (k : Nat) (f : Site → Site) : (s.updSite k f).pair = s.pair := rfl
@[simp] theorem State.updSite_pwr (k : Nat) (f : Site → Site) : (s.updSite k f).pwr = s.pwr := rfl
@[simp] theorem State.updSite_sn (k : Nat) (f : Site → Site) : (s.updSite k f).sn = s.sn := rfl
@[simp] theorem State.updSite_boot (k : Nat) (f : Site → Site) : (s.updSite k f).boot = s.boot := rfl
@[simp] theorem State.updSite_sec (k : Nat) (f : Site → Site) : (s.updSite k f).sec = s.sec := rfl
@[simp] theorem State.updSite_rcd (k : Nat) (f : Site → Site) : (s.updSite k f).rcd = s.rcd := rfl
@[simp] theorem State.updSite_led (k : Nat) (f : Site → Site) : (s.updSite k f).led = s.led := rfl
@[simp] theorem State.updSite_pat (k : Nat) (f : Site → Site) : (s.updSite k f).pat = s.pat := rfl
@[simp] theorem State.updSite_regs (k : Nat) (f : Site → Site) : (s.updSite k f).regs = s.regs := rfl
@[simp] theorem State.updSite_fc (k : Nat) (f : Site → Site) : (s.updSite k f).fc = s.fc := rfl
@[simp] theorem State.updSite_freeCnt (k : Nat) (f : Site → Site) : (s.updSite k f).freeCnt = s.freeCnt := rfl
@[simp] theorem State.updSite_pending (k : Nat) (f : Site → Site) : (s.updSite k f).pending = s.pending := rfl
@[simp] theorem State.updSite_site (k j : Nat) (f : Site → Site) :
    (s.updSite k f).site j = if j = k then f (s.site k) else s.site j := Tbl.get_upd ..

/-! #### State.updLane -/

@[simp] theorem State.updLane_time (k : Nat) (f : Lane → Lane) : (s.updLane k f).time = s.time := rfl
@[simp] theorem State.updLane_otp (k : Nat) (f : Lane → Lane) : (s.updLane k f).otp = s.otp := rfl
@[simp] theorem State.updLane_pes (k : Nat) (f : Lane → Lane) : (s.updLane k f).pes = s.pes := rfl
@[simp] theorem State.updLane_cab (k : Nat) (f : Lane → Lane) : (s.updLane k f).cab = s.cab := rfl
@[simp] theorem State.updLane_trace (k : Nat) (f : Lane → Lane) : (s.updLane k f).trace = s.trace := rfl
@[simp] theorem State.updLane_tally (k : Nat) (f : Lane → Lane) : (s.updLane k f).tally = s.tally := rfl
@[simp] theorem State.updLane_cm (k : Nat) (f : Lane → Lane) : (s.updLane k f).cm = s.cm := rfl
@[simp] theorem State.updLane_net (k : Nat) (f : Lane → Lane) : (s.updLane k f).net = s.net := rfl
@[simp] theorem State.updLane_sites (k : Nat) (f : Lane → Lane) : (s.updLane k f).sites = s.sites := rfl
@[simp] theorem State.updLane_lanes (k : Nat) (f : Lane → Lane) : (s.updLane k f).lanes = Tbl.upd {} s.lanes k f := rfl
@[simp] theorem State.updLane_cus (k : Nat) (f : Lane → Lane) : (s.updLane k f).cus = s.cus := rfl
@[simp] theorem State.updLane_lgs (k : Nat) (f : Lane → Lane) : (s.updLane k f).lgs = s.lgs := rfl
@[simp] theorem State.updLane_cohorts (k : Nat) (f : Lane → Lane) : (s.updLane k f).cohorts = s.cohorts := rfl
@[simp] theorem State.updLane_cohIdx (k : Nat) (f : Lane → Lane) : (s.updLane k f).cohIdx = s.cohIdx := rfl
@[simp] theorem State.updLane_readers (k : Nat) (f : Lane → Lane) : (s.updLane k f).readers = s.readers := rfl
@[simp] theorem State.updLane_maps (k : Nat) (f : Lane → Lane) : (s.updLane k f).maps = s.maps := rfl
@[simp] theorem State.updLane_outlets (k : Nat) (f : Lane → Lane) : (s.updLane k f).outlets = s.outlets := rfl
@[simp] theorem State.updLane_ddrs (k : Nat) (f : Lane → Lane) : (s.updLane k f).ddrs = s.ddrs := rfl
@[simp] theorem State.updLane_ddr (k : Nat) (f : Lane → Lane) : (s.updLane k f).ddr = s.ddr := rfl
@[simp] theorem State.updLane_ddrPoison (k : Nat) (f : Lane → Lane) : (s.updLane k f).ddrPoison = s.ddrPoison := rfl
@[simp] theorem State.updLane_ddrUpset (k : Nat) (f : Lane → Lane) : (s.updLane k f).ddrUpset = s.ddrUpset := rfl
@[simp] theorem State.updLane_shelf (k : Nat) (f : Lane → Lane) : (s.updLane k f).shelf = s.shelf := rfl
@[simp] theorem State.updLane_shelfBad (k : Nat) (f : Lane → Lane) : (s.updLane k f).shelfBad = s.shelfBad := rfl
@[simp] theorem State.updLane_shelfQ (k : Nat) (f : Lane → Lane) : (s.updLane k f).shelfQ = s.shelfQ := rfl
@[simp] theorem State.updLane_shelfAtomics (k : Nat) (f : Lane → Lane) : (s.updLane k f).shelfAtomics = s.shelfAtomics := rfl
@[simp] theorem State.updLane_istr (k : Nat) (f : Lane → Lane) : (s.updLane k f).istr = s.istr := rfl
@[simp] theorem State.updLane_shareWritten (k : Nat) (f : Lane → Lane) : (s.updLane k f).shareWritten = s.shareWritten := rfl
@[simp] theorem State.updLane_budgetRefused (k : Nat) (f : Lane → Lane) : (s.updLane k f).budgetRefused = s.budgetRefused := rfl
@[simp] theorem State.updLane_pegs (k : Nat) (f : Lane → Lane) : (s.updLane k f).pegs = s.pegs := rfl
@[simp] theorem State.updLane_st (k : Nat) (f : Lane → Lane) : (s.updLane k f).st = s.st := rfl
@[simp] theorem State.updLane_mbs (k : Nat) (f : Lane → Lane) : (s.updLane k f).mbs = s.mbs := rfl
@[simp] theorem State.updLane_host (k : Nat) (f : Lane → Lane) : (s.updLane k f).host = s.host := rfl
@[simp] theorem State.updLane_i3c (k : Nat) (f : Lane → Lane) : (s.updLane k f).i3c = s.i3c := rfl
@[simp] theorem State.updLane_arb (k : Nat) (f : Lane → Lane) : (s.updLane k f).arb = s.arb := rfl
@[simp] theorem State.updLane_pair (k : Nat) (f : Lane → Lane) : (s.updLane k f).pair = s.pair := rfl
@[simp] theorem State.updLane_pwr (k : Nat) (f : Lane → Lane) : (s.updLane k f).pwr = s.pwr := rfl
@[simp] theorem State.updLane_sn (k : Nat) (f : Lane → Lane) : (s.updLane k f).sn = s.sn := rfl
@[simp] theorem State.updLane_boot (k : Nat) (f : Lane → Lane) : (s.updLane k f).boot = s.boot := rfl
@[simp] theorem State.updLane_sec (k : Nat) (f : Lane → Lane) : (s.updLane k f).sec = s.sec := rfl
@[simp] theorem State.updLane_rcd (k : Nat) (f : Lane → Lane) : (s.updLane k f).rcd = s.rcd := rfl
@[simp] theorem State.updLane_led (k : Nat) (f : Lane → Lane) : (s.updLane k f).led = s.led := rfl
@[simp] theorem State.updLane_pat (k : Nat) (f : Lane → Lane) : (s.updLane k f).pat = s.pat := rfl
@[simp] theorem State.updLane_regs (k : Nat) (f : Lane → Lane) : (s.updLane k f).regs = s.regs := rfl
@[simp] theorem State.updLane_fc (k : Nat) (f : Lane → Lane) : (s.updLane k f).fc = s.fc := rfl
@[simp] theorem State.updLane_freeCnt (k : Nat) (f : Lane → Lane) : (s.updLane k f).freeCnt = s.freeCnt := rfl
@[simp] theorem State.updLane_pending (k : Nat) (f : Lane → Lane) : (s.updLane k f).pending = s.pending := rfl
@[simp] theorem State.updLane_lane (k j : Nat) (f : Lane → Lane) :
    (s.updLane k f).lane j = if j = k then f (s.lane k) else s.lane j := Tbl.get_upd ..

/-! #### State.updCu -/

@[simp] theorem State.updCu_time (k : Nat) (f : Cu → Cu) : (s.updCu k f).time = s.time := rfl
@[simp] theorem State.updCu_otp (k : Nat) (f : Cu → Cu) : (s.updCu k f).otp = s.otp := rfl
@[simp] theorem State.updCu_pes (k : Nat) (f : Cu → Cu) : (s.updCu k f).pes = s.pes := rfl
@[simp] theorem State.updCu_cab (k : Nat) (f : Cu → Cu) : (s.updCu k f).cab = s.cab := rfl
@[simp] theorem State.updCu_trace (k : Nat) (f : Cu → Cu) : (s.updCu k f).trace = s.trace := rfl
@[simp] theorem State.updCu_tally (k : Nat) (f : Cu → Cu) : (s.updCu k f).tally = s.tally := rfl
@[simp] theorem State.updCu_cm (k : Nat) (f : Cu → Cu) : (s.updCu k f).cm = s.cm := rfl
@[simp] theorem State.updCu_net (k : Nat) (f : Cu → Cu) : (s.updCu k f).net = s.net := rfl
@[simp] theorem State.updCu_sites (k : Nat) (f : Cu → Cu) : (s.updCu k f).sites = s.sites := rfl
@[simp] theorem State.updCu_lanes (k : Nat) (f : Cu → Cu) : (s.updCu k f).lanes = s.lanes := rfl
@[simp] theorem State.updCu_cus (k : Nat) (f : Cu → Cu) : (s.updCu k f).cus = Tbl.upd {} s.cus k f := rfl
@[simp] theorem State.updCu_lgs (k : Nat) (f : Cu → Cu) : (s.updCu k f).lgs = s.lgs := rfl
@[simp] theorem State.updCu_cohorts (k : Nat) (f : Cu → Cu) : (s.updCu k f).cohorts = s.cohorts := rfl
@[simp] theorem State.updCu_cohIdx (k : Nat) (f : Cu → Cu) : (s.updCu k f).cohIdx = s.cohIdx := rfl
@[simp] theorem State.updCu_readers (k : Nat) (f : Cu → Cu) : (s.updCu k f).readers = s.readers := rfl
@[simp] theorem State.updCu_maps (k : Nat) (f : Cu → Cu) : (s.updCu k f).maps = s.maps := rfl
@[simp] theorem State.updCu_outlets (k : Nat) (f : Cu → Cu) : (s.updCu k f).outlets = s.outlets := rfl
@[simp] theorem State.updCu_ddrs (k : Nat) (f : Cu → Cu) : (s.updCu k f).ddrs = s.ddrs := rfl
@[simp] theorem State.updCu_ddr (k : Nat) (f : Cu → Cu) : (s.updCu k f).ddr = s.ddr := rfl
@[simp] theorem State.updCu_ddrPoison (k : Nat) (f : Cu → Cu) : (s.updCu k f).ddrPoison = s.ddrPoison := rfl
@[simp] theorem State.updCu_ddrUpset (k : Nat) (f : Cu → Cu) : (s.updCu k f).ddrUpset = s.ddrUpset := rfl
@[simp] theorem State.updCu_shelf (k : Nat) (f : Cu → Cu) : (s.updCu k f).shelf = s.shelf := rfl
@[simp] theorem State.updCu_shelfBad (k : Nat) (f : Cu → Cu) : (s.updCu k f).shelfBad = s.shelfBad := rfl
@[simp] theorem State.updCu_shelfQ (k : Nat) (f : Cu → Cu) : (s.updCu k f).shelfQ = s.shelfQ := rfl
@[simp] theorem State.updCu_shelfAtomics (k : Nat) (f : Cu → Cu) : (s.updCu k f).shelfAtomics = s.shelfAtomics := rfl
@[simp] theorem State.updCu_istr (k : Nat) (f : Cu → Cu) : (s.updCu k f).istr = s.istr := rfl
@[simp] theorem State.updCu_shareWritten (k : Nat) (f : Cu → Cu) : (s.updCu k f).shareWritten = s.shareWritten := rfl
@[simp] theorem State.updCu_budgetRefused (k : Nat) (f : Cu → Cu) : (s.updCu k f).budgetRefused = s.budgetRefused := rfl
@[simp] theorem State.updCu_pegs (k : Nat) (f : Cu → Cu) : (s.updCu k f).pegs = s.pegs := rfl
@[simp] theorem State.updCu_st (k : Nat) (f : Cu → Cu) : (s.updCu k f).st = s.st := rfl
@[simp] theorem State.updCu_mbs (k : Nat) (f : Cu → Cu) : (s.updCu k f).mbs = s.mbs := rfl
@[simp] theorem State.updCu_host (k : Nat) (f : Cu → Cu) : (s.updCu k f).host = s.host := rfl
@[simp] theorem State.updCu_i3c (k : Nat) (f : Cu → Cu) : (s.updCu k f).i3c = s.i3c := rfl
@[simp] theorem State.updCu_arb (k : Nat) (f : Cu → Cu) : (s.updCu k f).arb = s.arb := rfl
@[simp] theorem State.updCu_pair (k : Nat) (f : Cu → Cu) : (s.updCu k f).pair = s.pair := rfl
@[simp] theorem State.updCu_pwr (k : Nat) (f : Cu → Cu) : (s.updCu k f).pwr = s.pwr := rfl
@[simp] theorem State.updCu_sn (k : Nat) (f : Cu → Cu) : (s.updCu k f).sn = s.sn := rfl
@[simp] theorem State.updCu_boot (k : Nat) (f : Cu → Cu) : (s.updCu k f).boot = s.boot := rfl
@[simp] theorem State.updCu_sec (k : Nat) (f : Cu → Cu) : (s.updCu k f).sec = s.sec := rfl
@[simp] theorem State.updCu_rcd (k : Nat) (f : Cu → Cu) : (s.updCu k f).rcd = s.rcd := rfl
@[simp] theorem State.updCu_led (k : Nat) (f : Cu → Cu) : (s.updCu k f).led = s.led := rfl
@[simp] theorem State.updCu_pat (k : Nat) (f : Cu → Cu) : (s.updCu k f).pat = s.pat := rfl
@[simp] theorem State.updCu_regs (k : Nat) (f : Cu → Cu) : (s.updCu k f).regs = s.regs := rfl
@[simp] theorem State.updCu_fc (k : Nat) (f : Cu → Cu) : (s.updCu k f).fc = s.fc := rfl
@[simp] theorem State.updCu_freeCnt (k : Nat) (f : Cu → Cu) : (s.updCu k f).freeCnt = s.freeCnt := rfl
@[simp] theorem State.updCu_pending (k : Nat) (f : Cu → Cu) : (s.updCu k f).pending = s.pending := rfl
@[simp] theorem State.updCu_cu (k j : Nat) (f : Cu → Cu) :
    (s.updCu k f).cu j = if j = k then f (s.cu k) else s.cu j := Tbl.get_upd ..

/-! #### State.updLg -/

@[simp] theorem State.updLg_time (k : Nat) (f : LaneGroup → LaneGroup) : (s.updLg k f).time = s.time := rfl
@[simp] theorem State.updLg_otp (k : Nat) (f : LaneGroup → LaneGroup) : (s.updLg k f).otp = s.otp := rfl
@[simp] theorem State.updLg_pes (k : Nat) (f : LaneGroup → LaneGroup) : (s.updLg k f).pes = s.pes := rfl
@[simp] theorem State.updLg_cab (k : Nat) (f : LaneGroup → LaneGroup) : (s.updLg k f).cab = s.cab := rfl
@[simp] theorem State.updLg_trace (k : Nat) (f : LaneGroup → LaneGroup) : (s.updLg k f).trace = s.trace := rfl
@[simp] theorem State.updLg_tally (k : Nat) (f : LaneGroup → LaneGroup) : (s.updLg k f).tally = s.tally := rfl
@[simp] theorem State.updLg_cm (k : Nat) (f : LaneGroup → LaneGroup) : (s.updLg k f).cm = s.cm := rfl
@[simp] theorem State.updLg_net (k : Nat) (f : LaneGroup → LaneGroup) : (s.updLg k f).net = s.net := rfl
@[simp] theorem State.updLg_sites (k : Nat) (f : LaneGroup → LaneGroup) : (s.updLg k f).sites = s.sites := rfl
@[simp] theorem State.updLg_lanes (k : Nat) (f : LaneGroup → LaneGroup) : (s.updLg k f).lanes = s.lanes := rfl
@[simp] theorem State.updLg_cus (k : Nat) (f : LaneGroup → LaneGroup) : (s.updLg k f).cus = s.cus := rfl
@[simp] theorem State.updLg_lgs (k : Nat) (f : LaneGroup → LaneGroup) : (s.updLg k f).lgs = Tbl.upd {} s.lgs k f := rfl
@[simp] theorem State.updLg_cohorts (k : Nat) (f : LaneGroup → LaneGroup) : (s.updLg k f).cohorts = s.cohorts := rfl
@[simp] theorem State.updLg_cohIdx (k : Nat) (f : LaneGroup → LaneGroup) : (s.updLg k f).cohIdx = s.cohIdx := rfl
@[simp] theorem State.updLg_readers (k : Nat) (f : LaneGroup → LaneGroup) : (s.updLg k f).readers = s.readers := rfl
@[simp] theorem State.updLg_maps (k : Nat) (f : LaneGroup → LaneGroup) : (s.updLg k f).maps = s.maps := rfl
@[simp] theorem State.updLg_outlets (k : Nat) (f : LaneGroup → LaneGroup) : (s.updLg k f).outlets = s.outlets := rfl
@[simp] theorem State.updLg_ddrs (k : Nat) (f : LaneGroup → LaneGroup) : (s.updLg k f).ddrs = s.ddrs := rfl
@[simp] theorem State.updLg_ddr (k : Nat) (f : LaneGroup → LaneGroup) : (s.updLg k f).ddr = s.ddr := rfl
@[simp] theorem State.updLg_ddrPoison (k : Nat) (f : LaneGroup → LaneGroup) : (s.updLg k f).ddrPoison = s.ddrPoison := rfl
@[simp] theorem State.updLg_ddrUpset (k : Nat) (f : LaneGroup → LaneGroup) : (s.updLg k f).ddrUpset = s.ddrUpset := rfl
@[simp] theorem State.updLg_shelf (k : Nat) (f : LaneGroup → LaneGroup) : (s.updLg k f).shelf = s.shelf := rfl
@[simp] theorem State.updLg_shelfBad (k : Nat) (f : LaneGroup → LaneGroup) : (s.updLg k f).shelfBad = s.shelfBad := rfl
@[simp] theorem State.updLg_shelfQ (k : Nat) (f : LaneGroup → LaneGroup) : (s.updLg k f).shelfQ = s.shelfQ := rfl
@[simp] theorem State.updLg_shelfAtomics (k : Nat) (f : LaneGroup → LaneGroup) : (s.updLg k f).shelfAtomics = s.shelfAtomics := rfl
@[simp] theorem State.updLg_istr (k : Nat) (f : LaneGroup → LaneGroup) : (s.updLg k f).istr = s.istr := rfl
@[simp] theorem State.updLg_shareWritten (k : Nat) (f : LaneGroup → LaneGroup) : (s.updLg k f).shareWritten = s.shareWritten := rfl
@[simp] theorem State.updLg_budgetRefused (k : Nat) (f : LaneGroup → LaneGroup) : (s.updLg k f).budgetRefused = s.budgetRefused := rfl
@[simp] theorem State.updLg_pegs (k : Nat) (f : LaneGroup → LaneGroup) : (s.updLg k f).pegs = s.pegs := rfl
@[simp] theorem State.updLg_st (k : Nat) (f : LaneGroup → LaneGroup) : (s.updLg k f).st = s.st := rfl
@[simp] theorem State.updLg_mbs (k : Nat) (f : LaneGroup → LaneGroup) : (s.updLg k f).mbs = s.mbs := rfl
@[simp] theorem State.updLg_host (k : Nat) (f : LaneGroup → LaneGroup) : (s.updLg k f).host = s.host := rfl
@[simp] theorem State.updLg_i3c (k : Nat) (f : LaneGroup → LaneGroup) : (s.updLg k f).i3c = s.i3c := rfl
@[simp] theorem State.updLg_arb (k : Nat) (f : LaneGroup → LaneGroup) : (s.updLg k f).arb = s.arb := rfl
@[simp] theorem State.updLg_pair (k : Nat) (f : LaneGroup → LaneGroup) : (s.updLg k f).pair = s.pair := rfl
@[simp] theorem State.updLg_pwr (k : Nat) (f : LaneGroup → LaneGroup) : (s.updLg k f).pwr = s.pwr := rfl
@[simp] theorem State.updLg_sn (k : Nat) (f : LaneGroup → LaneGroup) : (s.updLg k f).sn = s.sn := rfl
@[simp] theorem State.updLg_boot (k : Nat) (f : LaneGroup → LaneGroup) : (s.updLg k f).boot = s.boot := rfl
@[simp] theorem State.updLg_sec (k : Nat) (f : LaneGroup → LaneGroup) : (s.updLg k f).sec = s.sec := rfl
@[simp] theorem State.updLg_rcd (k : Nat) (f : LaneGroup → LaneGroup) : (s.updLg k f).rcd = s.rcd := rfl
@[simp] theorem State.updLg_led (k : Nat) (f : LaneGroup → LaneGroup) : (s.updLg k f).led = s.led := rfl
@[simp] theorem State.updLg_pat (k : Nat) (f : LaneGroup → LaneGroup) : (s.updLg k f).pat = s.pat := rfl
@[simp] theorem State.updLg_regs (k : Nat) (f : LaneGroup → LaneGroup) : (s.updLg k f).regs = s.regs := rfl
@[simp] theorem State.updLg_fc (k : Nat) (f : LaneGroup → LaneGroup) : (s.updLg k f).fc = s.fc := rfl
@[simp] theorem State.updLg_freeCnt (k : Nat) (f : LaneGroup → LaneGroup) : (s.updLg k f).freeCnt = s.freeCnt := rfl
@[simp] theorem State.updLg_pending (k : Nat) (f : LaneGroup → LaneGroup) : (s.updLg k f).pending = s.pending := rfl
@[simp] theorem State.updLg_lg (k j : Nat) (f : LaneGroup → LaneGroup) :
    (s.updLg k f).lg j = if j = k then f (s.lg k) else s.lg j := Tbl.get_upd ..

/-! #### State.updOutlet -/

@[simp] theorem State.updOutlet_time (k : Nat) (f : Outlet → Outlet) : (s.updOutlet k f).time = s.time := rfl
@[simp] theorem State.updOutlet_otp (k : Nat) (f : Outlet → Outlet) : (s.updOutlet k f).otp = s.otp := rfl
@[simp] theorem State.updOutlet_pes (k : Nat) (f : Outlet → Outlet) : (s.updOutlet k f).pes = s.pes := rfl
@[simp] theorem State.updOutlet_cab (k : Nat) (f : Outlet → Outlet) : (s.updOutlet k f).cab = s.cab := rfl
@[simp] theorem State.updOutlet_trace (k : Nat) (f : Outlet → Outlet) : (s.updOutlet k f).trace = s.trace := rfl
@[simp] theorem State.updOutlet_tally (k : Nat) (f : Outlet → Outlet) : (s.updOutlet k f).tally = s.tally := rfl
@[simp] theorem State.updOutlet_cm (k : Nat) (f : Outlet → Outlet) : (s.updOutlet k f).cm = s.cm := rfl
@[simp] theorem State.updOutlet_net (k : Nat) (f : Outlet → Outlet) : (s.updOutlet k f).net = s.net := rfl
@[simp] theorem State.updOutlet_sites (k : Nat) (f : Outlet → Outlet) : (s.updOutlet k f).sites = s.sites := rfl
@[simp] theorem State.updOutlet_lanes (k : Nat) (f : Outlet → Outlet) : (s.updOutlet k f).lanes = s.lanes := rfl
@[simp] theorem State.updOutlet_cus (k : Nat) (f : Outlet → Outlet) : (s.updOutlet k f).cus = s.cus := rfl
@[simp] theorem State.updOutlet_lgs (k : Nat) (f : Outlet → Outlet) : (s.updOutlet k f).lgs = s.lgs := rfl
@[simp] theorem State.updOutlet_cohorts (k : Nat) (f : Outlet → Outlet) : (s.updOutlet k f).cohorts = s.cohorts := rfl
@[simp] theorem State.updOutlet_cohIdx (k : Nat) (f : Outlet → Outlet) : (s.updOutlet k f).cohIdx = s.cohIdx := rfl
@[simp] theorem State.updOutlet_readers (k : Nat) (f : Outlet → Outlet) : (s.updOutlet k f).readers = s.readers := rfl
@[simp] theorem State.updOutlet_maps (k : Nat) (f : Outlet → Outlet) : (s.updOutlet k f).maps = s.maps := rfl
@[simp] theorem State.updOutlet_outlets (k : Nat) (f : Outlet → Outlet) : (s.updOutlet k f).outlets = Tbl.upd {} s.outlets k f := rfl
@[simp] theorem State.updOutlet_ddrs (k : Nat) (f : Outlet → Outlet) : (s.updOutlet k f).ddrs = s.ddrs := rfl
@[simp] theorem State.updOutlet_ddr (k : Nat) (f : Outlet → Outlet) : (s.updOutlet k f).ddr = s.ddr := rfl
@[simp] theorem State.updOutlet_ddrPoison (k : Nat) (f : Outlet → Outlet) : (s.updOutlet k f).ddrPoison = s.ddrPoison := rfl
@[simp] theorem State.updOutlet_ddrUpset (k : Nat) (f : Outlet → Outlet) : (s.updOutlet k f).ddrUpset = s.ddrUpset := rfl
@[simp] theorem State.updOutlet_shelf (k : Nat) (f : Outlet → Outlet) : (s.updOutlet k f).shelf = s.shelf := rfl
@[simp] theorem State.updOutlet_shelfBad (k : Nat) (f : Outlet → Outlet) : (s.updOutlet k f).shelfBad = s.shelfBad := rfl
@[simp] theorem State.updOutlet_shelfQ (k : Nat) (f : Outlet → Outlet) : (s.updOutlet k f).shelfQ = s.shelfQ := rfl
@[simp] theorem State.updOutlet_shelfAtomics (k : Nat) (f : Outlet → Outlet) : (s.updOutlet k f).shelfAtomics = s.shelfAtomics := rfl
@[simp] theorem State.updOutlet_istr (k : Nat) (f : Outlet → Outlet) : (s.updOutlet k f).istr = s.istr := rfl
@[simp] theorem State.updOutlet_shareWritten (k : Nat) (f : Outlet → Outlet) : (s.updOutlet k f).shareWritten = s.shareWritten := rfl
@[simp] theorem State.updOutlet_budgetRefused (k : Nat) (f : Outlet → Outlet) : (s.updOutlet k f).budgetRefused = s.budgetRefused := rfl
@[simp] theorem State.updOutlet_pegs (k : Nat) (f : Outlet → Outlet) : (s.updOutlet k f).pegs = s.pegs := rfl
@[simp] theorem State.updOutlet_st (k : Nat) (f : Outlet → Outlet) : (s.updOutlet k f).st = s.st := rfl
@[simp] theorem State.updOutlet_mbs (k : Nat) (f : Outlet → Outlet) : (s.updOutlet k f).mbs = s.mbs := rfl
@[simp] theorem State.updOutlet_host (k : Nat) (f : Outlet → Outlet) : (s.updOutlet k f).host = s.host := rfl
@[simp] theorem State.updOutlet_i3c (k : Nat) (f : Outlet → Outlet) : (s.updOutlet k f).i3c = s.i3c := rfl
@[simp] theorem State.updOutlet_arb (k : Nat) (f : Outlet → Outlet) : (s.updOutlet k f).arb = s.arb := rfl
@[simp] theorem State.updOutlet_pair (k : Nat) (f : Outlet → Outlet) : (s.updOutlet k f).pair = s.pair := rfl
@[simp] theorem State.updOutlet_pwr (k : Nat) (f : Outlet → Outlet) : (s.updOutlet k f).pwr = s.pwr := rfl
@[simp] theorem State.updOutlet_sn (k : Nat) (f : Outlet → Outlet) : (s.updOutlet k f).sn = s.sn := rfl
@[simp] theorem State.updOutlet_boot (k : Nat) (f : Outlet → Outlet) : (s.updOutlet k f).boot = s.boot := rfl
@[simp] theorem State.updOutlet_sec (k : Nat) (f : Outlet → Outlet) : (s.updOutlet k f).sec = s.sec := rfl
@[simp] theorem State.updOutlet_rcd (k : Nat) (f : Outlet → Outlet) : (s.updOutlet k f).rcd = s.rcd := rfl
@[simp] theorem State.updOutlet_led (k : Nat) (f : Outlet → Outlet) : (s.updOutlet k f).led = s.led := rfl
@[simp] theorem State.updOutlet_pat (k : Nat) (f : Outlet → Outlet) : (s.updOutlet k f).pat = s.pat := rfl
@[simp] theorem State.updOutlet_regs (k : Nat) (f : Outlet → Outlet) : (s.updOutlet k f).regs = s.regs := rfl
@[simp] theorem State.updOutlet_fc (k : Nat) (f : Outlet → Outlet) : (s.updOutlet k f).fc = s.fc := rfl
@[simp] theorem State.updOutlet_freeCnt (k : Nat) (f : Outlet → Outlet) : (s.updOutlet k f).freeCnt = s.freeCnt := rfl
@[simp] theorem State.updOutlet_pending (k : Nat) (f : Outlet → Outlet) : (s.updOutlet k f).pending = s.pending := rfl
@[simp] theorem State.updOutlet_outlet (k j : Nat) (f : Outlet → Outlet) :
    (s.updOutlet k f).outlet j = if j = k then f (s.outlet k) else s.outlet j := Tbl.get_upd ..

/-! #### State.updDc -/

@[simp] theorem State.updDc_time (k : Nat) (f : Ddr → Ddr) : (s.updDc k f).time = s.time := rfl
@[simp] theorem State.updDc_otp (k : Nat) (f : Ddr → Ddr) : (s.updDc k f).otp = s.otp := rfl
@[simp] theorem State.updDc_pes (k : Nat) (f : Ddr → Ddr) : (s.updDc k f).pes = s.pes := rfl
@[simp] theorem State.updDc_cab (k : Nat) (f : Ddr → Ddr) : (s.updDc k f).cab = s.cab := rfl
@[simp] theorem State.updDc_trace (k : Nat) (f : Ddr → Ddr) : (s.updDc k f).trace = s.trace := rfl
@[simp] theorem State.updDc_tally (k : Nat) (f : Ddr → Ddr) : (s.updDc k f).tally = s.tally := rfl
@[simp] theorem State.updDc_cm (k : Nat) (f : Ddr → Ddr) : (s.updDc k f).cm = s.cm := rfl
@[simp] theorem State.updDc_net (k : Nat) (f : Ddr → Ddr) : (s.updDc k f).net = s.net := rfl
@[simp] theorem State.updDc_sites (k : Nat) (f : Ddr → Ddr) : (s.updDc k f).sites = s.sites := rfl
@[simp] theorem State.updDc_lanes (k : Nat) (f : Ddr → Ddr) : (s.updDc k f).lanes = s.lanes := rfl
@[simp] theorem State.updDc_cus (k : Nat) (f : Ddr → Ddr) : (s.updDc k f).cus = s.cus := rfl
@[simp] theorem State.updDc_lgs (k : Nat) (f : Ddr → Ddr) : (s.updDc k f).lgs = s.lgs := rfl
@[simp] theorem State.updDc_cohorts (k : Nat) (f : Ddr → Ddr) : (s.updDc k f).cohorts = s.cohorts := rfl
@[simp] theorem State.updDc_cohIdx (k : Nat) (f : Ddr → Ddr) : (s.updDc k f).cohIdx = s.cohIdx := rfl
@[simp] theorem State.updDc_readers (k : Nat) (f : Ddr → Ddr) : (s.updDc k f).readers = s.readers := rfl
@[simp] theorem State.updDc_maps (k : Nat) (f : Ddr → Ddr) : (s.updDc k f).maps = s.maps := rfl
@[simp] theorem State.updDc_outlets (k : Nat) (f : Ddr → Ddr) : (s.updDc k f).outlets = s.outlets := rfl
@[simp] theorem State.updDc_ddrs (k : Nat) (f : Ddr → Ddr) : (s.updDc k f).ddrs = Tbl.upd {} s.ddrs k f := rfl
@[simp] theorem State.updDc_ddr (k : Nat) (f : Ddr → Ddr) : (s.updDc k f).ddr = s.ddr := rfl
@[simp] theorem State.updDc_ddrPoison (k : Nat) (f : Ddr → Ddr) : (s.updDc k f).ddrPoison = s.ddrPoison := rfl
@[simp] theorem State.updDc_ddrUpset (k : Nat) (f : Ddr → Ddr) : (s.updDc k f).ddrUpset = s.ddrUpset := rfl
@[simp] theorem State.updDc_shelf (k : Nat) (f : Ddr → Ddr) : (s.updDc k f).shelf = s.shelf := rfl
@[simp] theorem State.updDc_shelfBad (k : Nat) (f : Ddr → Ddr) : (s.updDc k f).shelfBad = s.shelfBad := rfl
@[simp] theorem State.updDc_shelfQ (k : Nat) (f : Ddr → Ddr) : (s.updDc k f).shelfQ = s.shelfQ := rfl
@[simp] theorem State.updDc_shelfAtomics (k : Nat) (f : Ddr → Ddr) : (s.updDc k f).shelfAtomics = s.shelfAtomics := rfl
@[simp] theorem State.updDc_istr (k : Nat) (f : Ddr → Ddr) : (s.updDc k f).istr = s.istr := rfl
@[simp] theorem State.updDc_shareWritten (k : Nat) (f : Ddr → Ddr) : (s.updDc k f).shareWritten = s.shareWritten := rfl
@[simp] theorem State.updDc_budgetRefused (k : Nat) (f : Ddr → Ddr) : (s.updDc k f).budgetRefused = s.budgetRefused := rfl
@[simp] theorem State.updDc_pegs (k : Nat) (f : Ddr → Ddr) : (s.updDc k f).pegs = s.pegs := rfl
@[simp] theorem State.updDc_st (k : Nat) (f : Ddr → Ddr) : (s.updDc k f).st = s.st := rfl
@[simp] theorem State.updDc_mbs (k : Nat) (f : Ddr → Ddr) : (s.updDc k f).mbs = s.mbs := rfl
@[simp] theorem State.updDc_host (k : Nat) (f : Ddr → Ddr) : (s.updDc k f).host = s.host := rfl
@[simp] theorem State.updDc_i3c (k : Nat) (f : Ddr → Ddr) : (s.updDc k f).i3c = s.i3c := rfl
@[simp] theorem State.updDc_arb (k : Nat) (f : Ddr → Ddr) : (s.updDc k f).arb = s.arb := rfl
@[simp] theorem State.updDc_pair (k : Nat) (f : Ddr → Ddr) : (s.updDc k f).pair = s.pair := rfl
@[simp] theorem State.updDc_pwr (k : Nat) (f : Ddr → Ddr) : (s.updDc k f).pwr = s.pwr := rfl
@[simp] theorem State.updDc_sn (k : Nat) (f : Ddr → Ddr) : (s.updDc k f).sn = s.sn := rfl
@[simp] theorem State.updDc_boot (k : Nat) (f : Ddr → Ddr) : (s.updDc k f).boot = s.boot := rfl
@[simp] theorem State.updDc_sec (k : Nat) (f : Ddr → Ddr) : (s.updDc k f).sec = s.sec := rfl
@[simp] theorem State.updDc_rcd (k : Nat) (f : Ddr → Ddr) : (s.updDc k f).rcd = s.rcd := rfl
@[simp] theorem State.updDc_led (k : Nat) (f : Ddr → Ddr) : (s.updDc k f).led = s.led := rfl
@[simp] theorem State.updDc_pat (k : Nat) (f : Ddr → Ddr) : (s.updDc k f).pat = s.pat := rfl
@[simp] theorem State.updDc_regs (k : Nat) (f : Ddr → Ddr) : (s.updDc k f).regs = s.regs := rfl
@[simp] theorem State.updDc_fc (k : Nat) (f : Ddr → Ddr) : (s.updDc k f).fc = s.fc := rfl
@[simp] theorem State.updDc_freeCnt (k : Nat) (f : Ddr → Ddr) : (s.updDc k f).freeCnt = s.freeCnt := rfl
@[simp] theorem State.updDc_pending (k : Nat) (f : Ddr → Ddr) : (s.updDc k f).pending = s.pending := rfl
@[simp] theorem State.updDc_dc (k j : Nat) (f : Ddr → Ddr) :
    (s.updDc k f).dc j = if j = k then f (s.dc k) else s.dc j := Tbl.get_upd ..

/-! #### State.updTu -/

@[simp] theorem State.updTu_time (k : Nat) (f : Tally → Tally) : (s.updTu k f).time = s.time := rfl
@[simp] theorem State.updTu_otp (k : Nat) (f : Tally → Tally) : (s.updTu k f).otp = s.otp := rfl
@[simp] theorem State.updTu_pes (k : Nat) (f : Tally → Tally) : (s.updTu k f).pes = s.pes := rfl
@[simp] theorem State.updTu_cab (k : Nat) (f : Tally → Tally) : (s.updTu k f).cab = s.cab := rfl
@[simp] theorem State.updTu_trace (k : Nat) (f : Tally → Tally) : (s.updTu k f).trace = s.trace := rfl
@[simp] theorem State.updTu_tally (k : Nat) (f : Tally → Tally) : (s.updTu k f).tally = Tbl.upd {} s.tally k f := rfl
@[simp] theorem State.updTu_cm (k : Nat) (f : Tally → Tally) : (s.updTu k f).cm = s.cm := rfl
@[simp] theorem State.updTu_net (k : Nat) (f : Tally → Tally) : (s.updTu k f).net = s.net := rfl
@[simp] theorem State.updTu_sites (k : Nat) (f : Tally → Tally) : (s.updTu k f).sites = s.sites := rfl
@[simp] theorem State.updTu_lanes (k : Nat) (f : Tally → Tally) : (s.updTu k f).lanes = s.lanes := rfl
@[simp] theorem State.updTu_cus (k : Nat) (f : Tally → Tally) : (s.updTu k f).cus = s.cus := rfl
@[simp] theorem State.updTu_lgs (k : Nat) (f : Tally → Tally) : (s.updTu k f).lgs = s.lgs := rfl
@[simp] theorem State.updTu_cohorts (k : Nat) (f : Tally → Tally) : (s.updTu k f).cohorts = s.cohorts := rfl
@[simp] theorem State.updTu_cohIdx (k : Nat) (f : Tally → Tally) : (s.updTu k f).cohIdx = s.cohIdx := rfl
@[simp] theorem State.updTu_readers (k : Nat) (f : Tally → Tally) : (s.updTu k f).readers = s.readers := rfl
@[simp] theorem State.updTu_maps (k : Nat) (f : Tally → Tally) : (s.updTu k f).maps = s.maps := rfl
@[simp] theorem State.updTu_outlets (k : Nat) (f : Tally → Tally) : (s.updTu k f).outlets = s.outlets := rfl
@[simp] theorem State.updTu_ddrs (k : Nat) (f : Tally → Tally) : (s.updTu k f).ddrs = s.ddrs := rfl
@[simp] theorem State.updTu_ddr (k : Nat) (f : Tally → Tally) : (s.updTu k f).ddr = s.ddr := rfl
@[simp] theorem State.updTu_ddrPoison (k : Nat) (f : Tally → Tally) : (s.updTu k f).ddrPoison = s.ddrPoison := rfl
@[simp] theorem State.updTu_ddrUpset (k : Nat) (f : Tally → Tally) : (s.updTu k f).ddrUpset = s.ddrUpset := rfl
@[simp] theorem State.updTu_shelf (k : Nat) (f : Tally → Tally) : (s.updTu k f).shelf = s.shelf := rfl
@[simp] theorem State.updTu_shelfBad (k : Nat) (f : Tally → Tally) : (s.updTu k f).shelfBad = s.shelfBad := rfl
@[simp] theorem State.updTu_shelfQ (k : Nat) (f : Tally → Tally) : (s.updTu k f).shelfQ = s.shelfQ := rfl
@[simp] theorem State.updTu_shelfAtomics (k : Nat) (f : Tally → Tally) : (s.updTu k f).shelfAtomics = s.shelfAtomics := rfl
@[simp] theorem State.updTu_istr (k : Nat) (f : Tally → Tally) : (s.updTu k f).istr = s.istr := rfl
@[simp] theorem State.updTu_shareWritten (k : Nat) (f : Tally → Tally) : (s.updTu k f).shareWritten = s.shareWritten := rfl
@[simp] theorem State.updTu_budgetRefused (k : Nat) (f : Tally → Tally) : (s.updTu k f).budgetRefused = s.budgetRefused := rfl
@[simp] theorem State.updTu_pegs (k : Nat) (f : Tally → Tally) : (s.updTu k f).pegs = s.pegs := rfl
@[simp] theorem State.updTu_st (k : Nat) (f : Tally → Tally) : (s.updTu k f).st = s.st := rfl
@[simp] theorem State.updTu_mbs (k : Nat) (f : Tally → Tally) : (s.updTu k f).mbs = s.mbs := rfl
@[simp] theorem State.updTu_host (k : Nat) (f : Tally → Tally) : (s.updTu k f).host = s.host := rfl
@[simp] theorem State.updTu_i3c (k : Nat) (f : Tally → Tally) : (s.updTu k f).i3c = s.i3c := rfl
@[simp] theorem State.updTu_arb (k : Nat) (f : Tally → Tally) : (s.updTu k f).arb = s.arb := rfl
@[simp] theorem State.updTu_pair (k : Nat) (f : Tally → Tally) : (s.updTu k f).pair = s.pair := rfl
@[simp] theorem State.updTu_pwr (k : Nat) (f : Tally → Tally) : (s.updTu k f).pwr = s.pwr := rfl
@[simp] theorem State.updTu_sn (k : Nat) (f : Tally → Tally) : (s.updTu k f).sn = s.sn := rfl
@[simp] theorem State.updTu_boot (k : Nat) (f : Tally → Tally) : (s.updTu k f).boot = s.boot := rfl
@[simp] theorem State.updTu_sec (k : Nat) (f : Tally → Tally) : (s.updTu k f).sec = s.sec := rfl
@[simp] theorem State.updTu_rcd (k : Nat) (f : Tally → Tally) : (s.updTu k f).rcd = s.rcd := rfl
@[simp] theorem State.updTu_led (k : Nat) (f : Tally → Tally) : (s.updTu k f).led = s.led := rfl
@[simp] theorem State.updTu_pat (k : Nat) (f : Tally → Tally) : (s.updTu k f).pat = s.pat := rfl
@[simp] theorem State.updTu_regs (k : Nat) (f : Tally → Tally) : (s.updTu k f).regs = s.regs := rfl
@[simp] theorem State.updTu_fc (k : Nat) (f : Tally → Tally) : (s.updTu k f).fc = s.fc := rfl
@[simp] theorem State.updTu_freeCnt (k : Nat) (f : Tally → Tally) : (s.updTu k f).freeCnt = s.freeCnt := rfl
@[simp] theorem State.updTu_pending (k : Nat) (f : Tally → Tally) : (s.updTu k f).pending = s.pending := rfl
@[simp] theorem State.updTu_tu (k j : Nat) (f : Tally → Tally) :
    (s.updTu k f).tu j = if j = k then f (s.tu k) else s.tu j := Tbl.get_upd ..

/-! #### State.updCore -/

@[simp] theorem State.updCore_time (k : Nat) (f : Steward → Steward) : (s.updCore k f).time = s.time := rfl
@[simp] theorem State.updCore_otp (k : Nat) (f : Steward → Steward) : (s.updCore k f).otp = s.otp := rfl
@[simp] theorem State.updCore_pes (k : Nat) (f : Steward → Steward) : (s.updCore k f).pes = s.pes := rfl
@[simp] theorem State.updCore_cab (k : Nat) (f : Steward → Steward) : (s.updCore k f).cab = s.cab := rfl
@[simp] theorem State.updCore_trace (k : Nat) (f : Steward → Steward) : (s.updCore k f).trace = s.trace := rfl
@[simp] theorem State.updCore_tally (k : Nat) (f : Steward → Steward) : (s.updCore k f).tally = s.tally := rfl
@[simp] theorem State.updCore_cm (k : Nat) (f : Steward → Steward) : (s.updCore k f).cm = s.cm := rfl
@[simp] theorem State.updCore_net (k : Nat) (f : Steward → Steward) : (s.updCore k f).net = s.net := rfl
@[simp] theorem State.updCore_sites (k : Nat) (f : Steward → Steward) : (s.updCore k f).sites = s.sites := rfl
@[simp] theorem State.updCore_lanes (k : Nat) (f : Steward → Steward) : (s.updCore k f).lanes = s.lanes := rfl
@[simp] theorem State.updCore_cus (k : Nat) (f : Steward → Steward) : (s.updCore k f).cus = s.cus := rfl
@[simp] theorem State.updCore_lgs (k : Nat) (f : Steward → Steward) : (s.updCore k f).lgs = s.lgs := rfl
@[simp] theorem State.updCore_cohorts (k : Nat) (f : Steward → Steward) : (s.updCore k f).cohorts = s.cohorts := rfl
@[simp] theorem State.updCore_cohIdx (k : Nat) (f : Steward → Steward) : (s.updCore k f).cohIdx = s.cohIdx := rfl
@[simp] theorem State.updCore_readers (k : Nat) (f : Steward → Steward) : (s.updCore k f).readers = s.readers := rfl
@[simp] theorem State.updCore_maps (k : Nat) (f : Steward → Steward) : (s.updCore k f).maps = s.maps := rfl
@[simp] theorem State.updCore_outlets (k : Nat) (f : Steward → Steward) : (s.updCore k f).outlets = s.outlets := rfl
@[simp] theorem State.updCore_ddrs (k : Nat) (f : Steward → Steward) : (s.updCore k f).ddrs = s.ddrs := rfl
@[simp] theorem State.updCore_ddr (k : Nat) (f : Steward → Steward) : (s.updCore k f).ddr = s.ddr := rfl
@[simp] theorem State.updCore_ddrPoison (k : Nat) (f : Steward → Steward) : (s.updCore k f).ddrPoison = s.ddrPoison := rfl
@[simp] theorem State.updCore_ddrUpset (k : Nat) (f : Steward → Steward) : (s.updCore k f).ddrUpset = s.ddrUpset := rfl
@[simp] theorem State.updCore_shelf (k : Nat) (f : Steward → Steward) : (s.updCore k f).shelf = s.shelf := rfl
@[simp] theorem State.updCore_shelfBad (k : Nat) (f : Steward → Steward) : (s.updCore k f).shelfBad = s.shelfBad := rfl
@[simp] theorem State.updCore_shelfQ (k : Nat) (f : Steward → Steward) : (s.updCore k f).shelfQ = s.shelfQ := rfl
@[simp] theorem State.updCore_shelfAtomics (k : Nat) (f : Steward → Steward) : (s.updCore k f).shelfAtomics = s.shelfAtomics := rfl
@[simp] theorem State.updCore_istr (k : Nat) (f : Steward → Steward) : (s.updCore k f).istr = s.istr := rfl
@[simp] theorem State.updCore_shareWritten (k : Nat) (f : Steward → Steward) : (s.updCore k f).shareWritten = s.shareWritten := rfl
@[simp] theorem State.updCore_budgetRefused (k : Nat) (f : Steward → Steward) : (s.updCore k f).budgetRefused = s.budgetRefused := rfl
@[simp] theorem State.updCore_pegs (k : Nat) (f : Steward → Steward) : (s.updCore k f).pegs = s.pegs := rfl
@[simp] theorem State.updCore_mbs (k : Nat) (f : Steward → Steward) : (s.updCore k f).mbs = s.mbs := rfl
@[simp] theorem State.updCore_host (k : Nat) (f : Steward → Steward) : (s.updCore k f).host = s.host := rfl
@[simp] theorem State.updCore_i3c (k : Nat) (f : Steward → Steward) : (s.updCore k f).i3c = s.i3c := rfl
@[simp] theorem State.updCore_arb (k : Nat) (f : Steward → Steward) : (s.updCore k f).arb = s.arb := rfl
@[simp] theorem State.updCore_pair (k : Nat) (f : Steward → Steward) : (s.updCore k f).pair = s.pair := rfl
@[simp] theorem State.updCore_pwr (k : Nat) (f : Steward → Steward) : (s.updCore k f).pwr = s.pwr := rfl
@[simp] theorem State.updCore_sn (k : Nat) (f : Steward → Steward) : (s.updCore k f).sn = s.sn := rfl
@[simp] theorem State.updCore_boot (k : Nat) (f : Steward → Steward) : (s.updCore k f).boot = s.boot := rfl
@[simp] theorem State.updCore_sec (k : Nat) (f : Steward → Steward) : (s.updCore k f).sec = s.sec := rfl
@[simp] theorem State.updCore_rcd (k : Nat) (f : Steward → Steward) : (s.updCore k f).rcd = s.rcd := rfl
@[simp] theorem State.updCore_led (k : Nat) (f : Steward → Steward) : (s.updCore k f).led = s.led := rfl
@[simp] theorem State.updCore_pat (k : Nat) (f : Steward → Steward) : (s.updCore k f).pat = s.pat := rfl
@[simp] theorem State.updCore_regs (k : Nat) (f : Steward → Steward) : (s.updCore k f).regs = s.regs := rfl
@[simp] theorem State.updCore_fc (k : Nat) (f : Steward → Steward) : (s.updCore k f).fc = s.fc := rfl
@[simp] theorem State.updCore_freeCnt (k : Nat) (f : Steward → Steward) : (s.updCore k f).freeCnt = s.freeCnt := rfl
@[simp] theorem State.updCore_pending (k : Nat) (f : Steward → Steward) : (s.updCore k f).pending = s.pending := rfl
@[simp] theorem State.updCore_core (k j : Nat) (f : Steward → Steward) :
    (s.updCore k f).core j = if j = k then f (s.core k) else s.core j := Tbl.get_upd ..

/-! #### State.updMb -/

@[simp] theorem State.updMb_time (k : Nat) (f : Mbox → Mbox) : (s.updMb k f).time = s.time := rfl
@[simp] theorem State.updMb_otp (k : Nat) (f : Mbox → Mbox) : (s.updMb k f).otp = s.otp := rfl
@[simp] theorem State.updMb_pes (k : Nat) (f : Mbox → Mbox) : (s.updMb k f).pes = s.pes := rfl
@[simp] theorem State.updMb_cab (k : Nat) (f : Mbox → Mbox) : (s.updMb k f).cab = s.cab := rfl
@[simp] theorem State.updMb_trace (k : Nat) (f : Mbox → Mbox) : (s.updMb k f).trace = s.trace := rfl
@[simp] theorem State.updMb_tally (k : Nat) (f : Mbox → Mbox) : (s.updMb k f).tally = s.tally := rfl
@[simp] theorem State.updMb_cm (k : Nat) (f : Mbox → Mbox) : (s.updMb k f).cm = s.cm := rfl
@[simp] theorem State.updMb_net (k : Nat) (f : Mbox → Mbox) : (s.updMb k f).net = s.net := rfl
@[simp] theorem State.updMb_sites (k : Nat) (f : Mbox → Mbox) : (s.updMb k f).sites = s.sites := rfl
@[simp] theorem State.updMb_lanes (k : Nat) (f : Mbox → Mbox) : (s.updMb k f).lanes = s.lanes := rfl
@[simp] theorem State.updMb_cus (k : Nat) (f : Mbox → Mbox) : (s.updMb k f).cus = s.cus := rfl
@[simp] theorem State.updMb_lgs (k : Nat) (f : Mbox → Mbox) : (s.updMb k f).lgs = s.lgs := rfl
@[simp] theorem State.updMb_cohorts (k : Nat) (f : Mbox → Mbox) : (s.updMb k f).cohorts = s.cohorts := rfl
@[simp] theorem State.updMb_cohIdx (k : Nat) (f : Mbox → Mbox) : (s.updMb k f).cohIdx = s.cohIdx := rfl
@[simp] theorem State.updMb_readers (k : Nat) (f : Mbox → Mbox) : (s.updMb k f).readers = s.readers := rfl
@[simp] theorem State.updMb_maps (k : Nat) (f : Mbox → Mbox) : (s.updMb k f).maps = s.maps := rfl
@[simp] theorem State.updMb_outlets (k : Nat) (f : Mbox → Mbox) : (s.updMb k f).outlets = s.outlets := rfl
@[simp] theorem State.updMb_ddrs (k : Nat) (f : Mbox → Mbox) : (s.updMb k f).ddrs = s.ddrs := rfl
@[simp] theorem State.updMb_ddr (k : Nat) (f : Mbox → Mbox) : (s.updMb k f).ddr = s.ddr := rfl
@[simp] theorem State.updMb_ddrPoison (k : Nat) (f : Mbox → Mbox) : (s.updMb k f).ddrPoison = s.ddrPoison := rfl
@[simp] theorem State.updMb_ddrUpset (k : Nat) (f : Mbox → Mbox) : (s.updMb k f).ddrUpset = s.ddrUpset := rfl
@[simp] theorem State.updMb_shelf (k : Nat) (f : Mbox → Mbox) : (s.updMb k f).shelf = s.shelf := rfl
@[simp] theorem State.updMb_shelfBad (k : Nat) (f : Mbox → Mbox) : (s.updMb k f).shelfBad = s.shelfBad := rfl
@[simp] theorem State.updMb_shelfQ (k : Nat) (f : Mbox → Mbox) : (s.updMb k f).shelfQ = s.shelfQ := rfl
@[simp] theorem State.updMb_shelfAtomics (k : Nat) (f : Mbox → Mbox) : (s.updMb k f).shelfAtomics = s.shelfAtomics := rfl
@[simp] theorem State.updMb_istr (k : Nat) (f : Mbox → Mbox) : (s.updMb k f).istr = s.istr := rfl
@[simp] theorem State.updMb_shareWritten (k : Nat) (f : Mbox → Mbox) : (s.updMb k f).shareWritten = s.shareWritten := rfl
@[simp] theorem State.updMb_budgetRefused (k : Nat) (f : Mbox → Mbox) : (s.updMb k f).budgetRefused = s.budgetRefused := rfl
@[simp] theorem State.updMb_pegs (k : Nat) (f : Mbox → Mbox) : (s.updMb k f).pegs = s.pegs := rfl
@[simp] theorem State.updMb_st (k : Nat) (f : Mbox → Mbox) : (s.updMb k f).st = s.st := rfl
@[simp] theorem State.updMb_mbs (k : Nat) (f : Mbox → Mbox) : (s.updMb k f).mbs = Tbl.upd {} s.mbs k f := rfl
@[simp] theorem State.updMb_host (k : Nat) (f : Mbox → Mbox) : (s.updMb k f).host = s.host := rfl
@[simp] theorem State.updMb_i3c (k : Nat) (f : Mbox → Mbox) : (s.updMb k f).i3c = s.i3c := rfl
@[simp] theorem State.updMb_arb (k : Nat) (f : Mbox → Mbox) : (s.updMb k f).arb = s.arb := rfl
@[simp] theorem State.updMb_pair (k : Nat) (f : Mbox → Mbox) : (s.updMb k f).pair = s.pair := rfl
@[simp] theorem State.updMb_pwr (k : Nat) (f : Mbox → Mbox) : (s.updMb k f).pwr = s.pwr := rfl
@[simp] theorem State.updMb_sn (k : Nat) (f : Mbox → Mbox) : (s.updMb k f).sn = s.sn := rfl
@[simp] theorem State.updMb_boot (k : Nat) (f : Mbox → Mbox) : (s.updMb k f).boot = s.boot := rfl
@[simp] theorem State.updMb_sec (k : Nat) (f : Mbox → Mbox) : (s.updMb k f).sec = s.sec := rfl
@[simp] theorem State.updMb_rcd (k : Nat) (f : Mbox → Mbox) : (s.updMb k f).rcd = s.rcd := rfl
@[simp] theorem State.updMb_led (k : Nat) (f : Mbox → Mbox) : (s.updMb k f).led = s.led := rfl
@[simp] theorem State.updMb_pat (k : Nat) (f : Mbox → Mbox) : (s.updMb k f).pat = s.pat := rfl
@[simp] theorem State.updMb_regs (k : Nat) (f : Mbox → Mbox) : (s.updMb k f).regs = s.regs := rfl
@[simp] theorem State.updMb_fc (k : Nat) (f : Mbox → Mbox) : (s.updMb k f).fc = s.fc := rfl
@[simp] theorem State.updMb_freeCnt (k : Nat) (f : Mbox → Mbox) : (s.updMb k f).freeCnt = s.freeCnt := rfl
@[simp] theorem State.updMb_pending (k : Nat) (f : Mbox → Mbox) : (s.updMb k f).pending = s.pending := rfl
@[simp] theorem State.updMb_mb (k j : Nat) (f : Mbox → Mbox) :
    (s.updMb k f).mb j = if j = k then f (s.mb k) else s.mb j := Tbl.get_upd ..

/-! #### State.updDom -/

@[simp] theorem State.updDom_time (k : Nat) (f : Domain → Domain) : (s.updDom k f).time = s.time := rfl
@[simp] theorem State.updDom_otp (k : Nat) (f : Domain → Domain) : (s.updDom k f).otp = s.otp := rfl
@[simp] theorem State.updDom_pes (k : Nat) (f : Domain → Domain) : (s.updDom k f).pes = s.pes := rfl
@[simp] theorem State.updDom_cab (k : Nat) (f : Domain → Domain) : (s.updDom k f).cab = s.cab := rfl
@[simp] theorem State.updDom_trace (k : Nat) (f : Domain → Domain) : (s.updDom k f).trace = s.trace := rfl
@[simp] theorem State.updDom_tally (k : Nat) (f : Domain → Domain) : (s.updDom k f).tally = s.tally := rfl
@[simp] theorem State.updDom_cm (k : Nat) (f : Domain → Domain) : (s.updDom k f).cm = s.cm := rfl
@[simp] theorem State.updDom_net (k : Nat) (f : Domain → Domain) : (s.updDom k f).net = s.net := rfl
@[simp] theorem State.updDom_sites (k : Nat) (f : Domain → Domain) : (s.updDom k f).sites = s.sites := rfl
@[simp] theorem State.updDom_lanes (k : Nat) (f : Domain → Domain) : (s.updDom k f).lanes = s.lanes := rfl
@[simp] theorem State.updDom_cus (k : Nat) (f : Domain → Domain) : (s.updDom k f).cus = s.cus := rfl
@[simp] theorem State.updDom_lgs (k : Nat) (f : Domain → Domain) : (s.updDom k f).lgs = s.lgs := rfl
@[simp] theorem State.updDom_cohorts (k : Nat) (f : Domain → Domain) : (s.updDom k f).cohorts = s.cohorts := rfl
@[simp] theorem State.updDom_cohIdx (k : Nat) (f : Domain → Domain) : (s.updDom k f).cohIdx = s.cohIdx := rfl
@[simp] theorem State.updDom_readers (k : Nat) (f : Domain → Domain) : (s.updDom k f).readers = s.readers := rfl
@[simp] theorem State.updDom_maps (k : Nat) (f : Domain → Domain) : (s.updDom k f).maps = s.maps := rfl
@[simp] theorem State.updDom_outlets (k : Nat) (f : Domain → Domain) : (s.updDom k f).outlets = s.outlets := rfl
@[simp] theorem State.updDom_ddrs (k : Nat) (f : Domain → Domain) : (s.updDom k f).ddrs = s.ddrs := rfl
@[simp] theorem State.updDom_ddr (k : Nat) (f : Domain → Domain) : (s.updDom k f).ddr = s.ddr := rfl
@[simp] theorem State.updDom_ddrPoison (k : Nat) (f : Domain → Domain) : (s.updDom k f).ddrPoison = s.ddrPoison := rfl
@[simp] theorem State.updDom_ddrUpset (k : Nat) (f : Domain → Domain) : (s.updDom k f).ddrUpset = s.ddrUpset := rfl
@[simp] theorem State.updDom_shelf (k : Nat) (f : Domain → Domain) : (s.updDom k f).shelf = s.shelf := rfl
@[simp] theorem State.updDom_shelfBad (k : Nat) (f : Domain → Domain) : (s.updDom k f).shelfBad = s.shelfBad := rfl
@[simp] theorem State.updDom_shelfQ (k : Nat) (f : Domain → Domain) : (s.updDom k f).shelfQ = s.shelfQ := rfl
@[simp] theorem State.updDom_shelfAtomics (k : Nat) (f : Domain → Domain) : (s.updDom k f).shelfAtomics = s.shelfAtomics := rfl
@[simp] theorem State.updDom_istr (k : Nat) (f : Domain → Domain) : (s.updDom k f).istr = s.istr := rfl
@[simp] theorem State.updDom_shareWritten (k : Nat) (f : Domain → Domain) : (s.updDom k f).shareWritten = s.shareWritten := rfl
@[simp] theorem State.updDom_budgetRefused (k : Nat) (f : Domain → Domain) : (s.updDom k f).budgetRefused = s.budgetRefused := rfl
@[simp] theorem State.updDom_pegs (k : Nat) (f : Domain → Domain) : (s.updDom k f).pegs = s.pegs := rfl
@[simp] theorem State.updDom_st (k : Nat) (f : Domain → Domain) : (s.updDom k f).st = s.st := rfl
@[simp] theorem State.updDom_mbs (k : Nat) (f : Domain → Domain) : (s.updDom k f).mbs = s.mbs := rfl
@[simp] theorem State.updDom_host (k : Nat) (f : Domain → Domain) : (s.updDom k f).host = s.host := rfl
@[simp] theorem State.updDom_i3c (k : Nat) (f : Domain → Domain) : (s.updDom k f).i3c = s.i3c := rfl
@[simp] theorem State.updDom_arb (k : Nat) (f : Domain → Domain) : (s.updDom k f).arb = s.arb := rfl
@[simp] theorem State.updDom_pair (k : Nat) (f : Domain → Domain) : (s.updDom k f).pair = s.pair := rfl
@[simp] theorem State.updDom_sn (k : Nat) (f : Domain → Domain) : (s.updDom k f).sn = s.sn := rfl
@[simp] theorem State.updDom_boot (k : Nat) (f : Domain → Domain) : (s.updDom k f).boot = s.boot := rfl
@[simp] theorem State.updDom_sec (k : Nat) (f : Domain → Domain) : (s.updDom k f).sec = s.sec := rfl
@[simp] theorem State.updDom_rcd (k : Nat) (f : Domain → Domain) : (s.updDom k f).rcd = s.rcd := rfl
@[simp] theorem State.updDom_led (k : Nat) (f : Domain → Domain) : (s.updDom k f).led = s.led := rfl
@[simp] theorem State.updDom_pat (k : Nat) (f : Domain → Domain) : (s.updDom k f).pat = s.pat := rfl
@[simp] theorem State.updDom_regs (k : Nat) (f : Domain → Domain) : (s.updDom k f).regs = s.regs := rfl
@[simp] theorem State.updDom_fc (k : Nat) (f : Domain → Domain) : (s.updDom k f).fc = s.fc := rfl
@[simp] theorem State.updDom_freeCnt (k : Nat) (f : Domain → Domain) : (s.updDom k f).freeCnt = s.freeCnt := rfl
@[simp] theorem State.updDom_pending (k : Nat) (f : Domain → Domain) : (s.updDom k f).pending = s.pending := rfl
@[simp] theorem State.updDom_dom (k j : Nat) (f : Domain → Domain) :
    (s.updDom k f).dom j = if j = k then f (s.dom k) else s.dom j := Tbl.get_upd ..

/-! #### State.updPeg -/

@[simp] theorem State.updPeg_time (k : Nat) (f : Peg → Peg) : (s.updPeg k f).time = s.time := rfl
@[simp] theorem State.updPeg_otp (k : Nat) (f : Peg → Peg) : (s.updPeg k f).otp = s.otp := rfl
@[simp] theorem State.updPeg_pes (k : Nat) (f : Peg → Peg) : (s.updPeg k f).pes = s.pes := rfl
@[simp] theorem State.updPeg_cab (k : Nat) (f : Peg → Peg) : (s.updPeg k f).cab = s.cab := rfl
@[simp] theorem State.updPeg_trace (k : Nat) (f : Peg → Peg) : (s.updPeg k f).trace = s.trace := rfl
@[simp] theorem State.updPeg_tally (k : Nat) (f : Peg → Peg) : (s.updPeg k f).tally = s.tally := rfl
@[simp] theorem State.updPeg_cm (k : Nat) (f : Peg → Peg) : (s.updPeg k f).cm = s.cm := rfl
@[simp] theorem State.updPeg_net (k : Nat) (f : Peg → Peg) : (s.updPeg k f).net = s.net := rfl
@[simp] theorem State.updPeg_sites (k : Nat) (f : Peg → Peg) : (s.updPeg k f).sites = s.sites := rfl
@[simp] theorem State.updPeg_lanes (k : Nat) (f : Peg → Peg) : (s.updPeg k f).lanes = s.lanes := rfl
@[simp] theorem State.updPeg_cus (k : Nat) (f : Peg → Peg) : (s.updPeg k f).cus = s.cus := rfl
@[simp] theorem State.updPeg_lgs (k : Nat) (f : Peg → Peg) : (s.updPeg k f).lgs = s.lgs := rfl
@[simp] theorem State.updPeg_cohorts (k : Nat) (f : Peg → Peg) : (s.updPeg k f).cohorts = s.cohorts := rfl
@[simp] theorem State.updPeg_cohIdx (k : Nat) (f : Peg → Peg) : (s.updPeg k f).cohIdx = s.cohIdx := rfl
@[simp] theorem State.updPeg_readers (k : Nat) (f : Peg → Peg) : (s.updPeg k f).readers = s.readers := rfl
@[simp] theorem State.updPeg_maps (k : Nat) (f : Peg → Peg) : (s.updPeg k f).maps = s.maps := rfl
@[simp] theorem State.updPeg_outlets (k : Nat) (f : Peg → Peg) : (s.updPeg k f).outlets = s.outlets := rfl
@[simp] theorem State.updPeg_ddrs (k : Nat) (f : Peg → Peg) : (s.updPeg k f).ddrs = s.ddrs := rfl
@[simp] theorem State.updPeg_ddr (k : Nat) (f : Peg → Peg) : (s.updPeg k f).ddr = s.ddr := rfl
@[simp] theorem State.updPeg_ddrPoison (k : Nat) (f : Peg → Peg) : (s.updPeg k f).ddrPoison = s.ddrPoison := rfl
@[simp] theorem State.updPeg_ddrUpset (k : Nat) (f : Peg → Peg) : (s.updPeg k f).ddrUpset = s.ddrUpset := rfl
@[simp] theorem State.updPeg_shelf (k : Nat) (f : Peg → Peg) : (s.updPeg k f).shelf = s.shelf := rfl
@[simp] theorem State.updPeg_shelfBad (k : Nat) (f : Peg → Peg) : (s.updPeg k f).shelfBad = s.shelfBad := rfl
@[simp] theorem State.updPeg_shelfQ (k : Nat) (f : Peg → Peg) : (s.updPeg k f).shelfQ = s.shelfQ := rfl
@[simp] theorem State.updPeg_shelfAtomics (k : Nat) (f : Peg → Peg) : (s.updPeg k f).shelfAtomics = s.shelfAtomics := rfl
@[simp] theorem State.updPeg_istr (k : Nat) (f : Peg → Peg) : (s.updPeg k f).istr = s.istr := rfl
@[simp] theorem State.updPeg_shareWritten (k : Nat) (f : Peg → Peg) : (s.updPeg k f).shareWritten = s.shareWritten := rfl
@[simp] theorem State.updPeg_budgetRefused (k : Nat) (f : Peg → Peg) : (s.updPeg k f).budgetRefused = s.budgetRefused := rfl
@[simp] theorem State.updPeg_pegs (k : Nat) (f : Peg → Peg) : (s.updPeg k f).pegs = Tbl.upd {} s.pegs k f := rfl
@[simp] theorem State.updPeg_st (k : Nat) (f : Peg → Peg) : (s.updPeg k f).st = s.st := rfl
@[simp] theorem State.updPeg_mbs (k : Nat) (f : Peg → Peg) : (s.updPeg k f).mbs = s.mbs := rfl
@[simp] theorem State.updPeg_host (k : Nat) (f : Peg → Peg) : (s.updPeg k f).host = s.host := rfl
@[simp] theorem State.updPeg_i3c (k : Nat) (f : Peg → Peg) : (s.updPeg k f).i3c = s.i3c := rfl
@[simp] theorem State.updPeg_arb (k : Nat) (f : Peg → Peg) : (s.updPeg k f).arb = s.arb := rfl
@[simp] theorem State.updPeg_pair (k : Nat) (f : Peg → Peg) : (s.updPeg k f).pair = s.pair := rfl
@[simp] theorem State.updPeg_pwr (k : Nat) (f : Peg → Peg) : (s.updPeg k f).pwr = s.pwr := rfl
@[simp] theorem State.updPeg_sn (k : Nat) (f : Peg → Peg) : (s.updPeg k f).sn = s.sn := rfl
@[simp] theorem State.updPeg_boot (k : Nat) (f : Peg → Peg) : (s.updPeg k f).boot = s.boot := rfl
@[simp] theorem State.updPeg_sec (k : Nat) (f : Peg → Peg) : (s.updPeg k f).sec = s.sec := rfl
@[simp] theorem State.updPeg_rcd (k : Nat) (f : Peg → Peg) : (s.updPeg k f).rcd = s.rcd := rfl
@[simp] theorem State.updPeg_led (k : Nat) (f : Peg → Peg) : (s.updPeg k f).led = s.led := rfl
@[simp] theorem State.updPeg_pat (k : Nat) (f : Peg → Peg) : (s.updPeg k f).pat = s.pat := rfl
@[simp] theorem State.updPeg_regs (k : Nat) (f : Peg → Peg) : (s.updPeg k f).regs = s.regs := rfl
@[simp] theorem State.updPeg_fc (k : Nat) (f : Peg → Peg) : (s.updPeg k f).fc = s.fc := rfl
@[simp] theorem State.updPeg_freeCnt (k : Nat) (f : Peg → Peg) : (s.updPeg k f).freeCnt = s.freeCnt := rfl
@[simp] theorem State.updPeg_pending (k : Nat) (f : Peg → Peg) : (s.updPeg k f).pending = s.pending := rfl
@[simp] theorem State.updPeg_peg (k j : Nat) (f : Peg → Peg) :
    (s.updPeg k f).peg j = if j = k then f (s.peg k) else s.peg j := Tbl.get_upd ..

/-! #### State.setReg -/

@[simp] theorem State.setReg_time (sp : Space) (a v : Nat) : (s.setReg sp a v).time = s.time := rfl
@[simp] theorem State.setReg_otp (sp : Space) (a v : Nat) : (s.setReg sp a v).otp = s.otp := rfl
@[simp] theorem State.setReg_pes (sp : Space) (a v : Nat) : (s.setReg sp a v).pes = s.pes := rfl
@[simp] theorem State.setReg_cab (sp : Space) (a v : Nat) : (s.setReg sp a v).cab = s.cab := rfl
@[simp] theorem State.setReg_trace (sp : Space) (a v : Nat) : (s.setReg sp a v).trace = s.trace := rfl
@[simp] theorem State.setReg_tally (sp : Space) (a v : Nat) : (s.setReg sp a v).tally = s.tally := rfl
@[simp] theorem State.setReg_cm (sp : Space) (a v : Nat) : (s.setReg sp a v).cm = s.cm := rfl
@[simp] theorem State.setReg_net (sp : Space) (a v : Nat) : (s.setReg sp a v).net = s.net := rfl
@[simp] theorem State.setReg_sites (sp : Space) (a v : Nat) : (s.setReg sp a v).sites = s.sites := rfl
@[simp] theorem State.setReg_lanes (sp : Space) (a v : Nat) : (s.setReg sp a v).lanes = s.lanes := rfl
@[simp] theorem State.setReg_cus (sp : Space) (a v : Nat) : (s.setReg sp a v).cus = s.cus := rfl
@[simp] theorem State.setReg_lgs (sp : Space) (a v : Nat) : (s.setReg sp a v).lgs = s.lgs := rfl
@[simp] theorem State.setReg_cohorts (sp : Space) (a v : Nat) : (s.setReg sp a v).cohorts = s.cohorts := rfl
@[simp] theorem State.setReg_cohIdx (sp : Space) (a v : Nat) : (s.setReg sp a v).cohIdx = s.cohIdx := rfl
@[simp] theorem State.setReg_readers (sp : Space) (a v : Nat) : (s.setReg sp a v).readers = s.readers := rfl
@[simp] theorem State.setReg_maps (sp : Space) (a v : Nat) : (s.setReg sp a v).maps = s.maps := rfl
@[simp] theorem State.setReg_outlets (sp : Space) (a v : Nat) : (s.setReg sp a v).outlets = s.outlets := rfl
@[simp] theorem State.setReg_ddrs (sp : Space) (a v : Nat) : (s.setReg sp a v).ddrs = s.ddrs := rfl
@[simp] theorem State.setReg_ddr (sp : Space) (a v : Nat) : (s.setReg sp a v).ddr = s.ddr := rfl
@[simp] theorem State.setReg_ddrPoison (sp : Space) (a v : Nat) : (s.setReg sp a v).ddrPoison = s.ddrPoison := rfl
@[simp] theorem State.setReg_ddrUpset (sp : Space) (a v : Nat) : (s.setReg sp a v).ddrUpset = s.ddrUpset := rfl
@[simp] theorem State.setReg_shelf (sp : Space) (a v : Nat) : (s.setReg sp a v).shelf = s.shelf := rfl
@[simp] theorem State.setReg_shelfBad (sp : Space) (a v : Nat) : (s.setReg sp a v).shelfBad = s.shelfBad := rfl
@[simp] theorem State.setReg_shelfQ (sp : Space) (a v : Nat) : (s.setReg sp a v).shelfQ = s.shelfQ := rfl
@[simp] theorem State.setReg_shelfAtomics (sp : Space) (a v : Nat) : (s.setReg sp a v).shelfAtomics = s.shelfAtomics := rfl
@[simp] theorem State.setReg_istr (sp : Space) (a v : Nat) : (s.setReg sp a v).istr = s.istr := rfl
@[simp] theorem State.setReg_shareWritten (sp : Space) (a v : Nat) : (s.setReg sp a v).shareWritten = s.shareWritten := rfl
@[simp] theorem State.setReg_budgetRefused (sp : Space) (a v : Nat) : (s.setReg sp a v).budgetRefused = s.budgetRefused := rfl
@[simp] theorem State.setReg_pegs (sp : Space) (a v : Nat) : (s.setReg sp a v).pegs = s.pegs := rfl
@[simp] theorem State.setReg_st (sp : Space) (a v : Nat) : (s.setReg sp a v).st = s.st := rfl
@[simp] theorem State.setReg_mbs (sp : Space) (a v : Nat) : (s.setReg sp a v).mbs = s.mbs := rfl
@[simp] theorem State.setReg_host (sp : Space) (a v : Nat) : (s.setReg sp a v).host = s.host := rfl
@[simp] theorem State.setReg_i3c (sp : Space) (a v : Nat) : (s.setReg sp a v).i3c = s.i3c := rfl
@[simp] theorem State.setReg_arb (sp : Space) (a v : Nat) : (s.setReg sp a v).arb = s.arb := rfl
@[simp] theorem State.setReg_pair (sp : Space) (a v : Nat) : (s.setReg sp a v).pair = s.pair := rfl
@[simp] theorem State.setReg_pwr (sp : Space) (a v : Nat) : (s.setReg sp a v).pwr = s.pwr := rfl
@[simp] theorem State.setReg_sn (sp : Space) (a v : Nat) : (s.setReg sp a v).sn = s.sn := rfl
@[simp] theorem State.setReg_boot (sp : Space) (a v : Nat) : (s.setReg sp a v).boot = s.boot := rfl
@[simp] theorem State.setReg_sec (sp : Space) (a v : Nat) : (s.setReg sp a v).sec = s.sec := rfl
@[simp] theorem State.setReg_rcd (sp : Space) (a v : Nat) : (s.setReg sp a v).rcd = s.rcd := rfl
@[simp] theorem State.setReg_led (sp : Space) (a v : Nat) : (s.setReg sp a v).led = s.led := rfl
@[simp] theorem State.setReg_pat (sp : Space) (a v : Nat) : (s.setReg sp a v).pat = s.pat := rfl
@[simp] theorem State.setReg_regs (sp : Space) (a v : Nat) : (s.setReg sp a v).regs = s.regs.put (regKey sp a) v := rfl
@[simp] theorem State.setReg_fc (sp : Space) (a v : Nat) : (s.setReg sp a v).fc = s.fc := rfl
@[simp] theorem State.setReg_freeCnt (sp : Space) (a v : Nat) : (s.setReg sp a v).freeCnt = s.freeCnt := rfl
@[simp] theorem State.setReg_pending (sp : Space) (a v : Nat) : (s.setReg sp a v).pending = s.pending := rfl

end Updates

end Sys2Proof.Machine
end

