-- ==== Sys2Proof/Laws/Ops.lean ====
section
/-! SUPPORT. Laws of the shared operations: for each, once, all that it can do. An operation that writes few parts of the
state is said to be the state with those parts replaced. -/

namespace Sys2Proof.Machine
open Sys2Proof

/-! ### Answers -/

theorem State.plain_eq (f : State → State) (s : State) : State.plain f s = .next ((f s).keep s) := rfl

@[simp] theorem State.keep_time (n s : State) : (n.keep s).time = s.time := rfl
@[simp] theorem State.keep_otp (n s : State) : (n.keep s).otp = s.otp := rfl
@[simp] theorem State.keep_pending (n s : State) : (n.keep s).pending = s.pending := rfl
@[simp] theorem State.keep_self (s : State) : s.keep s = s := rfl

@[simp] theorem when_true (f : State → State) (s : State) : when true f s = f s := rfl
@[simp] theorem when_false (f : State → State) (s : State) : when false f s = s := rfl

theorem when_eq (b : Bool) (f : State → State) (s : State) : when b f s = s ∨ when b f s = f s := by
  cases b <;> simp

/-- An event with a due time changes nothing when nothing has armed it; otherwise it acts once TIME has reached it. -/
theorem State.timed_cases (due : Option Nat) (f : State → State) (s : State) :
    (due = none ∧ State.timed due f s = .next s) ∨
    (∃ d, due = some d ∧ State.timed due f s = .next ((f (s.passTo d)).keep (s.passTo d))) := by
  cases due with
  | none => exact .inl ⟨rfl, rfl⟩
  | some d => exact .inr ⟨d, rfl, rfl⟩

@[simp] theorem State.passTo_time (d : Nat) (s : State) : (s.passTo d).time = max s.time d := rfl
@[simp] theorem State.passTo_otp (d : Nat) (s : State) : (s.passTo d).otp = s.otp := rfl
@[simp] theorem State.passTo_pending (d : Nat) (s : State) : (s.passTo d).pending = s.pending := rfl

/-- The passing of time touches TIME and the journal's hold counter alone. -/
theorem State.passTo_only (d : Nat) (s : State) :
    ∃ n, s.passTo d = { s with time := max s.time d, pair := { s.pair with jrnlHold := n } } := by
  unfold State.passTo
  cases s.jrnlRoom
  · exact ⟨_, rfl⟩
  · exact ⟨s.pair.jrnlHold, rfl⟩

theorem State.idle_only (s : State) :
    ∃ n d, s.idle = { s with time := max s.time d, pair := { s.pair with jrnlHold := n } } := by
  unfold State.idle
  split
  · obtain ⟨n, h⟩ := s.passTo_only (s.time + 1)
    exact ⟨n, _, h⟩
  · exact ⟨s.pair.jrnlHold, s.time, by simp⟩

/-! ### Tokens -/

/-- The CRC covers no bit of itself. -/
theorem Tok.crcOk_of_crc (t : Tok) (c : BitVec 16) (h : c = crc16 t.image18) : ({ t with crc := c } : Tok).crcOk = true := by
  have hi : ({ t with crc := c } : Tok).image18 = t.image18 := rfl
  unfold Tok.crcOk
  rw [hi]
  exact beq_iff_eq.mpr h

/-- A token passes the CRC check after its creator has computed its CRC. -/
@[simp] theorem Tok.sealed_crcOk (t : Tok) : t.sealed.crcOk = true := by
  delta Tok.sealed
  exact t.crcOk_of_crc _ rfl

/-- A fence that arrives while a batch is under way is counted, whatever its content. -/
theorem execFenceToken_some (ep : KillEnd) (f : Fence) (s : State) (h : s.cm.fence = some f) :
    execFenceToken ep s = State.plain (State.fenceCount ep f) s := by
  simp only [execFenceToken, State.plain_eq, State.fenceTok, Tok.sealed_crcOk, if_true, h]

/-! ### Events, alerts, messages -/

theorem State.eventA_only (al : Bool) (c i k a : Nat) (s : State) : ∃ r, s.eventA al c i k a = { s with rcd := r } := ⟨_, rfl⟩

theorem State.event_only (c i k a : Nat) (s : State) : ∃ r, s.event c i k a = { s with rcd := r } := ⟨_, rfl⟩

/-- An intake holds one entry more when an event enters it. -/
@[simp] theorem intakeAdd_length (l : List EvReq) (e : EvReq) : (intakeAdd l e).length = l.length + 1 := by
  induction l with
  | nil => rfl
  | cons x r ih => simp only [intakeAdd]; split <;> simp [*]

/-- The entries after an event has entered are those before it and the event. -/
theorem mem_intakeAdd (l : List EvReq) (e x : EvReq) : x ∈ intakeAdd l e ↔ x = e ∨ x ∈ l := by
  induction l with
  | nil => simp [intakeAdd]
  | cons y r ih => simp only [intakeAdd]; split <;> simp [ih, or_left_comm]

/-- An event that comes ahead of no entry of its fc goes to the end. -/
theorem intakeAdd_last (l : List EvReq) (e : EvReq) (h : ∀ x ∈ l, e.ahead x = false) : intakeAdd l e = l ++ [e] := by
  induction l with
  | nil => rfl
  | cons y r ih => simp [intakeAdd, h y (by simp), ih fun x hx => h x (by simp [hx])]

/-- With room at the intake an event enters it, and nothing else of the recorder changes. -/
theorem State.eventA_room (al : Bool) (c i k a : Nat) (s : State) (h : s.rcd.intake.length < 64) :
    (s.eventA al c i k a).rcd = { s.rcd with
      intake := intakeAdd s.rcd.intake { code := k, cls := c, inst := i, arg := a % 2 ^ 64, alert := al, time := s.time,
                                         coarse := s.coarse } } := by
  simp [State.eventA, State.eventReq, Nat.not_le.mpr h]

/-- With the intake full the last event is dropped and counted. -/
theorem State.eventA_full (al : Bool) (c i k a : Nat) (s : State) (h : 64 ≤ s.rcd.intake.length) :
    (s.eventA al c i k a).rcd = { s.rcd with
      intake := (intakeAdd s.rcd.intake { code := k, cls := c, inst := i, arg := a % 2 ^ 64, alert := al, time := s.time,
                                          coarse := s.coarse }).take 64,
      lostCnt := sat32 s.rcd.lostCnt 1, lostPend := s.rcd.lostPend + 1 } := by
  simp [State.eventA, State.eventReq, h]

theorem State.msix0_only (v : Nat) (s : State) : ∃ h, s.msix0 v = { s with host := h } := ⟨_, rfl⟩

theorem State.msix1_only (v : Nat) (s : State) : ∃ h, s.msix1 v = { s with host := h } := ⟨_, rfl⟩

theorem State.ibi_only (k : Nat) (s : State) : ∃ i, s.ibi k = { s with i3c := i } := ⟨_, rfl⟩

/-- A note of the fc touches the log of the fc alone. -/
theorem State.note_only (k : FcKey) (n : Nat) (s : State) : ∃ l, s.note k n = { s with fc := l } := ⟨_, rfl⟩
theorem State.noteCap_only (l v : Nat) (s : State) : ∃ g, s.noteCap l v = { s with fc := g } := ⟨_, rfl⟩

@[simp] theorem State.fcNow_at (s : State) : s.fcNow.at_ = s.time := by
  unfold State.fcNow
  split
  · assumption
  · rfl

/-- Taking captures back touches the compare units and the log of the fc alone. -/
theorem State.unCapt_only (cs : List (Nat × Nat × Cu)) (s : State) : ∃ u g, s.unCapt cs = { s with cus := u, fc := g } := by
  have fold : ∀ (l : List (Nat × Nat × Cu)) (s : State),
      ∃ u, l.foldl (fun s c => s.updCu c.1 fun x => x.before c.2.2) s = { s with cus := u } := by
    intro l
    induction l with
    | nil => exact fun s => ⟨_, rfl⟩
    | cons c r ih =>
      intro s
      obtain ⟨u, e⟩ := ih (s.updCu c.1 fun x => x.before c.2.2)
      exact ⟨u, e⟩
  unfold State.unCapt
  split
  · exact ⟨_, _, rfl⟩
  · obtain ⟨u, e⟩ := fold cs { s with fc := { s.fcNow with caps := s.fcNow.caps.filter fun c => !cs.contains c } }
    exact ⟨u, _, e⟩

@[simp] theorem State.unCapt_nil (s : State) : s.unCapt [] = s := rfl

@[simp] theorem Peg.now_held (p : Peg) (t : Nat) : (p.now t).held = p.held := by unfold Peg.now; split <;> rfl
@[simp] theorem Peg.now_owner (p : Peg) (t : Nat) : (p.now t).owner = p.owner := by unfold Peg.now; split <;> rfl
@[simp] theorem Peg.now_ownerId (p : Peg) (t : Nat) : (p.now t).ownerId = p.ownerId := by unfold Peg.now; split <;> rfl
@[simp] theorem Peg.now_waits (p : Peg) (t : Nat) : (p.now t).waits = p.waits := by unfold Peg.now; split <;> rfl
@[simp] theorem Peg.now_asksAt (p : Peg) (t : Nat) : (p.now t).asksAt = t := by
  unfold Peg.now
  split
  · assumption
  · rfl

/-- An alert touches the host interface, the I3C target and the log of the fc alone. -/
theorem State.alert_only (k : Nat) (s : State) : ∃ h i l, s.alert k = { s with host := h, i3c := i, fc := l } := by
  have step (b e : Bool) (f : State → State) (r : FcKey) (u : State) (g : HostIf → HostIf)
      (hf : ∀ u, ∃ h i, f u = { u with host := h, i3c := i }) :
      ∃ h i l, (if b then u else when e f ((u.note r 1).updHost g)) = { u with host := h, i3c := i, fc := l } := by
    split
    · exact ⟨u.host, u.i3c, u.fc, rfl⟩
    · rcases when_eq e f ((u.note r 1).updHost g) with h | h <;> rw [h]
      · exact ⟨_, _, _, rfl⟩
      · obtain ⟨h, i, e⟩ := hf ((u.note r 1).updHost g)
        exact ⟨h, i, _, e⟩
  unfold State.alert
  split
  · exact ⟨s.host, s.i3c, s.fc, rfl⟩
  · dsimp only
    obtain ⟨h, i, l, e⟩ := step (bit ((s.note (.w1c .host k) 1).note (.w1c .bmc k) 1).host.alert k)
      (bit ((s.note (.w1c .host k) 1).note (.w1c .bmc k) 1).alertEn k) (State.msix0 (18 + k)) (.rose .host k)
      ((s.note (.w1c .host k) 1).note (.w1c .bmc k) 1) (fun h => { h with alert := h.alert + 2 ^ k }) fun u => ⟨_, _, rfl⟩
    rw [e]
    obtain ⟨h', i', l', e'⟩ := step _ _ (State.ibi k) (.rose .bmc k) _ (fun h => { h with bmcAlert := h.bmcAlert + 2 ^ k })
      fun u => ⟨_, _, rfl⟩
    exact ⟨h', i', l', e'⟩

theorem State.raise_only (k : Nat) (s : State) : ∃ c, s.raise k = { s with st := c } := ⟨_, rfl⟩

theorem State.askWake_only (k : Nat) (s : State) : ∃ p, s.askWake k = { s with pwr := p } := ⟨_, rfl⟩

theorem State.wakeDom_only (d : Nat) (s : State) : ∃ p, s.wakeDom d = { s with pwr := p } := by
  unfold State.wakeDom; split
  · exact ⟨s.pwr, rfl⟩
  · exact ⟨_, rfl⟩

theorem State.fresh_snd_only (s : State) : s.fresh.2 = { s with freeCnt := s.freeCnt + 1 } := rfl

theorem State.tot_only (k : Nat) (s : State) : ∃ l, s.tot k = { s with led := l } := ⟨_, rfl⟩

theorem State.ecc_only (k : Nat) (s : State) : ∃ l, s.ecc k = { s with led := l } := ⟨_, rfl⟩

theorem State.laneClass_only (l c n : Nat) (s : State) : ∃ d, s.laneClass l c n = { s with led := d } := ⟨_, rfl⟩

theorem State.flagUnit_only (t u : Nat) (s : State) : ∃ p, s.flagUnit t u = { s with pat := p } := ⟨_, rfl⟩

/-! ### The journal, the fabric, kills, arbiters -/

theorem State.jrnl_only (ty : Nat) (l : List Nat) (d : List Byte) (s : State) : ∃ p, s.jrnl ty l d = { s with pair := p } := by
  unfold State.jrnl when; split
  · dsimp only; split <;> exact ⟨_, rfl⟩
  · exact ⟨s.pair, rfl⟩

/-- Nothing is journalled where the package does not journal. -/
theorem State.jrnl_off (ty : Nat) (l : List Nat) (d : List Byte) (s : State) (h : s.journals = false) : s.jrnl ty l d = s := by
  simp [State.jrnl, h]

theorem State.send_only (net ch src : Nat) (a b : Ep) (x : Body) (s : State) : ∃ n, s.send net ch src a b x = { s with net := n } :=
  ⟨_, rfl⟩

theorem State.notice_only (x : Notice) (s : State) : ∃ n, s.notice x = { s with net := n } := ⟨_, rfl⟩

theorem State.askKill_only (k : KillReq) (s : State) : ∃ c, s.askKill k = { s with cm := c } := ⟨_, rfl⟩

theorem State.noteIdle_only (s : State) : ∃ p, s.noteIdle = { s with pwr := p } := ⟨_, rfl⟩

/-- A command that lands at an arbiter joins its object's open window, or opens one. -/
theorem State.land_only (o : ArbObj) (r : Nat) (w : Arb) (s : State) : ∃ l, s.land o r w = { s with arb := l } := by
  unfold State.land; dsimp only; split <;> exact ⟨_, rfl⟩

/-! ### Memories -/

theorem State.ddrPut_only (a : Nat) (bs : List Byte) (s : State) :
    ∃ m p u, s.ddrPut a bs = { s with ddr := m, ddrPoison := p, ddrUpset := u } := ⟨_, _, _, rfl⟩

/-- A fold of operations that write only one part of the state writes only that part. -/
theorem State.foldl_ddrs {α : Type} (f : State → α → State) (h : ∀ s x, ∃ d, f s x = { s with ddrs := d }) (l : List α)
    (s : State) : ∃ d, l.foldl f s = { s with ddrs := d } := by
  induction l generalizing s with
  | nil => exact ⟨s.ddrs, rfl⟩
  | cons x r ih =>
    obtain ⟨d, e⟩ := h s x
    obtain ⟨d', e'⟩ := ih (f s x)
    exact ⟨d', by rw [List.foldl_cons, e', e]⟩

theorem State.foldl_net {α : Type} (f : State → α → State) (h : ∀ s x, ∃ d, f s x = { s with net := d }) (l : List α)
    (s : State) : ∃ d, l.foldl f s = { s with net := d } := by
  induction l generalizing s with
  | nil => exact ⟨s.net, rfl⟩
  | cons x r ih =>
    obtain ⟨d, e⟩ := h s x
    obtain ⟨d', e'⟩ := ih (f s x)
    exact ⟨d', by rw [List.foldl_cons, e', e]⟩

/-- The charge of an access touches the channels' records alone (R353). -/
theorem State.charge_only (u a n : Nat) (wr : Bool) (s : State) : ∃ d, s.charge u a n wr = { s with ddrs := d } :=
  State.foldl_ddrs _ (fun _ _ => ⟨_, rfl⟩) _ _

/-- The dropping of cached lines that a write asks for waits as notices (R352). -/
theorem State.invalidate_only (a n : Nat) (s : State) : ∃ k, s.invalidate a n = { s with net := k } := by
  unfold State.invalidate
  split
  · exact ⟨s.net, rfl⟩
  · refine State.foldl_net _ (fun s x => ?_) _ _
    split
    · exact ⟨_, rfl⟩
    · exact ⟨s.net, rfl⟩

/-- A write of DDR5 stores its bytes, charges its user and asks for the dropping of cached lines; nothing else changes. -/
theorem State.ddrWr_only (u a : Nat) (bs : List Byte) (s : State) :
    ∃ d p x k, s.ddrWr u a bs =
      { s with ddrs := d, ddr := Mem.writeBytes 0 s.ddr a bs, ddrPoison := p, ddrUpset := x, net := k } := by
  obtain ⟨d, e⟩ := s.charge_only u a bs.length true
  unfold State.ddrWr
  rw [e]
  obtain ⟨k, e'⟩ := State.invalidate_only a bs.length (State.ddrPut a bs { s with ddrs := d })
  exact ⟨d, _, _, k, e'⟩

theorem State.ddrWr_wf (u a : Nat) (bs : List Byte) (s : State) (h : s.ddr.wf 0 = true) : (s.ddrWr u a bs).ddr.wf 0 = true := by
  obtain ⟨d, p, x, k, e⟩ := s.ddrWr_only u a bs
  rw [e]
  exact Mem.writeBytes_wf a bs h

theorem State.ddrPut_wf (a : Nat) (bs : List Byte) (s : State) (h : s.ddr.wf 0 = true) : (s.ddrPut a bs).ddr.wf 0 = true :=
  Mem.writeBytes_wf a bs h

theorem State.shelfPut_wf (a : Nat) (bs : List Byte) (s : State) (h : s.shelf.wf 0 = true) : (s.shelfPut a bs).shelf.wf 0 = true :=
  Mem.writeBytes_wf a bs h

theorem State.hostPut_wf (a : Nat) (bs : List Byte) (s : State) (h : s.host.mem.wf 0 = true) :
    (s.hostPut a bs).host.mem.wf 0 = true := Mem.writeBytes_wf a bs h

/-- What DDR5 reads as after a store. -/
theorem State.ddrPut_read (a p : Nat) (bs : List Byte) (s : State) (h : s.ddr.wf 0 = true) :
    Mem.read 0 (s.ddrPut a bs).ddr p = if a ≤ p ∧ p < a + bs.length then bs.getD (p - a) 0 else Mem.read 0 s.ddr p :=
  Mem.read_writeBytes h a p bs

/-- A store into DDR5 changes no byte outside it. -/
theorem State.ddrPut_read_out (a p : Nat) (bs : List Byte) (s : State) (h : p < a ∨ a + bs.length ≤ p) :
    Mem.read 0 (s.ddrPut a bs).ddr p = Mem.read 0 s.ddr p := Mem.read_writeBytes_out _ a p bs h

/-! ### Mailboxes -/

/-- The end of a command touches the mailboxes and what carries its message. -/
theorem State.mbDone_only (m c : Nat) (r : List Byte) (s : State) :
    ∃ b h i, s.mbDone m c r = { s with mbs := b, host := h, i3c := i } := by
  simp only [State.mbDone]
  repeat' split
  all_goals exact ⟨_, _, _, rfl⟩

theorem State.finish_only (m c : Nat) (r : List Byte) (s : State) :
    ∃ b h i, s.finish m c r = { s with mbs := b, host := h, i3c := i } := by
  unfold State.finish; split
  · exact ⟨_, _, _, rfl⟩
  · split
    · exact ⟨_, _, _, rfl⟩
    · exact s.mbDone_only m c r

/-- The mailbox that a completion names is DONE with its status and its response. -/
theorem State.mbDone_mb (m c : Nat) (r : List Byte) (s : State) : (s.mbDone m c r).mb m =
    { s.mb m with data := padTo 224 r, rspLen := r.length, time := s.time, status := c, state := 3, held := none } := by
  have h : (s.mbDone m c r).mbs = s.mbs.put m
      { s.mb m with data := padTo 224 r, rspLen := r.length, time := s.time, status := c, state := 3, held := none } := by
    simp only [State.mbDone]
    split
    · rfl
    · split <;> rfl
  unfold State.mb at h ⊢
  rw [h, Tbl.get_put, if_pos rfl]

/-- A mailbox command is not there, waits, ends at a check, repeats a replayed outcome, or acts. -/
theorem State.serveMb_cases (m id forms form len : Nat) (named : List (Nat × Nat)) (enc absent : List Byte → Bool) (arb : Bool)
    (act : List Byte → State → State) (s : State) (P : State → Prop) (idle : P s) (wake : P (s.wakeDom 1))
    (ends : ∀ x c r, P ((s.updMb m x).mbDone m c r))
    (acts : s.mbCheck m len named (enc (s.mb m).args && (forms ≤ 1 || ((s.mb m).args.getD 0 0).toNat < forms))
        (absent (s.mb m).args) = none → (s.mb m).state = 1 → (s.mb m).cmdId = id →
      P (act (s.mb m).args ((when (mbJournalled id && !arb) (State.hostCmd m) (s.updMb m fun x =>
        { x with id := x.cmdId, tag := x.cmdTag, rspLen := 0, st := (Tbl.get {} s.st.routes m).st })).updMb m fun x =>
          { x with state := 2 }))) :
    P (s.serveMb m id forms form len named enc absent arb act) := by
  unfold State.serveMb
  dsimp only
  split
  · exact idle
  · next h =>
    have h1 : (s.mb m).state = 1 := by simp_all
    have h2 : (s.mb m).cmdId = id := by simp_all
    split
    · exact wake
    · split
      · exact ends _ _ _
      · next hc =>
        have ha := acts hc h1 h2
        split
        · split
          · exact ends _ _ _
          · split
            · exact idle
            · exact ha
        · split
          · exact idle
          · exact ha

/-! ### Steward instructions -/

/-- A steward instruction: a core that does not run does nothing; a word that cannot be fetched, or is reserved, enters its
exception; a word of another instruction is left alone; else the instruction acts. -/
theorem State.stStep_cases (st : Nat) (kind : Nat → Bool) (f : Nat → State → State) (s : State) (P : State → Prop) (idle : P s)
    (fetch : (s.core st).fetch = none → P (s.enter st eIFetch (s.core st).pc))
    (illegal : ∀ w, (s.core st).fetch = some w → P (s.enter st eIllegal w))
    (acts : ∀ w, s.stAlive st = true → (s.core st).fetch = some w → sReserved w = false → kind w = true → sUnused w = false →
      P (f w s)) : P (s.stStep st kind f) := by
  unfold State.stStep
  split
  · exact idle
  · next ha =>
    split
    · next h => exact fetch h
    · next w h =>
      split
      · exact illegal w h
      · next hr =>
        split
        · exact idle
        · next hk =>
          split
          · exact illegal w h
          · next hu => exact acts w (by simpa using ha) h (by simpa using hr) (by simpa using hk) (by simpa using hu)

end Sys2Proof.Machine
end

