-- ==== Sys2Proof/Laws/Safety.lean ====
section
/-! SUPPORT. The canonical form of the memories at reset. -/

namespace Sys2Proof.Machine
open Sys2Proof

/-- Reset's memories list nothing. -/
theorem State.reset_memsWf : State.reset.memsWf := by decide

end Sys2Proof.Machine
end

