-- ==== Sys2Proof/WellFormed.lean ====
section
/-! DEFINITION. Which commands name units that the largest part has: every operand that numbers a unit lies in its
range (Table 00-1, R1). A unit that a smaller part leaves out is met by the meaning itself. -/

namespace Sys2Proof

/-- Physical PEs 0 to 63 and spares 64 to 67 (R19). -/
def okPe (n : Nat) : Bool := decide (n < 68)

/-- An arbitrated object names a unit that exists. -/
def ArbObj.wf : ArbObj → Bool
  | .site n => decide (n < 128)
  | .domain n => decide (n < 50)
  | .throttle => true
  | .rule n => decide (n < 64)
  | .pairRole => true

/-- A command comes from a mailbox or a steward that exists. -/
def CmdSrc.wf : CmdSrc → Bool
  | .mb n => decide (n < 32)
  | .port st _ => decide (st < 4)

/-- A kill or a fence names an endpoint that exists. -/
def KillEnd.wf : KillEnd → Bool
  | .pe n => okPe n
  | .lg n => decide (n < 16)
  | .istr => true

/-- A steward's port space names a steward that exists. -/
def Space.wf : Space → Bool
  | .io st => decide (st < 4)
  | .bar0 => true
  | .pf1 => true
  | .i3c => true
  | .cfg f => decide (f < 2)

/-- An error strikes a structure that exists. -/
def Upset.wf : Upset → Bool
  | .cell pe n _ => okPe pe && decide (n < 4096)
  | .fail l _ => decide (l < 128)
  | .table k _ => decide (k < 128)
  | .burst k => decide (k < 128)
  | .tally u sp _ => decide (u < 4) && decide (sp < 256)
  | .context n _ => decide (n < 65536)
  | .iword st a _ => decide (st < 4) && decide (a < 2 ^ 18)
  | .dword st a _ => decide (st < 4) && decide (a < 2 ^ 18)
  | .record n _ => decide (n < 4096)
  | .ledger k n _ => decide (k < 7) && decide (n < 1024)

/-- Every unit number of a command lies in its range. -/
def Instr.wf : Instr → Bool
  | .tokenEnqueue pe => okPe pe
  | .matchDecision pe upset => okPe pe && upset.all fun u => decide (u.1 < 131072)
  | .cabinetLookupReturn pe upset => okPe pe && upset.all fun u => decide (u.1 < 2 ^ 26)
  | .spillAck pe => okPe pe
  | .cabinetSweepBucket => true
  | .capacityAbort => true
  | .overflowRefill pe => okPe pe
  | .fkRelease pe => okPe pe
  | .firingIssue pe pipe => okPe pe && decide (pipe < 2)
  | .add pe pipe => okPe pe && decide (pipe < 2)
  | .sub pe pipe => okPe pe && decide (pipe < 2)
  | .and pe pipe => okPe pe && decide (pipe < 2)
  | .or pe pipe => okPe pe && decide (pipe < 2)
  | .xor pe pipe => okPe pe && decide (pipe < 2)
  | .andn pe pipe => okPe pe && decide (pipe < 2)
  | .shl pe pipe => okPe pe && decide (pipe < 2)
  | .shr pe pipe => okPe pe && decide (pipe < 2)
  | .sar pe pipe => okPe pe && decide (pipe < 2)
  | .rotl pe pipe => okPe pe && decide (pipe < 2)
  | .min pe pipe => okPe pe && decide (pipe < 2)
  | .max pe pipe => okPe pe && decide (pipe < 2)
  | .minu pe pipe => okPe pe && decide (pipe < 2)
  | .maxu pe pipe => okPe pe && decide (pipe < 2)
  | .mul pe pipe => okPe pe && decide (pipe < 2)
  | .mulhu pe pipe => okPe pe && decide (pipe < 2)
  | .mulhs pe pipe => okPe pe && decide (pipe < 2)
  | .divu pe pipe => okPe pe && decide (pipe < 2)
  | .divs pe pipe => okPe pe && decide (pipe < 2)
  | .remu pe pipe => okPe pe && decide (pipe < 2)
  | .rems pe pipe => okPe pe && decide (pipe < 2)
  | .rdtime pe pipe => okPe pe && decide (pipe < 2)
  | .ceq pe pipe => okPe pe && decide (pipe < 2)
  | .cne pe pipe => okPe pe && decide (pipe < 2)
  | .clt pe pipe => okPe pe && decide (pipe < 2)
  | .cle pe pipe => okPe pe && decide (pipe < 2)
  | .cltu pe pipe => okPe pe && decide (pipe < 2)
  | .cleu pe pipe => okPe pe && decide (pipe < 2)
  | .btst pe pipe => okPe pe && decide (pipe < 2)
  | .switch pe pipe => okPe pe && decide (pipe < 2)
  | .merge pe pipe => okPe pe && decide (pipe < 2)
  | .gate pe pipe => okPe pe && decide (pipe < 2)
  | .fan pe pipe => okPe pe && decide (pipe < 2)
  | .setflow pe pipe => okPe pe && decide (pipe < 2)
  | .nextiter pe pipe => okPe pe && decide (pipe < 2)
  | .setiter pe pipe => okPe pe && decide (pipe < 2)
  | .newctx pe pipe => okPe pe && decide (pipe < 2)
  | .sendTag pe pipe => okPe pe && decide (pipe < 2)
  | .returnLink pe pipe => okPe pe && decide (pipe < 2)
  | .freectx pe pipe => okPe pe && decide (pipe < 2)
  | .gettag pe pipe => okPe pe && decide (pipe < 2)
  | .iload pe pipe => okPe pe && decide (pipe < 2)
  | .istore pe pipe => okPe pe && decide (pipe < 2)
  | .resetElem pe pipe => okPe pe && decide (pipe < 2)
  | .istructRequest dc => decide (dc < 8)
  | .ldMem pe pipe => okPe pe && decide (pipe < 2)
  | .stMem pe pipe => okPe pe && decide (pipe < 2)
  | .swapMem pe pipe => okPe pe && decide (pipe < 2)
  | .casMem pe pipe => okPe pe && decide (pipe < 2)
  | .faddMem pe pipe => okPe pe && decide (pipe < 2)
  | .farOr pe pipe => okPe pe && decide (pipe < 2)
  | .fmaxuMem pe pipe => okPe pe && decide (pipe < 2)
  | .atomicService unit err => decide (unit < 9) && decide (err < 3)
  | .atomicAging unit => decide (unit < 9)
  | .burstSite pe pipe => okPe pe && decide (pipe < 2)
  | .haltSite pe pipe => okPe pe && decide (pipe < 2)
  | .branchSite pe pipe => okPe pe && decide (pipe < 2)
  | .sitectl pe pipe => okPe pe && decide (pipe < 2)
  | .cohortCopy quad => decide (quad < 16)
  | .laneBurst lg => decide (lg < 16)
  | .laneHalt lg => decide (lg < 16)
  | .laneBranch site => decide (site < 128)
  | .pause site => decide (site < 128)
  | .resume site => decide (site < 128)
  | .rearm site => decide (site < 128)
  | .reflexOn site => decide (site < 128)
  | .reflexOff site => decide (site < 128)
  | .release site => decide (site < 128)
  | .completionNotice lg => decide (lg < 16)
  | .arbiterWindowClose obj => obj.wf
  | .appendRec pe pipe => okPe pe && decide (pipe < 2)
  | .commitRec pe pipe => okPe pe && decide (pipe < 2)
  | .outletAppendAccept outlet port => decide (outlet < 2) && decide (port < 4)
  | .outletCommitAccept outlet port => decide (outlet < 2) && decide (port < 4)
  | .poisonMark outlet port => decide (outlet < 2) && decide (port < 4)
  | .popc pe pipe => okPe pe && decide (pipe < 2)
  | .ffs pe pipe => okPe pe && decide (pipe < 2)
  | .bitscatter pe pipe => okPe pe && decide (pipe < 2)
  | .bitgather pe pipe => okPe pe && decide (pipe < 2)
  | .unscramble pe pipe => okPe pe && decide (pipe < 2)
  | .tally pe pipe => okPe pe && decide (pipe < 2)
  | .tallySetup tu => decide (tu < 4)
  | .tallyAdd tu => decide (tu < 4)
  | .tallyQryRow tu => decide (tu < 4)
  | .tallyQryCol tu => decide (tu < 4)
  | .tallyScan tu => decide (tu < 4)
  | .tallyClear tu => decide (tu < 4)
  | .hsum pe pipe => okPe pe && decide (pipe < 2)
  | .hmaxu pe pipe => okPe pe && decide (pipe < 2)
  | .hminu pe pipe => okPe pe && decide (pipe < 2)
  | .hnz pe pipe => okPe pe && decide (pipe < 2)
  | .vaddsu pe pipe => okPe pe && decide (pipe < 2)
  | .reservedOpcodeTrap pe pipe => okPe pe && decide (pipe < 2)
  | .trapReturnArrival pe => okPe pe
  | .memoryResponse pe => okPe pe
  | .contextReply pe => okPe pe
  | .outletAnswer pe => okPe pe
  | .contextGrant => true
  | .contextTableMissFill => true
  | .loadBlock mb => decide (mb < 32)
  | .unloadBlock mb => decide (mb < 32)
  | .siteMapImage mb => decide (mb < 32)
  | .siteMapCohort mb => decide (mb < 32)
  | .siteRejoin mb => decide (mb < 32)
  | .siteRetire mb => decide (mb < 32)
  | .laneSend mb => decide (mb < 16)
  | .laneRecv mb => decide (mb < 16)
  | .jobSubmit mb => decide (mb < 32)
  | .doorbellSubmit _ => true
  | .descriptorFetchDone _ => true
  | .doorbellHeldRelease => true
  | .jobAbortByJob mb => decide (mb < 32)
  | .jobAbortByCookie mb => decide (mb < 32)
  | .jobAdmission => true
  | .runLimitExpiry job => decide (job < 65536)
  | .contextKill => true
  | .killNotice ep => ep.wf
  | .killAck => true
  | .completionPost => true
  | .fenceToken ep => ep.wf
  | .fenceBatchStart => true
  | .contextFreed ctx => decide (ctx < 2 ^ 20)
  | .outletConfigOutlet mb => decide (mb < 32)
  | .outletConfigCompare mb => decide (mb < 32)
  | .pairStatus mb => decide (mb < 16)
  | .pairSwap mb => decide (mb < 32)
  | .pairReseat mb => decide (mb < 16)
  | .fwStage mb => decide (mb < 16)
  | .fwActivate mb => decide (mb < 16)
  | .fwConfirm mb => decide (mb < 16)
  | .fwRevert mb => decide (mb < 16)
  | .tamperClearChallenge mb => decide (mb < 16)
  | .tamperClearAnswer mb => decide (mb < 16)
  | .keyLoad mb => decide (mb < 16)
  | .extLoad mb => decide (mb < 16)
  | .extUnload mb => decide (mb < 16)
  | .ledgerRead mb => decide (mb < 16)
  | .eventsRead mb => decide (mb < 16)
  | .powerPolicyDomain src => src.wf
  | .powerPolicyInsertions mb => decide (mb < 32)
  | .powerPolicyThrottle mb => decide (mb < 32)
  | .sentinelRulesRead mb => decide (mb < 16)
  | .sentinelRulesWrite src => src.wf
  | .sentinelRulesDisable src => src.wf
  | .snRuleCopy => true
  | .traceConfig mb => decide (mb < 16)
  | .flashErase mb => decide (mb < 16)
  | .flashProgram mb => decide (mb < 16)
  | .flashRead mb => decide (mb < 16)
  | .getInfo mb => decide (mb < 16)
  | .getCaps mb => decide (mb < 16)
  | .flashUnitStep cs => decide (cs < 2)
  | .msixPendingSend fn _ => decide (fn < 2)
  | .pf0Reset _ => true
  | .pf1Reset _ => true
  | .pf1ModerationTimer outlet => decide (outlet < 2)
  | .bar2Write _ _ => true
  | .entdaa addr => decide (addr < 2 ^ 64)
  | .rstdaa => true
  | .enec _ => true
  | .disec _ => true
  | .getpid => true
  | .getbcr => true
  | .getdcr => true
  | .getstatus => true
  | .getmwl => true
  | .getmrl => true
  | .rstact => true
  | .i3cPrivateWrite _ => true
  | .i3cPrivateRead _ => true
  | .inBandInterrupt _ => true
  | .pegAcquire _ _ n => decide (n < 1024)
  | .pegAcquireWait st n _ => decide (st < 4) && decide (n < 1024)
  | .pegRelease _ _ n => decide (n < 1024)
  | .partnerPegAcquire n => decide (n < 1024)
  | .partnerPegRead n => decide (n < 1024)
  | .partnerPegRelease n => decide (n < 1024)
  | .partnerPegResult _ => true
  | .tokenInject st => decide (st < 4)
  | .ctlMessageQueue lg => decide (lg < 16)
  | .ctlFifoPopRead lg _ => decide (lg < 16)
  | .evrGo => true
  | .evrRdIdxWrite _ => true
  | .evrRdDataRead => true
  | .veIndAccess lane _ => decide (lane < 128)
  | .latchingRead space addr => space.wf && decide (addr < 2 ^ 64)
  | .msCntClr pe => okPe pe
  | .schedCntClr pe => okPe pe
  | .veCntClr lane => decide (lane < 128)
  | .cuCntClr lane _ => decide (lane < 128)
  | .cuFloodClr lane => decide (lane < 128)
  | .floodClr idx _ => decide (idx < 4)
  | .lpCntClr lane => decide (lane < 128)
  | .laneRetrain lane => decide (lane < 128)
  | .laneForceDown lane => decide (lane < 128)
  | .traceArm => true
  | .traceTriggerNow => true
  | .traceStop => true
  | .traceCollectorWrite quad => decide (quad < 16)
  | .outRdWrite outlet _ => decide (outlet < 2)
  | .jqCrHeadWrite _ => true
  | .completionRingEnable _ => true
  | .cabCfgWrite _ => true
  | .ddrShareWrite user _ => decide (user < 8)
  | .dcCfgEnable chan _ => decide (chan < 8)
  | .pwrAvsWrite _ => true
  | .tmpCfgWrite _ => true
  | .snKillHoldWrite _ => true
  | .scCtlInvalidate st => decide (st < 4)
  | .dspFlagsSet st slot _ => decide (st < 4) && decide (slot < 32)
  | .dspFlagsClr st slot _ => decide (st < 4) && decide (slot < 32)
  | .dspXsig st slot _ => decide (st < 4) && decide (slot < 32)
  | .dspStart st slot => decide (st < 4) && decide (slot < 32)
  | .dspStop st slot => decide (st < 4) && decide (slot < 32)
  | .dspFree st slot => decide (st < 4) && decide (slot < 32)
  | .dspCtlWrite st slot _ => decide (st < 4) && decide (slot < 32)
  | .registerWrite space addr _ => space.wf && decide (addr < 2 ^ 64)
  | .stAdd st => decide (st < 4)
  | .stSub st => decide (st < 4)
  | .stAnd st => decide (st < 4)
  | .stOr st => decide (st < 4)
  | .stXor st => decide (st < 4)
  | .stAndn st => decide (st < 4)
  | .stShl st => decide (st < 4)
  | .stShr st => decide (st < 4)
  | .stSar st => decide (st < 4)
  | .stRotl st => decide (st < 4)
  | .slt st => decide (st < 4)
  | .sltu st => decide (st < 4)
  | .stMul st => decide (st < 4)
  | .stMulhu st => decide (st < 4)
  | .stMulhs st => decide (st < 4)
  | .stDivu st => decide (st < 4)
  | .stRemu st => decide (st < 4)
  | .stDivs st => decide (st < 4)
  | .stRems st => decide (st < 4)
  | .addi st => decide (st < 4)
  | .slti st => decide (st < 4)
  | .sltiu st => decide (st < 4)
  | .andi st => decide (st < 4)
  | .ori st => decide (st < 4)
  | .xori st => decide (st < 4)
  | .shiShl st => decide (st < 4)
  | .shiShr st => decide (st < 4)
  | .shiSar st => decide (st < 4)
  | .shiRotl st => decide (st < 4)
  | .lui st => decide (st < 4)
  | .lb st => decide (st < 4)
  | .lbu st => decide (st < 4)
  | .lh st => decide (st < 4)
  | .lhu st => decide (st < 4)
  | .lw st => decide (st < 4)
  | .sb st => decide (st < 4)
  | .sh st => decide (st < 4)
  | .sw st => decide (st < 4)
  | .storeResponse st => decide (st < 4)
  | .beq st => decide (st < 4)
  | .bne st => decide (st < 4)
  | .blt st => decide (st < 4)
  | .bge st => decide (st < 4)
  | .bltu st => decide (st < 4)
  | .bgeu st => decide (st < 4)
  | .jump st => decide (st < 4)
  | .call st => decide (st < 4)
  | .jr st => decide (st < 4)
  | .callr st => decide (st < 4)
  | .ret st => decide (st < 4)
  | .inPort st => decide (st < 4)
  | .outPort st => decide (st < 4)
  | .atomSwap st => decide (st < 4)
  | .atomCas st => decide (st < 4)
  | .atomFadd st => decide (st < 4)
  | .atomFor st => decide (st < 4)
  | .atomFmaxu st => decide (st < 4)
  | .syscall st => decide (st < 4)
  | .breakpoint st => decide (st < 4)
  | .rete st => decide (st < 4)
  | .fence st => decide (st < 4)
  | .waitany st => decide (st < 4)
  | .waitall st => decide (st < 4)
  | .yield st => decide (st < 4)
  | .mfpsw st => decide (st < 4)
  | .mtpsw st => decide (st < 4)
  | .irdw st => decide (st < 4)
  | .iwrw st => decide (st < 4)
  | .rspush st => decide (st < 4)
  | .rspop st => decide (st < 4)
  | .rsdepth st => decide (st < 4)
  | .cinv st => decide (st < 4)
  | .stHalt st => decide (st < 4)
  | .stewardAdoption st => decide (st < 4)
  | .stewardClusterRestart => true
  | .exit st => decide (st < 4)
  | .event st => decide (st < 4)
  | .taskStart st => decide (st < 4)
  | .info st => decide (st < 4)
  | .trapNext st => decide (st < 4)
  | .trapReturn st => decide (st < 4)
  | .eventRouted _ => true
  | .waitTimeout st slot => decide (st < 4) && decide (slot < 32)
  | .preemption st => decide (st < 4)
  | .dspTimerExpiry => true
  | .cacheInvalidation st _ => decide (st < 4)
  | .vectorStage site => decide (site < 128)
  | .fretWrite lane => decide (lane < 128)
  | .playbackRecordFetch reader => decide (reader < 32)
  | .flitSlotStart lane => decide (lane < 128)
  | .captReceived lane ty _ _ _ err => decide (lane < 128) && decide (ty < 16) && decide (err < 4)
  | .reflexStop site => decide (site < 128)
  | .fretDeadline lane err => decide (lane < 128) && decide (err < 3)
  | .failTokenInject lg => decide (lg < 16)
  | .summaryIntervalEnd lane => decide (lane < 128)
  | .heldRecordWrite lane => decide (lane < 128)
  | .haltRptReceived lane _ _ => decide (lane < 128)
  | .haltReportTimeout lane => decide (lane < 128)
  | .linkStatusReceived lane _ _ => decide (lane < 128)
  | .creditRefreshDue lane => decide (lane < 128)
  | .ctrlReceived lane _ => decide (lane < 128)
  | .ctrlRetransmit lane => decide (lane < 128)
  | .measReceived lane _ _ => decide (lane < 128)
  | .trainReceived lane _ _ => decide (lane < 128)
  | .noIntactFlitTimeout lane => decide (lane < 128)
  | .stimCreditTimeout lane => decide (lane < 128)
  | .signalLost lane => decide (lane < 128)
  | .signalDetected lane => decide (lane < 128)
  | .trainingPhaseTimeout lane => decide (lane < 128)
  | .eqComplete lane => decide (lane < 128)
  | .helloReceived lane _ => decide (lane < 128)
  | .helloResend lane => decide (lane < 128)
  | .outletBankSwap outlet => decide (outlet < 2)
  | .outletRecordDrain outlet upset => decide (outlet < 2) && upset.all fun u => decide (u.1 < 512) && decide (u.2 < 2 ^ 64)
  | .outletReset outlet ptr m => decide (outlet < 2) && decide (ptr < 5) && decide (m < 2 ^ 32)
  | .packetForward net chan router inport _ => decide (net < 4) && decide (chan < 8) && decide (router < 36) && decide (inport < 5)
  | .noticeBroadcast => true
  | .domainTransitionDone d => decide (d < 50)
  | .domainIdleHoldoff d => decide (d < 50)
  | .policyApply => true
  | .fabricSleepStep => true
  | .fabricWake _ => true
  | .quadTraceFlush quad => decide (quad < 16)
  | .aoTick => true
  | .railBad rail => decide (rail < 16)
  | .railGood rail => decide (rail < 16)
  | .frefLoss => true
  | .lrefLoss k => decide (k < 4)
  | .sentinelSample _ => true
  | .dpfAssert k => decide (k < 8)
  | .dpfReleaseTimer k => decide (k < 8)
  | .resetAssert => true
  | .resetRelease _ => true
  | .bootStep _ => true
  | .confirmationTimeout => true
  | .tamperAlarm _ => true
  | .entropyFailure => true
  | .pwrWarn => true
  | .ledgerSnapshot => true
  | .patrolUnit _ upset => upset.all Upset.wf
  | .peFailure pe _ => okPe pe
  | .spareInService spare => okPe spare
  | .eventRecordIntake => true
  | .recordChangeApply => true
  | .ddrScheduleWindow chan upset => decide (chan < 8) && upset.all fun u => decide (u.1 < 2 ^ 31) && decide (u.2 < 3)
  | .ddrRequestServed chan err => decide (chan < 8) && decide (err < 3)
  | .refreshDerate chan _ => decide (chan < 8)
  | .patrolScrub chan err => decide (chan < 8) && decide (err < 3)
  | .shelfAccess bank err => decide (bank < 32) && decide (err < 3)
  | .epochBoundary => true
  | .journalRecordReceived _ => true
  | .epochAck _ => true
  | .heartbeatSend => true
  | .heartbeatReceived _ => true
  | .suspicion => true
  | .confirmationExpiry => true
  | .takeover => true
  | .primClaimInChange _ => true
  | .formationTimeout => true
  | .seatMessage _ => true
  | .dualClaimCheck => true
  | .bridgeTrained _ => true
  | .bridgeLaneLoss k => decide (k < 16)
  | .mirrorWrite addr _ => decide (addr < 2 ^ 64)
  | .reseatCopyDone => true
  | .seam _ _ _ => true
  | .reseatFailure => true
  | .unprotectedJobEnd => true
  | .bridgeLossAtActive => true
  | .trigRisingEdge _ => true
  | .frefReturn => true
  | .uncorrectableCodeword lane _ symbols => decide (lane < 128) && decide (symbols ≤ 544)
  | .killSweepEnd pe => okPe pe
  | .standbyFirmwareRunning => true
  | .mbGoUndefinedId mb => decide (mb < 16)

end Sys2Proof
end

