-- ==== Sys2Proof/Tests/Slice0.lean ====
section
/-! SUPPORT. Tests: an ill-formed term for each check of WellFormed, examples of the manual, and for every statement
concrete states that meet its hypotheses and show its conclusions. -/

namespace Sys2Proof.Tests
open Sys2Proof Sys2Proof.Machine

set_option Elab.async false
set_option maxRecDepth 4000

/-! ### Helpers -/

/-- The next state of an outcome has a property. -/
def nx (o : Host.Outcome State Fault Refusal) (p : State → Bool) : Bool :=
  match o with
  | .next t => p t
  | _ => false

/-- Every domain on, a single package, otherwise as after reset. -/
def s0 : State :=
  { State.reset with
    pwr := { State.reset.pwr with doms := (List.range 64).map fun d => (d, { state := 2, reset_ := false }) },
    boot := { State.reset.boot with resetLow := false },
    rcd := { State.reset.rcd with intake := [] } }

/-- A token's value operand. -/
def tk (v : Nat) (flow : Nat := 3) (poison : Bool := false) : Tok :=
  { ctx := 7, act := 1, iter := 9, value := BitVec.ofNat 64 v, flow := BitVec.ofNat 10 flow, grp := 2, poison := poison }

/-- An actor word: opcode, ARITY, IMMSEL, low 16 bits; DST0 actor 0 port 1, DST1 actor 1 port 0, GRP 2. -/
def wd (opc ar im lo : Nat) : Nat :=
  opc * 2 ^ 56 + ar * 2 ^ 54 + im * 2 ^ 52 + 1 * 2 ^ 36 + 1 * 2 ^ 22 + 2 * 2 ^ 17 + lo

/-- A block of two actors on logical PEs 5 and 6. -/
def blk (w : Nat) : Block := { words := [w, w], place := [5, 6] }

/-- A firing with two operand tokens, FLOW 3 from the left one. -/
def fr (w a b : Nat) : Firing :=
  { word := w, block := 4, ctx := 7, act := 1, iter := 9, a := some (tk a), b := some (tk b 5), grp := 2, job := 1, flow := 5 }

/-- A fire half of PE 5 holds a firing of a live job's context. -/
def withFire (slot : Nat) (f : Firing) (s : State) : State :=
  { s with
    cm := { s.cm with blocks := s.cm.blocks.put 4 (blk f.word), jobs := s.cm.jobs.put 1 { block := 4, root := 7, sites := 0xF0 },
                      ctxs := s.cm.ctxs.put 7 { block := 4, state := 1, job := 1 } },
    pes := s.pes.put 5 { s.pe 5 with fire := [(slot, f)] } }

def firing (slot opc ar im lo a b : Nat) : State := withFire slot (fr (wd opc ar im lo) a b) s0

/-- The conclusion of `Sends`, checked. -/
def sends (s : State) (c : Instr) (pipe slot : Nat) (l : List Tok) : Bool :=
  nx (exec c s) fun t => Tbl.find (t.pe 5).fire slot = none && (t.gone 5 pipe).Perm (s.gone 5 pipe ++ l) &&
    ([0, 4, 6, 67].all fun q => t.pe q = s.pe q) && t.pe 5 = { s.pe 5 with fire := (t.pe 5).fire, outL := (t.pe 5).outL } &&
    t.time = s.time && t.cm = s.cm

def gives (s : State) (c : Instr) (pipe slot : Nat) (f : Firing) (v : Nat) : Bool :=
  sends s c pipe slot (f.results v f.poisoned f.iter f.outFlow)

/-- A command with arguments waits in a mailbox while firmware runs. -/
def call (m id : Nat) (a : List Byte) (s : State) : State :=
  { s with
    boot := { s.boot with dev := 2 },
    mbs := s.mbs.put m { cmd := id + 0x5A * 2 ^ 8 + a.length * 2 ^ 16, state := 1, data := padTo 224 a } }

/-- Little-endian fields of (width, value), joined. -/
def le (l : List (Nat × Nat)) : List Byte := l.flatMap fun p => leBytes p.1 p.2

def isAlone (s : State) : Bool := decide s.alone

/-- The hypothesis of a mailbox statement, and that the command has ended so. -/
def served (s : State) (m id len : Nat) (named : List (Nat × Nat)) : Bool := decide (s.mbServes m id len named (s.mb m).args)

def done (s t : State) (m status : Nat) (rsp : List Byte) : Bool := decide ((t.mb m).doneWith (s.mb m) status rsp)

/-- A memory that holds a byte string at an address. -/
def memOf (d : Byte) (a : Nat) (bs : List Byte) : Mem := (bs.mapIdx fun i b => (a + i, b)).filter fun c => c.2 != d

/-- A good token, its CRC right, for actor 1 of context 7. -/
def gt (port grp : Nat) (v : Nat := 5) : Tok := Tok.sealed { tk v with port := BitVec.ofNat 2 port, grp := BitVec.ofNat 3 grp }

/-- Site 9 of job 1 on lanes 9 and 10, W = 4. -/
def site9c : State :=
  { s0 with sites := [(9, { bound := true, first := 9, lanes := 2, cycU := 8, lead := 64, job := some 1, high := 5, next := 6 })],
            lanes := [(9, { state := 5 }), (10, { state := 5 })] }

/-- Steward 1's task 2 runs in firmware mode at an instruction word. -/
def stw (w : Nat) (f : Steward → Steward := id) : State :=
  { s0 with st := { s0.st with cores := [(1, f { pc := 0x1000, psw := 1, ispace := memOf 0 0x1000 (leBytes 4 w), iloaded := [1], idle := false, cur := 2, stkLo := 0x100, stkHi := 0x200, tasks := [(2, { state := 3, ctl := 5 })] })] } }

/-- Registers 2 and 3. -/
def g23 (a b : Nat) (c : Steward) : Steward := { c with g := [(1, 0x55), (2, a), (3, b)] }

def runs (s : State) (w : Nat) : Bool := s.stAlive 1 && (s.core 1).fetch == some w

/-- The state that a command leaves. -/
def outS (o : Out) : State := match o with | .next t => t | _ => s0

/-- The conclusions of `Puts`, `Jumps`, `Enters`, checked for steward 1. -/
def puts (s : State) (c : Instr) (w v : Nat) : Bool :=
  runs s w && nx (exec c s) fun t => t = s.updCore 1 fun k => { k with g := putG k.g (sRd w) v, pc := (k.pc + 4) % 2 ^ 32 }
def jumps (s : State) (c : Instr) (pc : Nat) : Bool := nx (exec c s) fun t => t = s.updCore 1 fun k => { k with pc := pc }
def enters (s : State) (c : Instr) (cause info : Nat) : Bool := nx (exec c s) fun t => t = (s.enter 1 cause info).keep s

/-- R form, rd 4, ra 2, rb 3; I form, rd 4, ra 2. -/
def wR (m fn : Nat) : Nat := m * 2 ^ 26 + 4 * 2 ^ 22 + 2 * 2 ^ 18 + 3 * 2 ^ 14 + fn
def wI (m imm : Nat) : Nat := m * 2 ^ 26 + 4 * 2 ^ 22 + 2 * 2 ^ 18 + imm

/-! ### Actor opcodes -/

/-- One opcode of two operands: the firing is held, and its value is sent. -/
def givesV (c : Instr) (slot opc lo a b v : Nat) : Bool :=
  let s := firing slot opc 1 0 lo a b
  let f := fr (wd opc 1 0 lo) a b
  (s.holds 5 slot opc f : Bool) && gives s c (slot % 2) slot f v

def M64 : Nat := 2 ^ 64 - 1

theorem witness_IntegerOpcodeResults : ((
  [givesV (.add 5 1) 1 0x01 0 M64 2 1, givesV (.sub 5 1) 1 0x02 0 1 2 M64, givesV (.and 5 0) 0 0x03 0 0b1100 0b1010 0b1000,
   givesV (.or 5 0) 0 0x04 0 0b1100 0b1010 0b1110, givesV (.xor 5 0) 0 0x05 0 0b1100 0b1010 0b0110,
   givesV (.andn 5 0) 0 0x06 0 0b1100 0b1010 0b0100, givesV (.shl 5 0) 0 0x07 0 3 127 (2 ^ 63),
   givesV (.shr 5 0) 0 0x08 0 (2 ^ 63 + 8) 67 (2 ^ 60 + 1), givesV (.sar 5 0) 0 0x09 0 (2 ^ 63) 63 M64,
   givesV (.rotl 5 0) 0 0x0A 0 (2 ^ 63 + 2) 65 5, givesV (.rotl 5 0) 0 0x0A 0 9 64 9, givesV (.min 5 0) 0 0x0B 0 1 M64 M64,
   givesV (.max 5 0) 0 0x0C 0 1 M64 1, givesV (.minu 5 0) 0 0x0D 0 1 M64 1, givesV (.maxu 5 0) 0 0x0E 0 1 M64 M64,
   givesV (.mul 5 0) 0 0x10 0 (2 ^ 63) 3 (2 ^ 63), givesV (.mulhu 5 0) 0 0x11 0 M64 M64 (M64 - 1),
   givesV (.mulhs 5 0) 0 0x12 0 M64 2 M64, givesV (.mulhs 5 0) 0 0x12 0 M64 M64 0,
   givesV (.divu 5 0) 2 0x14 0 7 0 M64, givesV (.divu 5 1) 3 0x14 0 M64 2 (2 ^ 63 - 1),
   givesV (.divs 5 0) 2 0x15 0 (2 ^ 63) M64 (2 ^ 63), givesV (.divs 5 1) 3 0x15 0 (2 ^ 64 - 7) 2 (2 ^ 64 - 3),
   givesV (.divs 5 1) 3 0x15 0 5 0 M64, givesV (.remu 5 0) 2 0x16 0 7 0 7, givesV (.remu 5 0) 2 0x16 0 7 4 3,
   givesV (.rems 5 0) 2 0x17 0 (2 ^ 63) M64 0, givesV (.rems 5 0) 2 0x17 0 (2 ^ 64 - 7) 2 M64,
   givesV (.rems 5 0) 2 0x17 0 9 0 9] : List Bool)).all id = true := by
  decide +kernel

/-- A steering firing: operands a and b, and c on the control port with r as the immediate on the right where ARITY says so. -/
def steer (opc lo a c : Nat) : State × Firing :=
  let f := { fr (wd opc 2 2 lo) a 0 with b := none, c := some (tk c), imm := some lo }
  (withFire 0 f s0, f)

theorem witness_CompareAndSteerResults : ((
  [givesV (.ceq 5 0) 0 0x20 0 5 5 1, givesV (.cne 5 0) 0 0x21 0 5 5 0, givesV (.clt 5 0) 0 0x22 0 M64 0 1,
   givesV (.cle 5 0) 0 0x23 0 0 M64 0, givesV (.cltu 5 0) 0 0x24 0 M64 0 0, givesV (.cleu 5 0) 0 0x25 0 3 3 1,
   givesV (.btst 5 0) 0 0x26 0 4 66 1,
   (let (s, f) := steer 0x28 66 11 4
    (s.holds 5 0 0x28 f : Bool) && sends s (.switch 5 0) 0 0 (f.result 0 11 false 9 3) && f.vb == 66),
   (let (s, f) := steer 0x28 65 11 4
    (s.holds 5 0 0x28 f : Bool) && sends s (.switch 5 0) 0 0 (f.result 1 11 false 9 3)),
   (let (s, f) := steer 0x29 77 11 4
    (s.holds 5 0 0x29 f : Bool) && gives s (.merge 5 0) 0 0 f 77),
   (let (s, f) := steer 0x2A 2 11 4
    (s.holds 5 0 0x2A f : Bool) && gives s (.gate 5 0) 0 0 f 11),
   (let (s, f) := steer 0x2A 1 11 4
    (s.holds 5 0 0x2A f : Bool) && sends s (.gate 5 0) 0 0 []),
   givesV (.fan 5 1) 1 0x2B 0 6 0 6,
   (let s := firing 0 0x2C 1 0 0 8 2049
    let f := fr (wd 0x2C 1 0 0) 8 2049
    (s.holds 5 0 0x2C f : Bool) && sends s (.setflow 5 0) 0 0 (f.results 8 false 9 1))] : List Bool)).all id = true := by
  decide +kernel

/-- A computed ITER within the range is sent; one outside it is fault 0x21 of a live job. -/
def iterCase (c : Instr) (opc ar im lo it b : Nat) (new : Int) : Bool :=
  let f := { fr (wd opc ar im lo) 8 b with iter := it }
  let s := withFire 0 f s0
  (s.holds 5 0 opc f : Bool) &&
    if 0 ≤ new && new ≤ 0xFFFFFFF then sends s c 0 0 (f.results 8 false new.toNat 3)
    else nx (exec c s) fun t => Tbl.find (t.pe 5).fire 0 = none && t.gone 5 0 = s.gone 5 0 && t.net = s.net &&
      (t.rcd.intake.map fun e => (e.code, e.cls, e.inst)) = [(0x8121, 4, 5)] && s.ctxLive 7 &&
      (t.cm.killQ.map fun k => (k.job, k.end_, k.cause, k.fault)) = [(1, 3, 0x21, [7])]

theorem witness_TagAndBitResults : ((
  [iterCase (.nextiter 5 0) 0x30 0 0 0 0xFFFFFFE 0 0xFFFFFFF, iterCase (.nextiter 5 0) 0x30 0 0 0 0xFFFFFFF 0 0x10000000,
   iterCase (.nextiter 5 0) 0x30 0 0 0xFFFF 0 0 (-1), iterCase (.nextiter 5 0) 0x30 0 0 0x8000 0x8000 0 0,
   iterCase (.setiter 5 0) 0x31 1 0 0 3 0xFFFFFFF 0xFFFFFFF, iterCase (.setiter 5 0) 0x31 1 0 0 3 0x10000000 0x10000000,
   givesV (.gettag 5 0) 0 0x36 0xC001 8 0 (7 * 2 ^ 44 + 2 ^ 30 + 9 * 4 + 3),
   givesV (.popc 5 0) 0 0x80 0 M64 0 64, givesV (.ffs 5 0) 0 0x81 0 0 0 64, givesV (.ffs 5 0) 0 0x81 0 12 0 2,
   givesV (.ffs 5 0) 0 0x81 1 12 0 3, givesV (.bitscatter 5 0) 0 0x82 0 0b101 0xF0 0x50,
   givesV (.bitgather 5 0) 0 0x83 0 0x50 0xF0 0b101,
   (let f := fr (wd 0x84 1 0 0) 0x1234567 15
    let s := { withFire 0 f s0 with maps := [(15, (8, [(0x345, 0xFED)]))] }
    (s.holds 5 0 0x84 f : Bool) && gives s (.unscramble 5 0) 0 0 f 0x12FED67),
   givesV (.hsum 5 0) 0 0x90 0 0xFF_FF 0 0x1FE, givesV (.hsum 5 0) 0 0x90 2 (3 * 2 ^ 32 + 4) 0 7,
   givesV (.hmaxu 5 0) 0 0x91 0 0x0102FF03 0 0xFF, givesV (.hminu 5 0) 0 0x92 1 0x0004_0003_0002_0005 0 2,
   givesV (.hnz 5 0) 0 0x93 0 0xFF00_0000_0000_0001 0 0x81,
   givesV (.vaddsu 5 0) 0 0x94 0 0xFE01 0x0302 0xFF03, givesV (.vaddsu 5 0) 0 0x94 1 0xFFFF_0001 0x0001_0001 0xFFFF_0002,
   (let f := { fr (wd 0x18 0 0 0) 5 0 with issued := 77 }
    let s := withFire 0 f s0
    (s.holds 5 0 0x18 f : Bool) && isAlone s && gives s (.rdtime 5 0) 0 0 f 77)] : List Bool)).all id = true := by
  decide +kernel

/-! ### Requests -/

/-- The conclusion of `Asks`, checked. -/
def asks (s : State) (c : Instr) (pipe : Nat) (f : Firing) (k : Slot) (dst : Ep) (b : Body) (chk : Option Tok)
    (reqs : Nat := 0) : Bool :=
  nx (exec c s) fun t => Tbl.find (t.pe 5).fire pipe = none &&
    (t.pe 5).svc = (s.pe 5).svc ++ [{ f := f, slot := k, pipe := pipe }] &&
    t.net.transit = s.net.transit ++ [{ net := 1, router := routerOf (.pe 5), dst := dst, body := b, chk := chk }] &&
    ((List.range 68).all fun q => q = 5 || t.pe q = s.pe q) &&
    t.pe 5 = { s.pe 5 with fire := (t.pe 5).fire, svc := (t.pe 5).svc, reqs := (s.pe 5).reqs + reqs } &&
    t = { s with pes := t.pes, net := { s.net with transit := t.net.transit } }

def asksMem (s : State) (c : Instr) (pipe : Nat) (f : Firing) (op : MemOp) (sh : Bool) (addr : Nat) : Bool :=
  asks s c pipe f (.rsp (s.pe 5).rspSlot) (if sh then .shelf else .dc (addr / 256 % s.nDc))
    (.mem { op := op, shelf := sh, addr := addr, b := f.vb, c := f.vc, pe := 5, slot := (s.pe 5).rspSlot, ctx := f.ctx,
            prio := if f.grp = 0 then 15 else 8 - f.grp, since := s.time, seq := (s.pe 5).reqs }) none 1

/-- A job with memory of every kind, lanes and a cohort. -/
def jobM : Job :=
  { block := 4, root := 7, sites := 0x60, dataBase := 0x10000, dataSize := 0x100, shelfBase := 0x3FE000, shelfSize := 0x1000,
    istrBase := 0x20000, istrElems := 8, cohortFirst := 3, cohortCount := 2 }

def jobbed (slot : Nat) (f : Firing) : State :=
  let s := withFire slot f s0
  { s with cm := { s.cm with jobs := s.cm.jobs.put 1 jobM } }

theorem witness_MemoryOpcodeRequests : ((
  let go (c : Instr) (op ar im lo a b : Nat) (m : MemOp) (n : Nat) (ok sh : Bool) (addr : Nat) : Bool :=
    let f := { fr (wd op ar im lo) a b with imm := some b, b := if im = 2 then none else some (tk b 5) }
    let s := jobbed 0 f
    (s.holds 5 0 op f : Bool) && !f.poisoned && (n = 0 || s.window f (if op = 0x50 && ar = 1 then a + b else a) n ok = some (sh, addr)) &&
      asksMem s c 0 f m sh addr
  [go (.iload 5 0) 0x40 0 0 0 7 0 .iload 0 false false (0x20000 + 0x70), go (.iload 5 0) 0x40 1 0 0 3 4 .iload 0 false false (0x20000 + 0x70),
   go (.istore 5 0) 0x41 1 0 0 7 99 .istore 0 false false (0x20000 + 0x70), go (.resetElem 5 0) 0x42 0 0 0 0 99 .ireset 0 false false 0x20000,
   go (.ldMem 5 0) 0x50 0 0 0 0xF8 0 (.ld 8 false) 8 true false 0x100F8, go (.ldMem 5 0) 0x50 0 0 7 0xFF 0 (.ld 1 true) 1 false false 0x100FF,
   go (.ldMem 5 0) 0x50 0 0 0 (2 ^ 62) 0 (.ld 8 false) 8 true true 0x7FE000, go (.ldMem 5 0) 0x50 1 2 9 (2 ^ 62) 8 (.ld 8 false) 8 true true 0x7FE008,
   go (.stMem 5 0) 0x51 1 0 2 0x12 5 (.st 2) 2 false false 0x10012, go (.stMem 5 0) 0x51 1 2 0 0x10 0 (.st 8) 8 true false 0x10010,
   go (.swapMem 5 0) 0x52 1 0 0 (2 ^ 62 + 16) 1 .swap 8 true true 0x7FE010, go (.casMem 5 0) 0x53 2 0 0 0x20 1 .cas 8 false false 0x10020,
   go (.faddMem 5 0) 0x54 1 0 0 0x28 1 .fadd 8 false false 0x10028, go (.farOr 5 0) 0x55 1 0 0 0x30 1 .for_ 8 false false 0x10030,
   go (.fmaxuMem 5 0) 0x56 1 0 0 0x38 1 .fmaxu 8 false false 0x10038,
   (let f := fr (wd 0x85 1 0 0) 0x77 (3 + 4 * 5 + 32 * 127)
    let s := jobbed 1 f
    (s.holds 5 1 0x85 f : Bool) && 3 < s.nTu && asks s (.tally 5 1) 1 f (.rsp 0) (.tu 3)
      (.tally { pe := 5, slot := 0, ctx := 7, a := 0x77, op := 5, space := 127 }) (some (f.carry 7 1 9 0)))] ++
  ([(Instr.istore 5 0, 0x41), (.resetElem 5 0, 0x42), (.stMem 5 0, 0x51), (.swapMem 5 0, 0x52),
    (.casMem 5 0, 0x53), (.faddMem 5 0, 0x54), (.farOr 5 0, 0x55), (.fmaxuMem 5 0, 0x56), (.tally 5 0, 0x85)].map fun p =>
    let f := { fr (wd p.2 1 0 0) 8 8 with a := some (tk 8 3 true) }
    let s := jobbed 0 f
    (s.holds 5 0 p.2 f : Bool) && f.poisoned && nx (exec p.1 s) fun t => Tbl.find (t.pe 5).fire 0 = none &&
      (t.gone 5 0).Perm (s.gone 5 0 ++ f.results 0 true 9 3) && (t.pe 5).svc = [] &&
      (t.rcd.intake.map fun e => (e.code, e.cls, e.inst)) = [(0x8013, 4, 5)] &&
      t = { s with pes := t.pes, net := { s.net with transit := t.net.transit }, rcd := { s.rcd with intake := t.rcd.intake },
                   trace := t.trace, host := t.host, i3c := t.i3c, fc := t.fc }) : List Bool)).all id = true := by
  decide +kernel

/-- The conclusion of `SendsLane`, checked. -/
def sendsLane (s : State) (c : Instr) (f : Firing) (op payload sel : Nat) : Bool :=
  nx (exec c s) fun t => Tbl.find (t.pe 5).fire 0 = none &&
    ((t.net.transit ++ t.net.cohortQ).any fun k => k.net = 0 && k.chan = (if wGrp f.word = 0 then 0 else 1) &&
      match k.body with
      | .lane m 1 5 g => decide (m.isLane f op payload sel) && (if sel < 256 then k.dst = .lg (sel / 8) && g = none && t.net.cohortQ = s.net.cohortQ
          else g = some (3 + (sel - 256)) && t.net.cohortQ = s.net.cohortQ ++ [k])
      | _ => false) && (t.gone 5 0).Perm (s.gone 5 0 ++ f.result 1 sel false f.iter f.outFlow) &&
    t = { s with pes := t.pes, net := { s.net with transit := t.net.transit, cohortQ := t.net.cohortQ } }

theorem witness_OtherOpcodeRequests : ((
  let st (op ar im lo a b : Nat) : State × Firing := (let f := fr (wd op ar im lo) a b; (jobbed 0 f, f))
  let lane (c : Instr) (op cd a b p : Nat) : Bool :=
    (let (s, f) := st op (if op = 0x61 then 0 else 1) 0 0 a b
     decide (s.holds 5 0 op f) && !f.poisoned && decide (s.inGrant f a) && sendsLane s c f cd p a)
  [(let (s, f) := st 0x32 1 0 0 5 (4 + 2 ^ 10 + 2 ^ 24 + 2 ^ 26)
    decide (s.holds 5 0 0x32 f) && (s.blockOk 4).isSome && (waitSet f.word).contains 1 &&
    asks s (.newctx 5 0) 0 f (.ctx 0) .cm (.ctx 5 0 7 (.newctx 4 (some (tagOf 7 1 9)) (f.carry 7 1 0 1)))
      (some (f.carry 7 1 0 1))),
   (let (s, f) := st 0x33 1 0 0 5 (8 * 2 ^ 44 + 2 ^ 30 + 4 * 3 + 2)
    decide (s.holds 5 0 0x33 f) && asks s (.sendTag 5 0) 0 f (.ctx 0) .cm (.ctx 5 0 7 (.send (f.carry 8 1 3 2) 1)) (some (f.carry 8 1 3 2))),
   (let (s, f) := st 0x34 0 0 1 5 0
    decide (s.holds 5 0 0x34 f) && asks s (.returnLink 5 0) 0 f (.ctx 0) .cm (.ctx 5 0 7 (.ret (f.carry 7 1 9 0) true)) (some (f.carry 7 1 9 0))),
   (let (s, f) := st 0x35 0 0 0 5 0
    decide (s.holds 5 0 0x35 f) && asks s (.freectx 5 0) 0 f (.ctx 0) .cm (.ctx 5 0 7 .free) none),
   lane (.burstSite 5 0) 0x60 0 5 (2 ^ 53 - 1) (2 ^ 53 - 1), lane (.burstSite 5 0) 0x60 0 257 3 3, lane (.haltSite 5 0) 0x61 1 6 0 0,
   lane (.branchSite 5 0) 0x62 2 256 9 9, lane (.sitectl 5 0) 0x63 3 6 6 6,
   (let f := { fr (wd 0x61 0 0 0) 9 0 with a := some { tk 9 (6 * 8) with kind := 1 } }
    let s := jobbed 0 f
    decide (s.holds 5 0 0x61 f) && !f.poisoned && sendsLane s (.haltSite 5 0) f 1 0 6),
   (let (s, f) := st 0x70 0 0 0x1FF1 5 0
    decide (s.holds 5 0 0x70 f) && !f.ctlPoisoned && f.ctl == 0x1FF1 && asks s (.appendRec 5 0) 0 f (.writer 0) (.outlet 1 1)
      (.out 5 0 7 3 (.append 0x1FF1 5 false)) (some (f.carry 7 1 9 0))),
   (let (s, f) := st 0x71 1 0 0 5 3
    decide (s.holds 5 0 0x71 f) && !f.ctlPoisoned && f.ctl == 3 && asks s (.commitRec 5 0) 0 f (.writer 0) (.outlet 1 1)
      (.out 5 0 7 3 (.commit 3)) (some (f.carry 7 1 9 0))),
   (let f := { fr (wd 0x70 1 0 0) 5 0 with b := some (tk 0 5 true) }
    let s := jobbed 0 f
    decide (s.holds 5 0 0x70 f) && f.ctlPoisoned && nx (exec (.appendRec 5 0) s) fun t => Tbl.find (t.pe 5).fire 0 = none &&
      (t.pe 5).svc = [{ f := f, slot := .writer 0, pipe := 0 }, { f := f, slot := .writer 1, pipe := 0, dead := true }] &&
      t.net.transit = [{ net := 1, router := routerOf (.pe 5), dst := .outlet 0 1, body := .out 5 0 7 3 .mark, chk := some (f.carry 7 1 9 0) },
        { net := 1, router := routerOf (.pe 5), dst := .outlet 1 1, body := .out 5 1 7 3 .mark, chk := some (f.carry 7 1 9 0) }]),
   (let f := { fr (wd 0x71 1 0 0) 5 0 with b := some (tk 0 5 true) }
    let s := jobbed 0 f
    decide (s.holds 5 0 0x71 f) && f.ctlPoisoned && nx (exec (.commitRec 5 0) s) fun t => Tbl.find (t.pe 5).fire 0 = none &&
      (t.pe 5).svc = [{ f := f, slot := .writer 0, pipe := 0, twin := some 1 }, { f := f, slot := .writer 1, pipe := 0, twin := some 0 }] &&
      (t.net.transit.map fun k => (k.dst, k.body)) = [(.outlet 0 1, .out 5 0 7 3 .commitPoisoned), (.outlet 1 1, .out 5 1 7 3 .commitPoisoned)]),
   (let (s, f) := st 0xFF 2 0 3 5 6
    decide (s.has 5 0 (wOpc f.word) f) && opReserved (wOpc f.word) &&
      asks s (.reservedOpcodeTrap 5 0) 0 f (.trap 0) .stew (.trap (trapMsg 5 0 f)) none)] : List Bool)).all id = true := by
  decide +kernel

/-- A firing in service at PE 5, and the rest of its state. -/
def serving (op : Nat) (k : Slot) (r : List Body) : State × Svc :=
  let v : Svc := { f := fr (wd op 1 0 0) 5 6, slot := k, pipe := 1 }
  let s := jobbed 0 v.f
  ({ s with pes := s.pes.put 5 { svc := [v, { v with slot := .rsp 9 }], rsp := r } }, v)

def completes (s : State) (c : Instr) (v : Svc) (k : Slot) (l : List Tok) : Bool :=
  nx (exec c s) fun t => (t.pe 5).svc = (s.pe 5).svc.filter (fun x => x.slot != k) &&
    (t.gone 5 v.pipe).Perm (s.gone 5 v.pipe ++ l) &&
    t = { s with pes := t.pes, net := { s.net with transit := t.net.transit }, trace := t.trace, host := t.host, i3c := t.i3c, fc := t.fc }

theorem witness_CompletionsSendResults : ((
  let ok (s : State) (v : Svc) : Bool := s.outRoom 5 v.pipe v.f && isAlone s && s.domOn (quadDom 5) && !v.dead && (Tbl.find s.cm.blocks v.f.block).isSome
  [(let (s, v) := serving 0x50 (.rsp 3) [.rsp 3 77 true 0]
    ok s v && (s.pe 5).inSlot (.rsp 3) = some v && completes s (.memoryResponse 5) v (.rsp 3) (v.f.results 77 true 9 3)),
   (let (s, v) := serving 0x51 (.rsp 3) [.rsp 3 77 false 0]
    ok s v && (s.pe 5).inSlot (.rsp 3) = some v && completes s (.memoryResponse 5) v (.rsp 3) (v.f.results 5 false 9 3)),
   (let (s, v) := serving 0x32 (.ctx 3) [.reply 3 77 0]
    ok s v && (s.pe 5).inSlot (.ctx 3) = some v && completes s (.contextReply 5) v (.ctx 3) (v.f.result 0 77 false 9 3)),
   (let (s, v) := serving 0x35 (.ctx 3) [.reply 3 77 0]
    ok s v && completes s (.contextReply 5) v (.ctx 3) []),
   (let (s, v) := serving 0x70 (.writer 3) [.answer 0 3 77 0]
    ok s v && completes s (.outletAnswer 5) v (.writer 3) (v.f.results 6 false 9 3)),
   (let (s, v) := serving 0x71 (.writer 3) [.answer 0 3 77 0]
    ok s v && completes s (.outletAnswer 5) v (.writer 3) (v.f.results 77 false 9 3)),
   (let (s, v) := serving 0x71 (.writer 3) [.answer 0 3 77 0]
    let v := { v with twin := some 4 }
    let s := s.updPe 5 fun p => { p with svc := [v, { v with slot := .writer 4, twin := some 3 }] }
    ok s v && nx (exec (.outletAnswer 5) s) fun t => t.gone 5 1 = [] &&
      (t.pe 5).svc = [{ v with slot := .writer 4, twin := none, part := some 77 }] && t = { s with pes := t.pes }),
   (let (s, v) := serving 0x71 (.writer 3) [.answer 1 3 (2 ^ 32 * 5) 0]
    let v := { v with part := some (2 ^ 32 * 5) }
    let s := s.updPe 5 fun p => { p with svc := [v] }
    ok s v && completes s (.outletAnswer 5) v (.writer 3) (v.f.results (commitBoth (2 ^ 32 * 5) (2 ^ 32 * 5)) false 9 3)),
   (let (s, v) := serving 0xFF (.trap 31) []
    let k : Tok := { tk 8 (31 + 32 + 128) with kind := 3 }
    let s := s.updPe 5 fun p => { p with trapIn := [k] }
    ok s v && !s.staleAt 5 7 && (s.pe 5).inSlot (.trap 31) = some v && v.f.tag == tagOf 7 1 9 &&
      completes s (.trapReturnArrival 5) v (.trap 31) (v.f.result 0 8 false 9 3)),
   (let (s, v) := serving 0xFF (.trap 31) []
    let k : Tok := { tk 0x1234_5678 (31 + 256) with kind := 3 }
    let s := s.updPe 5 fun p => { p with trapIn := [k] }
    ok s v && nx (exec (.trapReturnArrival 5) s) fun t => t.gone 5 1 = [] && (t.pe 5).svc.length = 1 &&
      (t.rcd.intake.map fun e => (e.code, e.inst, e.extra)) = [(0x812B, 5, (0xFF, 0x5678))])] : List Bool)).all id = true := by
  decide +kernel

/-! ### Matching store, Cabinet, scheduler, trace, code blocks -/

theorem witness_TokenEnqueueTakesArrivalNumber : ((
  let s (p : Pe) : State := { s0 with pes := [(5, p)] }
  let old := (3, gt 0 0)
  let go (p : Pe) (q : State → Pe → Bool) : Bool :=
    s0.domOn (quadDom 5) && nx (exec (.tokenEnqueue 5) (s p)) fun t => q t (t.pe 5)
  [(gt 1 0).crcOk && go { arr := 2 ^ 24 - 1, inU := [gt 1 0, gt 0 0], qU := [old] } fun _ p =>
     p.qU = [old, (2 ^ 24 - 1, gt 1 0)] && p.qG = [] && p.inU = [gt 0 0] && p.arr = 0,
   (gt 1 7).crcOk && go { arr := 4, inG := [gt 1 7], qU := [old] } fun _ p =>
     p.qG = [(4, gt 1 7)] && p.qU = [old] && p.inG = [] && p.arr = 5,
   go { arr := 4, outL := [(0, [gt 1 0, gt 0 0])] } fun _ p => p.qU = [(4, gt 1 0)] && p.outL = [(0, [gt 0 0])] && p.arr = 5] : List Bool)).all id = true := by
  decide +kernel

/-- PE 5 with a live context 7 whose actors have a word, and one queued token. -/
def matching (w : Nat) (k : Tok) (p : Pe) : State :=
  let s := withFire 0 (fr w 1 2) s0
  { s with pes := [(5, { p with qU := [(9, k)] })], otp := { s.otp with part := 0 } }

theorem witness_MatchDecisions : ((
  let ok (s : State) (w : Nat) (k : Tok) : Bool := s.domOn (quadDom 5) && decide (s.goodTok 5 k w) && !wFk w && (s.pe 5).half = [] &&
    (s.pe 5).qG = [] && decide ((s.pe 5).takes s.time)
  [(let w := wd 0x80 0 0 0
    let k := gt 0 0
    let s := matching w k { ents := [(8, { tok := gt 1 1 })] }
    ok s w k && (waitSet w).length == 1 && nx (exec (.matchDecision 5 none) s) fun t =>
      (t.pe 5).qU = [] && (t.pe 5).half = [] && (t.pe 5).ents = (s.pe 5).ents &&
        match (t.pe 5).ready with | [f] => decide (f.isFrom k w [k]) | _ => false),
   (let w := wd 0x80 0 0 0
    let k := gt 0 0
    let s := matching w k { ents := [(8, { tok := gt 1 1 })] }
    ok s w k && nx (exec (.matchDecision 5 (some (8, .corrected))) s) fun t => (t.pe 5).ready.length = 1 &&
      (t.pe 5).ents = [(8, { tok := gt 1 1, err := .corrected })] && (t.pe 5).ents = ((s.upsetWay 5 (some (8, .corrected))).pe 5).ents),
   (let w := wd 0x01 1 0 0
    let k := gt 0 6
    let e : Ent := { tok := gt 1 1 }
    let s := matching w k { ents := [(8 * k.set + 7, e)] }
    ok s w k && waitSet w = [0, 1] && e.tok.key == k.key && e.tok.crcOk && nx (exec (.matchDecision 5 none) s) fun t =>
      (t.pe 5).qU = [] && (t.pe 5).half = [] && (t.pe 5).ents = [] &&
        match (t.pe 5).ready with | [f] => decide (f.isFrom k w [k, e.tok]) | _ => false),
   (let w := wd 0x01 1 0 0
    let k := gt 1 6
    let s := { matching w k {} with time := 64 * 65536 + 130 }
    ok s w k && Tbl.get 0 (s.pe 5).summary k.cell == 0 && nx (exec (.matchDecision 5 none) s) fun t =>
      (t.pe 5).qU = [] && (t.pe 5).half = [] && (t.pe 5).ready = [] && (t.pe 5).ents = [(8 * k.set, { tok := k, age := 2 })])] : List Bool)).all id = true := by
  decide +kernel

theorem witness_CabinetCommands : ((
  let w := wd 0x01 1 0 0
  let k : Park := { tok := gt 0 6, arr := 3 }
  let e : Ent := { tok := gt 1 1 }
  let base := withFire 0 (fr w 1 2) s0
  [(let i := 8 * homeBucket 21 k.tok.key + 3
    let s := { base with pes := [(5, { park := [k] })], cab := { base.cab with regions := [(5, { ents := [(i, e)] })] } }
    s.domOn (quadDom 5) && s.domOn 49 && s.logOf 5 == some 5 && s.physOf 5 == 5 && decide (s.goodTok 5 k.tok w) && !wFk w &&
      i / 8 == homeBucket s.cabLog k.tok.key && 8 ≤ s.nCab && e.tok.crcOk && decide s.ddrClean && (s.region 5).through = [] &&
      nx (exec (.cabinetLookupReturn 5 none) s) fun t => (t.region 5).ents = [] && (t.pe 5).ready = [] &&
        (t.pe 5).park = [{ k with ret := some [e] }]),
   (let k := { k with ret := some [e] }
    let s := { base with pes := [(5, { park := [k] })] }
    s.domOn (quadDom 5) && decide (s.goodTok 5 k.tok w) && !wFk w && decide ((s.pe 5).takes s.time) && e.tok.crcOk && waitSet w = [0, 1] &&
      nx (exec (.matchDecision 5 none) s) fun t => (t.pe 5).park = [] &&
        match (t.pe 5).ready with | [f] => decide (f.isFrom k.tok w [k.tok, e.tok]) | _ => false),
   (let x : Spill := { id := 1, ent := e }
    let y : Spill := { id := 2, ent := { tok := gt 0 2 } }
    let b := 8 * homeBucket 21 e.tok.key
    let s := { base with pes := [(5, { spill := [x, y] })], cab := { base.cab with regions := [(5, { ents := [(b, e)] })] } }
    s.logOf 5 == some 5 && s.inUse 5 < s.nCab && (s.region 5).freeIn (homeBucket s.cabLog x.ent.tok.key) == some (b + 1) &&
      nx (exec (.spillAck 5) s) fun t => (t.pe 5).spill = [y] && (t.region 5).ents = [(b, e), (b + 1, e)]),
   (let s := { base with regs := [(0xD800, 21 + 256)], cab := { base.cab with bgRegion := 5, bgBucket := 3, regions := [(5, { ents := [(24, { tok := { tk 1 with ctx := 8 } }), (25, e), (32, { tok := { tk 1 with ctx := 8 } })] })] } }
    s.cabOn && s.cab.bgBucket + 1 < s.nBuckets && nx (exec .cabinetSweepBucket s) fun t => t.cab.bgBucket = 4 &&
      (t.region 5).ents.map (·.1) = [25, 32] && (t.region 5).ents.all fun e => e.1 / 8 != 3 || t.ctxLive e.2.tok.ctx.toNat),
   (let s := { base with cab := { base.cab with devStage := 3 } }
    isAlone s && s.youngest == some 1 && nx (exec .capacityAbort s) fun t =>
      t.cm.killQ = [{ job := 1, end_ := 3, cause := 0x40 }] && t.cab.abortWait && Tbl.get 0 t.led.tot 10 = 1),
   (let s := { base with pes := [(5, { cnt := [(2, 9), (3, 9), (0xC, 9), (0xD, 9)] })] }
    nx (exec (.msCntClr 5) s) fun t => [2, 3, 0xC, 0xD].map (Tbl.get 0 (t.pe 5).cnt) = [9, 0, 0, 9])] : List Bool)).all id = true := by
  decide +kernel

theorem witness_SchedulerCommands : ((
  let w := wd 0x01 1 0 0
  let base := withFire 0 (fr w 1 2) s0
  let f := { fr w 1 2 with arr := 7 }
  let fk := { fr (w + 2 ^ 16) 1 2 with arr := 8 }
  let s (p : Pe) : State := { base with pes := [(5, p)] }
  [base.domOn (quadDom 5),
   (let s := s { ovf := [(1, f), (2, fk)], ready := List.replicate 3 f }
    (s.pe 5).ready.length < s.refillLwm 5 && !wFk f.word && nx (exec (.overflowRefill 5) s) fun t =>
      (t.pe 5).ovf = [(2, fk)] && (t.pe 5).ready = List.replicate 4 f),
   (let s := s { fk := [fk, { fk with arr := 9 }], ready := [f] }
    s.fkFree 5 fk && nx (exec (.fkRelease 5) s) fun t => (t.pe 5).fk = [{ fk with arr := 9 }] && (t.pe 5).ready = [f, fk]),
   (let s := s { ready := [f] }
    s.hasRes 5 1 f && s.halfFree 5 1 f && nx (exec (.firingIssue 5 1) { s with time := 50 }) fun t =>
      (t.pe 5).ready = [] && Tbl.find (t.pe 5).fire 1 = some { f with issued := 50, pipe := 1 }),
   (let d := { f with word := wd 0x14 1 0 0, grp := 0 }
    let s := s { ready := [d] }
    s.hasRes 5 0 d && s.halfFree 5 0 d && nx (exec (.firingIssue 5 0) s) fun t =>
      (t.pe 5).ready = [] && Tbl.find (t.pe 5).fire 2 = some d),
   (let s := s { ready := [{ f with dead := true }] }
    s.halfFree 5 1 f && nx (exec (.firingIssue 5 1) s) fun t => (t.pe 5).ready = [] && (t.pe 5).fire = []),
   (let s := firing 1 0x01 1 0 0 1 2
    let s := s.updPe 5 fun p => { p with outL := [(2, List.replicate 3 (gt 0 0)), (3, List.replicate 3 (gt 0 2))] }
    s.has 5 1 1 (fr (wd 1 1 0 0) 1 2) && !s.outRoom 5 1 (fr (wd 1 1 0 0) 1 2) && nx (exec (.add 5 1) s) fun t => t = s),
   (let s := s { cnt := [(0x16, 9), (0x17, 9), (0x1D, 9), (0x1E, 9)] }
    nx (exec (.schedCntClr 5) s) fun t => [0x16, 0x17, 0x1D, 0x1E].map (Tbl.get 0 (t.pe 5).cnt) = [9, 0, 0, 9]),
   (let h := { f with grp := 0, arr := 9 }
    let s := s { ready := [f, h], fire := [(0, f)] }
    s.ready? 5 1 h && nx (exec (.firingIssue 5 1) s) fun t => (t.pe 5).ready = [f] && Tbl.find (t.pe 5).fire 1 = some { h with pipe := 1 })] : List Bool)).all id = true := by
  decide +kernel

theorem witness_TraceCommands : ((
  let on (c : Nat) (tr : Trace) : State := { s0 with time := 70, trace := tr, regs := [(0xF100, 1 + 4 * 256), (0xF101, 0x1000), (0xF104, c)] }
  let r : TraceRec := { time := 3, ty := 1, origin := 5, key := 77 }
  [(let s := on 0x100 { triggered := true, stopped := true, wrIdx := 9, lossCnt := 4 }
    s.trRingOn && nx (exec .traceArm s) fun t => t.trace.armed && !t.trace.triggered && !t.trace.stopped && t.trace.wrIdx = 0 &&
      t.trace.lossCnt = 0),
   (let s := on 0x100 { armed := true }
    s.canTrigger && nx (exec .traceTriggerNow s) fun t => t.trace.triggered && t.trace.trigTime = 70 && t.trace.origin = 0xFF &&
      t.host.alert.testBit 14),
   nx (exec .traceStop (on 0x100 { armed := true, wrIdx := 5 })) fun t => t.trace.stopped && t.trace.wrIdx = 5,
   (let s := on 0x100 { armed := true, wrIdx := 17, coll := [(2, [r, r])] }
    s.trRingOn && s.ddr.wf 0 && nx (exec (.traceCollectorWrite 2) s) fun t => Tbl.get [] t.trace.coll 2 = [r] && t.trace.wrIdx = 18 &&
      t.ddrBytes (0x1000 + 32) 32 = r.bytes && s.trBase + 32 * (17 % s.trSize) = 0x1020 && t.ddrBytes 0x1000 32 = zeros 32),
   (let s := on 0x100 { armed := true, wrIdx := 17, coll := [(2, [r, r])], lost := [(2, 5)] }
    nx (exec (.traceCollectorWrite 2) s) fun t => Tbl.get [] t.trace.coll 2 = [r, r] && t.trace.wrIdx = 18 && Tbl.get 0 t.trace.lost 2 = 0 &&
      t.ddrBytes (0x1000 + 32) 32 = ({ time := 70, ty := 0x11, origin := 0x82, data := 5, flags := b2n s.coarse : TraceRec }).bytes),
   (let s := on (0x102 + 5 * 8) { armed := true }
    s.canTrigger && bits s.trTrigCfg 2 0 == 2 && bits s.trTrigCfg 5 3 == 5 && nx (exec (.trigRisingEdge 5) s) fun t =>
      t.trace.triggered && t.trace.trigTime = 70)] : List Bool)).all id = true := by
  decide +kernel

/-- The image of a block of one actor on logical PE 5: FAN with both destinations unused. -/
def blockImage : List Byte :=
  let body := le [(8, 0x2B * 2 ^ 56 + 3 * 2 ^ 36 + 3 * 2 ^ 20), (2, 5), (6, 0)]
  le [(4, 0x4C42564B), (2, 1), (2, 0), (2, 1), (2, 0), (2, 0), (2, 0), (8, 0), (4, 16), (4, crc32 body)] ++ zeros 32 ++ body

theorem witness_BlockCommands : ((
  [(let a := le [(2, 1023), (1, 1), (1, 0), (4, 80), (8, 0x4000)]
    let s := call 3 0x10 a { s0 with regs := [(0xD130, 0), (0xD132, 0x10000)], ddr := memOf 0 0x4000 blockImage }
    served s 3 0x10 16 [(0, 2), (2, 1), (4, 4), (8, 8)] &&
      match s.image 1 0x4000 80 with
      | .ok img => match s.checkBlock img 80 with
        | .ok b => Tbl.find s.cm.blocks 1023 = none && s.offQuads b = [] && fld (s.mb 3).data 0 2 == 1023 &&
          nx (exec (.loadBlock 3) s) fun t => done s t 3 OK [0xFF] && Tbl.find t.cm.blocks 1023 = some { b with loading := false }
        | _ => false
      | _ => false),
   (let s := call 3 0x11 (le [(2, 4)]) { s0 with cm := { s0.cm with blocks := [(4, blk 1)] } }
    served s 3 0x11 2 [(0, 2)] && nx (exec (.unloadBlock 3) s) fun t => done s t 3 OK [] && Tbl.find t.cm.blocks 4 = none)] : List Bool)).all id = true := by
  decide +kernel

/-! ### Jobs, contexts, kills and fences -/

/-- A descriptor (Table 06-1): flags, cookie, block, sites, run-time limit; one initial token for actor 1, port 0. -/
def desc (flags cookie block sites limit : Nat) : List Byte :=
  le [(2, 1), (2, flags), (4, cookie), (2, block), (2, 0), (2, 0), (2, 0), (8, 0), (4, limit), (4, 0), (16, sites)] ++ zeros 60 ++
    le [(2, 1), (18, 0), (2, 1), (6, 0), (8, 99)] ++ zeros 16

/-- The Cabinet on, one resident block, one bound site. -/
def ready : State :=
  { s0 with regs := [(0xD132, 0x10000), (0xD800, 21 + 256)], cm := { s0.cm with blocks := [(4, blk (wd 0x2B 0 0 0))] },
            sites := [(127, { bound := true, first := 127 })] }

theorem witness_JobSubmissionAndAbort : ((
  let d := desc 2 0x1234 4 (2 ^ 127) 500
  let sub (d : List Byte) (s : State) : State := call 3 0x30 d s
  let hyp (s : State) : Bool := served s 3 0x30 160 [(0, 160)] && !s.cookieUsed (fld (s.mb 3).args 4 4)
  let full (s : State) : State := { s with cm := { s.cm with queue := List.replicate 32 {} }, otp := { s.otp with part := 2 } }
  let ab (f n c : Nat) : List Byte := le [(1, f), (1, 0), (2, n), (4, c)]
  [d.length = 160,
   (let s := sub d ready
    hyp s && s.descFault ((s.mb 3).args.take 160) == none && s.cm.queue.length < s.jqDepth && nx (exec (.jobSubmit 3) s) fun t =>
      done s t 3 ACCEPTED [1] && match t.cm.queue with
        | [j] => j.cookie == 0x1234 && j.block == 4 && j.sites == 2 ^ 127 && j.runLimit == 500 && !j.ended && j.inits == [{ act := 1, value := 99 }]
        | _ => false),
   (let s := sub (desc 2 1 4 1 0) ready
    hyp s && s.descFault ((s.mb 3).args.take 160) == some BAD_ARG && nx (exec (.jobSubmit 3) s) fun t =>
      done s t 3 BAD_ARG [0] && t.cm = s.cm),
   (let s := sub (desc 2 1 4 (2 ^ 127) 0) { ready with otp := { ready.otp with part := 1 } }
    hyp s && s.descFault ((s.mb 3).args.take 160) == some ABSENT && nx (exec (.jobSubmit 3) s) fun t => done s t 3 ABSENT [0] && t.cm = s.cm),
   (let s := full (sub (desc 2 1 4 0 0) ready)
    hyp s && s.descFault ((s.mb 3).args.take 160) == none && s.jqDepth ≤ s.cm.queue.length && nx (exec (.jobSubmit 3) s) fun t =>
      done s t 3 QUEUE_FULL [0] && t.cm = s.cm),
   (let s := { ready with cm := { ready.cm with db := { lo := 0x21 } } }
    s.domOn 6 && isAlone s && nx (exec (.doorbellSubmit 7) s) fun t => t.cm.db.fetching = [(0x700000021, false, 0)]),
   (let s := { ready with cm := { ready.cm with queue := List.replicate 256 {}, refusedCnt := 0xFFFFFFFF, db := { lo := 0x21 } } }
    nx (exec (.doorbellSubmit 7) s) fun t => t.cm.refused && t.cm.refusedCnt = 0xFFFFFFFF && t.cm.db.fetching = [(0x700000021, true, 0)]),
   (let s := full { ready with cm := { ready.cm with db := { lo := 0x21 } } }
    nx (exec (.doorbellSubmit 7) s) fun t => t.cm.db.held = some 0x700000021 && t.cm.queue = s.cm.queue),
   (let s := { ready with cm := { ready.cm with db := { held := some 5, posted := [.jqCrHeadWrite 2] } } }
    nx (exec (.doorbellSubmit 7) s) fun t => t.cm.db = { s.cm.db with posted := [.jqCrHeadWrite 2, .doorbellSubmit 7] } && t = { s with cm := t.cm }),
   (let s := { ready with time := 3, cm := { ready.cm with db := { held := some 5, fetching := [(1, true, 2)] } } }
    nx (exec .doorbellHeldRelease s) fun t => t.cm.db.held = none && t.cm.db.fetching = [(1, true, 2), (5, false, 3)]),
   (let s := { ready with cm := { ready.cm with db := { fetching := [(0x4001, false, 6), (9, true, 6)] },
                                                queue := [{ cookie := 8, sub := 4 }, { cookie := 9, sub := 7 }] }, ddr := memOf 0 0x4000 d }
    s.descAt 0x4001 false == some d && s.descFault d == none && !s.cookieUsed 0x1234 && nx (exec (.descriptorFetchDone false) s) fun t =>
      t.cm.db.fetching = [(9, true, 6)] && (t.cm.queue.map (·.cookie)) = [8, 0x1234, 9] && t.cm.waiting = []),
   (let d := desc 2 0x1234 5 0 0
    let s := { ready with cm := { ready.cm with db := { fetching := [(0x4001, false, 6)] } }, ddr := memOf 0 0x4000 d }
    s.descAt 0x4001 false == some d && s.descFault d == some BAD_ARG && nx (exec (.descriptorFetchDone false) s) fun t =>
      t.cm.queue = [] && t.cm.waiting = [{ status := BAD_ARG, end_ := 5, cookie := 0x1234, quiet := true }]),
   (let s := call 3 0x31 (ab 0 9 0) { ready with cm := { ready.cm with jobs := [(9, {})] } }
    served s 3 0x31 8 [(0, 1), (2, 2), (4, 4)] && !s.endDecided 9 && nx (exec (.jobAbortByJob 3) s) fun t =>
      done s t 3 OK [] && t.cm.killQ = [{ job := 9, end_ := 1 }]),
   (let s := call 3 0x31 (ab 1 0 77) { ready with cm := { ready.cm with queue := [{ cookie := 77, flags := 2 }] } }
    served s 3 0x31 8 [(0, 1), (2, 2), (4, 4)] && nx (exec (.jobAbortByCookie 3) s) fun t =>
      done s t 3 OK [] && t.cm.queue = [] && t.cm.waiting = [{ end_ := 1, cookie := 77, quiet := true }])] : List Bool)).all id = true := by
  decide +kernel

theorem witness_AdmissionAndGrants : ((
  let ring (s : State) : State := { s with regs := s.regs ++ [(regKey .bar0 0x2010, 0x8000), (regKey .bar0 0x2018, 6 + 256)] }
  let one (s : State) : State :=
    { s with cm := { s.cm with ctxs := [(7, { block := 4, state := 1, job := 1, link := tagOf 8 1 3 + 1, linkValid := true }), (8, { block := 4, state := 1, job := 1 })],
                               jobs := [(1, { runLimit := 3, start := 1, ctxMax := 9 })] } }
  [(let j : Job := { cookie := 5, block := 4, sites := 2 ^ 127, ctxMax := 1, inits := [{ act := 1 }] }
    let s := ring { one ready with time := 44, cm := { (one ready).cm with queue := [j, {}] } }
    isAlone s && s.freeJob == some 0 && s.freeCtx == some 1 && s.canAdmit j && nx (exec .jobAdmission s) fun t =>
      t.cm.queue = [{}] && (match Tbl.find t.cm.jobs 0 with | some k => k.root == 1 && k.start == 44 && k.cookie == 5 | none => false) &&
        t.ctx 1 = { block := 4, state := 1, job := 0, granted := 44 } && (t.site 127).job = some 0),
   (let g : Grant := { job := 1, pe := 5, slot := 2, ctx := 7, b := 4, link := some 8, tok := tk 3 }
    let s := { one ready with cm := { (one ready).cm with grantQ := [{ job := 9 }, g] } }
    s.cm.grantQ.find? s.grantable == some g && s.freeCtx == some 1 && nx (exec .contextGrant s) fun t =>
      t.ctx 1 = { link := 8, linkValid := true, block := 4, state := 1, job := 1, granted := 0 } && t.cm.grantQ = [{ job := 9 }] &&
        t.net.transit.any fun k => k.dst = .pe 5 && k.body = .reply 2 (2 ^ 44) 0),
   (let k := { tk 3 with ctx := 8 }
    let s := { one ready with cm := { (one ready).cm with missQ := [(5, 2, 7, .send k 1), (0, 0, 0, .free)] } }
    nx (exec .contextTableMissFill s) fun t => t.cm.missQ = [(0, 0, 0, .free)] && t.ctxHit 8 &&
      t.net.transit.any fun p => p.dst = .pe 5 && p.body = .reply 2 0 0),
   (let s := { one ready with cm := { (one ready).cm with missQ := [(5, 2, 7, .ret (tk 3) true)] } }
    nx (exec .contextTableMissFill s) fun t => t.cm.missQ = [] && t.ctxHit 7 && t.cm.killQ = [{ job := 1, whole := false, ctxs := [7] }] &&
      t.net.transit.any fun p => p.dst = .pe 5 && p.body = .reply 2 0 0),
   (nx (exec (.runLimitExpiry 1) (one ready)) fun t => t.cm.killQ = [{ job := 1, end_ := 2 }] && 6001 ≤ t.time),
   (let c : Completion := { status := TIMEOUT, end_ := 2, job := 1, cookie := 6 }
    let s := ring (one ready)
    let s := { s with time := 9, cm := { s.cm with waiting := [c, {}], tail := 63, head := 5 }, host := { s.host with pf0 := { s.host.pf0 with bme := true } } }
    isAlone s && s.outletsReport 1 && s.crOn && (s.cm.tail + 1) % s.crSize != s.cm.head && s.host.mem.wf 0 &&
      nx (exec .completionPost s) fun t => t.cm.waiting = [{}] && t.cm.tail = 0 && !t.cm.phase && t.hostBytes (0x8000 + 32 * 63) 32 = c.bytes 9 true &&
        t.ddr = s.ddr && Tbl.find t.cm.jobs 1 = none && t.host.pf0.pend = [16] && t.hostBytes (0x8000 + 32 * 62) 32 = zeros 32),
   (let s := ring ready
    let s := { s with cm := { s.cm with head := 60, tail := 3 } }
    isAlone s && nx (exec (.jqCrHeadWrite 2) s) fun t => t.cm.head = 2 && t.cm.tail = 3),
   (let s := { ready with cm := { ready.cm with head := 60, tail := 3, phase := false } }
    !s.crOn && nx (exec (.completionRingEnable 0x110) s) fun t => t.cm.head = 0 && t.cm.tail = 0 && t.cm.phase && t.crOn && t.crSize = 65536)] : List Bool)).all id = true := by
  decide +kernel

theorem witness_KillSteps : ((
  let one : State :=
    { ready with cm := { ready.cm with ctxs := [(7, { block := 4, state := 1, job := 1 }), (8, { block := 4, state := 1, job := 1 })],
                                       jobs := [(1, { root := 7, sites := 2 ^ 127 })], killId := 3, grantQ := [{ job := 1 }, { job := 2 }] } }
  [(let s := { one with cm := { one.cm with killQ := [{ job := 1, end_ := 2 }, {}] } }
    nx (exec .contextKill s) fun t => (match Tbl.find t.cm.jobs 1 with | some j => j.ended | none => false) && t.cm.grantQ = [{ job := 2 }] &&
      s.jobCtxs 1 == [7, 8] && (t.ctx 7).state = 2 && (t.ctx 8).state = 2 && t.net.notices = [.kill 3 7, .kill 3 8]),
   (let s := { one with cm := { one.cm with killQ := [{ job := 1, whole := false, ctxs := [8, 0, 9] }] } }
    nx (exec .contextKill s) fun t => (t.ctx 8).state = 2 && (t.ctx 7).state = 1 && t.net.notices = [.kill 3 8]),
   (let k : Kill := { id := 3, job := 1, whole := true, ctxs := [7, 8], await := [(.lg 2, 8)], comp := { status := OK, job := 1 } }
    let s := { one with cm := { one.cm with kills := [k], acks := [(.lg 2, 3, 8), (.istr, 1, 1)] } }
    isAlone s && nx (exec .killAck s) fun t => t.cm.acks = [(.istr, 1, 1)] && t.cm.kills = [] && (t.ctx 7).state = 3 && (t.ctx 8).dead &&
      t.cm.waiting = [{ status := OK, job := 1 }]),
   (let s := { one with net := { one.net with notices := [.kill 3 7, .kill 3 8] } }
    nx (exec .noticeBroadcast s) fun t => t.net.notices = [.kill 3 8] && t.net.killIn.contains (.istr, 3, 7) && s.pesIn.length = 64 &&
      (List.range 16).all (fun g => t.net.killIn.contains (.lg g, 3, 7)) && s.pesIn.all fun p => t.net.killIn.contains (.pe p, 3, 7)),
   (let s := { one with net := { one.net with killIn := [(.pe 5, 3, 7), (.lg 2, 3, 7)] } }
    nx (exec (.killNotice (.pe 5)) s) fun t => t.net.killIn = [(.lg 2, 3, 7)] && (t.pe 5).dying = [7] && (t.pe 5).sweeps = [{ id := 3, ctx := 7 }]),
   (let s := { one with net := { one.net with killIn := [(.lg 2, 3, 7)] }, lgs := [(2, { ops := [{ tok := tk 1 }, {}] })] }
    nx (exec (.killNotice (.lg 2)) s) fun t => t.cm.acks = [(.lg 2, 3, 7)] && (t.lg 2).ops.map (·.killed) = [true, false]),
   (let p : Pe := { sweeps := [{ id := 3, ctx := 7 }], ents := [(3, { tok := tk 1 }), (4, { tok := { tk 1 with ctx := 8 } })], ready := [fr 1 2 3], fk := [{ ctx := 8 }] }
    let s := { one with pes := [(5, p)] }
    s.domOn (quadDom 5) && nx (exec (.killSweepEnd 5) s) fun t => (t.pe 5).sweeps = [] && t.cm.acks = [(.pe 5, 3, 7)] &&
      (t.pe 5).ents.map (·.1) = [4] && (t.pe 5).ready.map (·.dead) = [true] && (t.pe 5).fk = [{ ctx := 8 }]),
   (let s := { one with cm := { one.cm with ctxs := [(7, { dead := true, state := 3 }), (8, { dead := true, state := 3 })], fenced := [8] } }
    s.unfenced == [7] && nx (exec .fenceBatchStart s) fun t => match t.cm.fence with | some f => f.ctxs == [7] | none => false),
   (let s := { one with cm := { one.cm with fenced := [7, 8], freed := [3] } }
    s.noOpenRec 7 && nx (exec (.contextFreed 7) s) fun t => Tbl.find t.cm.ctxs 7 = none && t.cm.freed = [3, 7] && t.cm.fenced = [8])] : List Bool)).all id = true := by
  decide +kernel

/-- A fence's content is free: its counting is evaluated, its CRC is not. -/
theorem fence_nx (ep : KillEnd) (f : Fence) (s : State) (p : State → Bool) (h : s.cm.fence = some f)
    (hp : nx (State.plain (State.fenceCount ep f) s) p = true) : nx (exec (.fenceToken ep) s) p = true := by
  rw [show exec (.fenceToken ep) s = execFenceToken ep s from rfl, execFenceToken_some ep f s h]
  exact hp

def wave1 : Fence := { ctxs := [7], wave1 := [(.pe 5, 2), (.lg 0, 1)], wave2 := [(.pe 5, 1)] }
def wave2 : Fence := { ctxs := [7], wave1 := [(.pe 5, 0), (.lg 0, 0)], wave2 := [(.pe 5, 1)] }
def inWave1 : State := { ready with cm := { ready.cm with fence := some wave1 } }
def inWave2 : State :=
  { ready with pes := [(5, { dying := [7, 8] })], cm := { ready.cm with fence := some wave2, fenced := [9] },
               pat := { ready.pat with lost := (List.range 64).filter (· != 5) } }

theorem witness_FenceWave1 : (inWave1.pesIn.contains 5 && awaits wave1.wave1 (.pe 5) == 2 && !inWave1.fenceBlocked wave1 (.pe 5) false) = true ∧
    nx (exec (.fenceToken (.pe 5)) inWave1) (fun t => t.cm.fence = some { wave1 with wave1 := countFence wave1.wave1 (.pe 5) }) = true :=
  ⟨by decide +kernel, fence_nx _ wave1 _ _ rfl (by decide +kernel)⟩

theorem witness_FenceWave2 : (inWave2.pesIn == [5] && !inWave2.fenceBlocked wave2 (.pe 5) true) = true ∧
    nx (exec (.fenceToken (.pe 5)) inWave2) (fun t => t.cm.fence = none && t.cm.fenced = [9, 7] && (t.pe 5).dying = [8]) = true :=
  ⟨by decide +kernel, fence_nx _ wave2 _ _ rfl (by decide +kernel)⟩

/-! ### Sites, vector engines -/

/-- Site 9 of job 1 on lanes 9 and 10, UP, with descriptor 3 (template 1) and descriptor 4 (stored playback, stream 2). -/
def site9 : State :=
  let ind : Tbl Nat := [(0x10001, 0), (0x11018, 1), (0x11020, 1), (0x11021, 0x40), (0x11027, 2), (0x16008, 0x8000), (0x1600A, 4)]
  { s0 with sites := [(9, { bound := true, first := 9, lanes := 2, cycU := 8, lead := 64, job := some 1, high := 5, next := 6, umap := 0xFF })],
            lanes := [(9, { state := 5, ind := ind }), (10, { state := 5, ind := ind })] }

def laneTok (op k payload : Nat) : Tok := Tok.sealed { tk (op + 8 * k + 2 ^ 11 * payload) with port := 1 }

def withOp (op k payload job : Nat) (s : State) : State :=
  { s with lgs := [(1, { inbox := [{ dst := .lg 1, chan := 1, body := .lane (laneTok op k payload) job 5 none }] })] }

theorem witness_LaneOperations : ((
  let ok (s : State) (op k payload : Nat) : Bool :=
    s.domOn (lgDom 1) && (laneTok op k payload).crcOk && (laneTok op k payload).value.toNat % 4 == op &&
      (laneTok op k payload).value.toNat / 8 % 256 == k && (s.lg 1).ops = []
  let no : LaneOp := { id := 4, tok := tk 1, op := 1, req := 3, del := 1, sup := true }
  [(let s := withOp 0 9 (3 + 1024 + 2048 * 77) 1 site9
    ok s 0 9 (3 + 1024 + 2048 * 77) && s.siteOpen 9 1 && s.burstOk 9 (3 + 1024 + 2048 * 77) && nx (exec (.laneBurst 1) s) fun t => (t.lg 1).inbox = [] &&
      match (t.site 9).queue, (t.lg 1).ops with
      | [b], [o] => b.desc == 3 && b.org == some (77, 0) && o.req == 2 && o.del == 2 && o.wait == 2 && b.op == o.id
      | _, _ => false),
   (let s := withOp 0 9 3 2 site9
    ok s 0 9 3 && (s.site 9).job != some 2 && nx (exec (.laneBurst 1) s) fun t => (t.lg 1).inbox = [] && (t.site 9).queue = [] &&
      match (t.lg 1).ops with | [o] => o.req == 2 && o.del == 0 && o.wait == 0 && o.status == SITE_SKIPPED | _ => false),
   (let s := (withOp 1 9 0 1 site9).updSite 9 fun x => { x with queue := [{ desc := 3 }], cur := some {} }
    ok s 1 9 0 && s.siteOpen 9 1 && nx (exec (.laneHalt 1) s) fun t => (t.lg 1).inbox = [] && (t.site 9).halted && (t.site 9).queue = [] &&
      (t.site 9).cur = none && (t.site 9).haltCause = 1 && (t.lane 9).halt.isSome && (t.lane 10).halt.isSome &&
      match (t.lg 1).ops with | [o] => o.del == 2 | _ => false),
   (let s := (withOp 1 9 0 1 site9).updSite 9 fun x => { x with halted := true, haltFlit := true, haltCause := 4 }
    ok s 1 9 0 && s.siteOpen 9 1 && nx (exec (.laneHalt 1) s) fun t => (t.lg 1).inbox = [] && (t.site 9).halted &&
      match (t.lg 1).ops with | [o] => o.del == 2 && o.hlt == 2 && o.wait == 0 | _ => false),
   (let s := { withFire 0 (fr 1 2 3) s0 with lgs := [(1, { ops := [no, { id := 5 }] })] }
    isAlone s && s.peFor 7 1 9 == some 6 && nx (exec (.completionNotice 1) s) fun t => (t.lg 1).ops = [{ id := 5 }] &&
      t.net.transit.any fun k => k.dst = .pe 6 && match k.body with
        | .tok n => n.ctx == 7 && n.act == 1 && n.iter == 9 && n.grp == 2 && n.flow == 3 && n.kind == 2 && n.crcOk && n.value == BitVec.ofNat 64 (no.value 1)
            && no.value 1 == 1 + 3 * 2 ^ 8 + 2 ^ 24 + 2 ^ 28 + SUPERSEDED * 2 ^ 32
        | _ => false),
   (let s := { withFire 0 (fr 1 2 3) s0 with lgs := [(1, { ops := [{ no with killed := true }] })] }
    nx (exec (.completionNotice 1) s) fun t => t.net = s.net && (t.lg 1).ops = [])] : List Bool)).all id = true := by
  decide +kernel

theorem witness_SiteControls : ((
  let s (c : Nat) (f : Site → Site) : State :=
    { site9.updSite 9 (fun x => f { x with ctl := [(7, c), (8, 1)] }) with lgs := [(1, { ops := [{ id := 7, job := 1, req := 2, wait := 2 }] })] }
  let go (i : Instr) (c : Nat) (f : Site → Site) (p : Site → Bool) : Bool :=
    (s c f).opJob 9 7 == 1 && (s c f).siteOpen 9 1 && nx (exec i (s c f)) fun t => (t.site 9).ctl = [(8, 1)] && p (t.site 9)
  [go (.pause 9) 1 id fun x => x.paused, go (.resume 9) 2 (fun x => { x with paused := true }) fun x => !x.paused,
   go (.rearm 9) 3 (fun x => { x with halted := true, high := 2 ^ 48 - 1 }) fun x => !x.halted && x.rearm = [] && x.next = 0,
   go (.rearm 9) 3 (fun x => { x with halted := true, haltDue := some 4 }) fun x => x.halted && x.rearm = [7],
   go (.rearm 9) 3 (fun x => { x with rearm := [9] }) fun x => !x.halted && x.rearm = [9],
   go (.reflexOn 9) 4 id fun x => x.reflex, go (.reflexOff 9) 5 (fun x => { x with reflex := true }) fun x => !x.reflex,
   go (.release 9) 6 (fun x => { x with queue := [{ desc := 3 }], cur := some { desc := 3 } }) fun x =>
     x.released && x.queue = [] && x.cur = some { desc := 3 },
   (let p : PendBranch := { op := 7, pe := 5, word := 3 + 2 ^ 51 * 2, at_ := 40, land := 8 }
    let o (pe land : Nat) : PendBranch := { p with op := 6, pe := pe, land := land }
    let s (o : PendBranch) := (s 1 id).updSite 9 fun x => { x with brq := [p], ctl := [], branch := some o, queue := [{ desc := 3 }] }
    let go (o b : PendBranch) : Bool := nx (exec (.laneBranch 9) (s o)) fun t => (t.site 9).brq = [] && (t.site 9).branch = some b &&
      ((t.site 9).queue = [{ desc := 3 }] || o.land != p.land)
    go (o 6 8) p && go (o 4 8) (o 4 8) && go (o 4 9) p),
   (let p : PendBranch := { op := 7, pe := 5, word := 3 + 2 ^ 51 * 2 }
    let s := (s 1 id).updSite 9 fun x => { x with brq := [p, { op := 9 }], ctl := [] }
    s.opJob 9 7 == 1 && s.siteOpen 9 1 && s.branchOk 9 p.word && nx (exec (.laneBranch 9) s) fun t =>
      (t.site 9).brq = [{ op := 9 }] && (t.site 9).branch = some p),
   (let s := (s 1 id).updSite 9 fun x => { x with trig := true, reflex := true }
    nx (exec (.reflexStop 9) s) fun t => (t.site 9).halted && !(t.site 9).trig && (t.site 9).haltCause = 0 && (t.site 9).reflex),
   (let s0 := (s 1 id).updSite 9 fun x => { x with trig := true, reflex := true, halted := true, haltIn := some (30, 1, 1), haltedAt := 30, haltCause := 1 }
    let s := { s0 with time := 30 }
    nx (exec (.reflexStop 9) s) fun t => (t.site 9).halted && !(t.site 9).trig && (t.site 9).haltCause = 0)] : List Bool)).all id = true := by
  decide +kernel

theorem witness_StagingAndPlayback : ((
  let b1 : Burst := { desc := 4, k := 3, total := 4, op := 8 }
  let rec_ : List Byte := [7, 8] ++ zeros 253 ++ [9]
  let rd : Reader := { base := 0x8000, count := 4, last := 8, recs := [(3, rec_)], lanes := [9, 10], nextRec := 5 }
  let rec2 : List Byte := [1] ++ zeros 255
  let rd2 : Reader := { rd with base := 0x18000, recs := [(2, rec_), (3, rec2)], lanes := [10] }
  [(let s := { site9 with time := 1000 }.updSite 9 fun x => { x with wcode := 3, cycU := 41, queue := [{ desc := 3, total := 1, op := 7 }], lastSlot := 32 * 1012, next := 2 ^ 48 - 1 }
    isAlone s && s.siteUp 9 && s.stageDue 9 && ((s.lane 9).desc 3).mode == 0 && nx (exec (.vectorStage 9) s) fun t =>
      (t.site 9).next = 0 && match (t.site 9).staged with | [v] => v.idx == 2 ^ 48 - 1 && v.vecs.length == 2 && v.slot == 32 * 1012 + 656 && v.at_ == 1033 && (t.site 9).lastSlot == v.slot && v.ends == [7] | _ => false),
   (let s := { { site9 with time := 1000 }.updSite 9 fun x => { x with cur := some b1 } with readers := [(1, { rd with lanes := [9] }), (4, rd2)] }
    s.siteUp 9 && s.stageDue 9 && ((s.lane 9).desc 4).mode == 1 && s.readerOf 9 == some 1 && s.readerOf 10 == some 4 && nx (exec (.vectorStage 9) s) fun t =>
      match (t.site 9).staged with
      | [v] => v.idx == 6 && v.vecs.map (fun x => (x.stim, x.en)) ==
          [(leNat (rec_.take 128), leNat (slice rec_ 128 128)), (leNat (rec2.take 128), leNat (slice rec2 128 128))]
      | _ => false),
   (let s := { site9.updSite 9 fun x => { x with cur := some b1 } with readers := [(1, rd)], ddr := memOf 0 0x8100 rec_ }
    s.playPos 9 == some 3 && s.playPos 10 == some 3 && decide s.ddrClean && nx (exec (.playbackRecordFetch 1) s) fun t =>
      (Tbl.get {} t.readers 1).nextRec = 6 && (Tbl.get {} t.readers 1).recs = [(3, rec_), (5, rec_)]),
   (let p : Pkt := { router := 2 + 6 * 3, body := .lane (tk 1) 1 5 (some 3) }
    let s := { site9 with cohorts := [(3, 2 ^ 8 + 2 ^ 127)], net := { site9.net with cohortQ := [p, p] } }
    p.router == (1 + 9 % 4) + 6 * (1 + 9 / 4) && nx (exec (.cohortCopy 9) s) fun t => t.net.cohortQ = [p] &&
      (List.range 16).filter (fun g => t.net.transit.any fun q => q.dst = .lg g && q.body = p.body) = [1, 15]),
   (let s := site9.updLane 9 fun x => { x with ve := [(8, 3)] }
    s.domOn (lgDom 1) && nx (exec (.veCntClr 9) s) fun t => Tbl.get 0 (t.lane 9).ve 8 = 0),
   (let s := { site9.updLane 9 fun x => { x with ve := [(8, 3)] } with fc := { notes := [(.cnt .ve 9 8, 1)] } }
    nx (exec (.veCntClr 9) s) fun t => Tbl.get 0 (t.lane 9).ve 8 = 1),
   (let s := { site9 with sites := [], regs := [(veBase 9 + 6, 0x13FFF)] }
    nx (exec (.veIndAccess 9 (some 0xFFFFFFFF)) s) fun t => (t.lane 9).word 0x13FFF = 0xFFF && t.ioReg (veBase 9 + 6) 0 % 2 ^ 17 = 0x13FFF),
   (let s := { site9 with sites := [], regs := [(veBase 9 + 6, 0x1600F + 2 ^ 31)] }
    s.domOn (lgDom 1) && s.siteOfLane 9 == none && indListed (s.ioReg (veBase 9 + 6) 0 % 2 ^ 17) && nx (exec (.veIndAccess 9 (some 0xAB)) s) fun t =>
      (t.lane 9).word 0x1600F = 0xAB && t.ioReg (veBase 9 + 6) 0 % 2 ^ 17 = 0x16010)] : List Bool)).all id = true := by
  decide +kernel

/-- A site setup image: site 9 on lane 9, W = 4, template 0 of one cycle of driven zeros. -/
def siteImage : List Byte :=
  let body := le [(4, 2 ^ 24), (4, 4), (4, 0xFFFF0000), (4, 0xFFFFFFFF), (4, 0xFFFFFFFF), (4, 0xFFFFFFFF),
    (4, 0x10000), (4, 1), (4, 0), (4, 0)]
  le [(4, 0x4D544953), (2, 1), (1, 9), (1, 9), (1, 1), (1, 0), (2, 5), (4, 64), (1, 1), (1, 0xFF), (2, 2), (4, 40), (4, 639562071)] ++
    zeros 36 ++ body

theorem witness_SiteAndOutletCommands_map : ((
  [(let a := le [(1, 0), (1, 1), (2, 0), (4, 104), (8, 0x4000)]
    let s := call 3 0x20 a { s0 with regs := [(0xD132, 0x10000)], ddr := memOf 0 0x4000 siteImage, lanes := [(9, { state := 5 })] }
    served s 3 0x20 16 [(0, 1), (1, 1), (4, 4), (8, 8)] && match s.image 1 0x4000 104 with
      | .ok img => img.length == 104 && fld img 0x14 4 == 40 && (match s.siteCheck img with
        | .ok [y] => nx (exec (.siteMapImage 3) s) fun t => done s t 3 OK [0xFF, 0xFF] && (let x := t.site 9
            x.bound && x.first == 9 && x.lanes == 1 && x.cycU == 5 && x.lead == 64 && x.next == 0 && x.queue == [] && !x.halted && x.reflex) &&
            (t.lane 9).ind = y.ind && y.ind.length == 5 && (t.cu 9).pass = 0 && (t.lane 9).mark = some 0
        | _ => false)
      | _ => false)] : List Bool)).all id = true := by
  decide +kernel

theorem witness_SiteAndOutletCommands : ((
  [(let s := call 3 0x20 (le [(1, 1), (1, 0), (2, 1023), (4, 0), (16, 2 ^ 127)]) s0
    served s 3 0x20 24 [(0, 1), (2, 2), (8, 16)] && nx (exec (.siteMapCohort 3) s) fun t => done s t 3 OK [] && t.cohorts = [(1023, 2 ^ 127)]),
   (let s := call 3 0x40 (le [(1, 0), (1, 1), (1, 1), (1, 0), (1, 26), (3, 0), (8, 0x40)]) s0
    served s 3 0x40 16 [(0, 1), (1, 1), (2, 1), (3, 1), (4, 1), (8, 8)] && outArgsOk (s.mb 3).args && !s.outEn 1 &&
      nx (exec (.outletConfigOutlet 3) s) fun t => done s t 3 OK [] && t.outEn 1 && t.outDest 1 = 0 && t.outSize 1 = 2 ^ 26 && t.outBase 1 = 0x40),
   (let s := call 3 0x40 (le [(1, 1), (1, 120), (1, 8), (1, 0), (4, 4000), (4, 256), (4, 4000)]) s0
    served s 3 0x40 16 [(0, 1), (1, 1), (2, 1), (4, 4), (8, 4), (12, 4)] && cuArgsOk (s.mb 3).args &&
      nx (exec (.outletConfigCompare 3) s) fun t => done s t 3 OK [] && (List.range 8).all fun i =>
        t.cuWin (120 + i) = 4000 && t.cuFlood (120 + i) = 256 && t.cuReg (120 + i) 2 10 = 4000),
   (let s := call 3 0x21 (le [(1, 127), (1, 0), (6, 9)]) s0
    served s 3 0x21 8 [(0, 1), (2, 6)] && nx (exec (.siteRejoin 3) s) fun t => (t.mb 3).state = 2 &&
      t.arb = [{ obj := .site 127, opened := 0, cmds := [{ rank := 2, at_ := 0, what := .rejoin 3 9 }] }]),
   (let s := call 15 0x22 [127] s0
    served s 15 0x22 1 [(0, 1)] && nx (exec (.siteRetire 15) s) fun t => (t.mb 15).state = 2 &&
      t.arb = [{ obj := .site 127, opened := 0, cmds := [{ rank := 1, at_ := 0, what := .retire 15 }] }])] : List Bool)).all id = true := by
  decide +kernel

/-! ### Compare units and outlets -/

theorem witness_CompareUnitCommands : ((
  let at9 (f : Site → Site) (g : Cu → Cu) : State := (site9c.updSite 9 f).updCu 10 g
  let v : Staged := { idx := 2 ^ 48 - 1, at_ := 500, vecs := [{}, { en := 3, exp := 1 }], toSend := 0, toFret := 2 }
  let f1 : Fret := { idx := 7, at_ := 100 }
  let f2 : Fret := { idx := 8, at_ := 101 }
  let on (s : State) : State := { s with regs := [(0xDC00, 0x1001)] }
  let cr : CuRec := { ty := 0xF2, words := [1, 2], ctx := 7, flow := 73, job := 1 }
  [isAlone site9c && site9c.siteOfLane 10 == some 9,
   (let s := at9 (fun x => { x with staged := [v] }) id
    (s.site 9).nextFollow 1 == some v && nx (exec (.fretWrite 10) s) fun t => t.time = 564 &&
      (t.cu 10).frets = [{ idx := 2 ^ 48 - 1, at_ := 564, exp := 1, en := 3 }] && (t.cu 10).high = 2 ^ 48 - 1),
   (let s := at9 id fun c => { c with frets := [f2, f1], cnt := [(0x0E, 0xFFFFFFFF)] }
    (s.cu 10).nextDue == some f1 && !s.reportDue 9 && nx (exec (.fretDeadline 10 1) s) fun t => 164 + s.rtMax 10 ≤ t.time &&
      (t.cu 10).frets = [f2] && Tbl.get 0 (t.cu 10).cnt 0x0E = 0xFFFFFFFF),
   (let s := at9 (fun x => { x with haltDue := some 4 }) fun c => { c with frets := [f1, f2] }
    (s.cu 10).nextDue == some f1 && s.reportDue 9 && nx (exec (.fretDeadline 10 2) s) fun t =>
      (t.cu 10).frets = [{ f1 with deferred := true, err := 2 }, f2]),
   (let s := withFire 0 (fr 1 2 3) (at9 id fun c => { c with fifo := [gt 0 2, gt 1 2], lastOut := some 50 })
    s.peFor 7 1 9 == some 6 && nx (exec (.failTokenInject 1) s) fun t => (t.cu 10).fifo = [gt 1 2] && t.time = 58 && (t.cu 10).lastOut = some 58 &&
      t.net.transit.any fun q => q.dst = .pe 6 && q.body = .tok (gt 0 2)),
   (let s := on (at9 id fun c => { c with summary := true, sumAt := 900, acc := { any := true, first := some 3, top := some 5, miss := 2 } })
    s.outEn 0 && s.recOutlet 10 == 0 && s.cuRecRoom (s.sumRec 10 9 (s.cu 10).acc false) && nx (exec (.summaryIntervalEnd 10) s) fun t =>
      t.time = 900 && (t.outlet 0).done.map (fun r => (r.ty, r.words, r.seq)) = [(0xF1, (s.sumRec 10 9 (s.cu 10).acc false).words, 0)] &&
        (t.cu 10).acc.first = some 6 && (t.cu 10).summary && (t.cu 10).sumAt = 900 + s.sumLen 10),
   (let s := on (at9 id fun c => { c with held := [cr, { cr with ty := 0xF1 }] })
    s.cuRecRoom cr && nx (exec (.heldRecordWrite 10) s) fun t => (t.cu 10).held = [{ cr with ty := 0xF1 }] &&
      (t.outlet 0).done.map (fun x => (x.words, x.ty, x.device)) = [([1, 2], 0xF2, true)]),
   (let s := at9 (fun x => { x with haltDue := some 4 }) fun c => { c with frets := [{ f1 with deferred := true }, f2, { f1 with idx := 2 ^ 48 - 1 }] }
    nx (exec (.haltRptReceived 9 4 (le [(6, 8)])) s) fun t => (t.site 9).haltDue = none && (t.cu 10).frets = [{ f1 with idx := 2 ^ 48 - 1 }]),
   (let s := at9 id id
    nx (exec (.haltRptReceived 10 0 (le [(6, 8)])) s) fun t => (t.site 9).halted && (t.site 9).haltCause = 4),
   (let s := at9 id fun c => { c with cnt := [(3, 4)], pins := [(0, 9)], pass := 6, frets := [f1] }
    let s := { s.updCu 10 fun c => { c with cnt := [(3, 4), (0x0C, 5), (0x12, 7)] } with fc := { notes := [(.cnt .cu 10 0x12, 2)] } }
    let c (t : State) : List Nat := [3, 0x0C, 0x12].map fun n => Tbl.get 0 (t.cu 10).cnt n
    nx (exec (.cuCntClr 10 1) s) (fun t => c t = [4, 0, 2] && Tbl.get 0 (t.cu 10).pins 0 = 0 && (t.cu 10).pass = 0 && (t.cu 10).frets = [f1]) &&
    nx (exec (.cuCntClr 10 2) s) fun t => c t = [4, 0, 2] && (t.cu 10).pins = [(0, 9)] && (t.cu 10).pass = 6),
   (let s := { at9 (fun x => { x with flooded := true }) id with fc := { notes := [(.w1c .flood 9, 1)] } }
    nx (exec (.cuFloodClr 10) s) fun t => (t.site 9).flooded),
   (let s := at9 (fun x => { x with brk := some (0, 8) }) id
    (s.site 9).repeats s.time 8 && nx (exec (.haltRptReceived 10 0 (le [(6, 8)])) s) fun t => t.site 9 = s.site 9 && t.rcd = s.rcd),
   nx (exec (.cuFloodClr 10) (at9 (fun x => { x with flooded := true }) id)) (fun t => !(t.site 9).flooded),
   (let s := { at9 (fun x => { x with flooded := true }) id with sites := [(8, { flooded := true }), (9, { flooded := true }), (31, { flooded := true })] }
    nx (exec (.floodClr 0 0x80000200) s) fun t => [8, 9, 31].map (fun k => (t.site k).flooded) = [true, false, false])] : List Bool)).all id = true := by
  decide +kernel

theorem witness_OutletWrites : ((
  let base := { withFire 0 (fr 1 2 3) s0 with regs := [(0xDC00, 0x1001), (0xDC20, 0xC01), (0xDC21, 0x8000)] }
  let s (b : OutAsk) (x : Outlet) : State :=
    { base with outlets := [(1, { x with ports := [(2, [{ body := .out 5 3 7 9 b }, {}])] })] }
  let r0 : ORec := { ctx := 7, flow := 9, words := [11, 12], ty := 4 }
  let rest (t : State) : Bool := (t.outlet 1).port 2 = [{}]
  let ans (t : State) (v f : Nat) : Bool := t.net.transit.any fun k => k.dst = .pe 5 && k.body = .answer 1 3 v f
  let ringed (x : Outlet) : State := { base with outlets := [(1, x)], time := 77 }
  let big : ORec := { ctx := 7, flow := 9, words := [5, 6, 7, 8, 9], ty := 4, bank := 1, seq := 3, partialN := 2 }
  let big : ORec := { big with acc := big.crc }
  let one : ORec := { big with words := [5] }
  let one : ORec := { one with acc := one.crc }
  [base.domOn (outDom 1) && isAlone base && base.outEn 1 && base.ctxLive 7,
   (let s := s (.append 0x1FE1 5 true) { fill := 1 }
    nx (exec (.outletAppendAccept 1 2) s) fun t => rest t && ans t 0x1FE1 0 && match (t.outlet 1).find 7 9 with
      | some x => x.words == [5] && x.ty == 0xFF && x.poisoned && x.bank == 1 | none => false),
   (let s := s (.append 1 (2 ^ 64 - 1) false) { open_ := [{ ctx := 7, flow := 8 }, r0] }
    nx (exec (.outletAppendAccept 1 2) s) fun t => rest t && ans t 1 0 && match (t.outlet 1).find 7 9 with
      | some x => x.words == [11, 12, 2 ^ 64 - 1] && !x.poisoned | none => false),
   (let s := s (.append 1 5 false) { open_ := [{ r0 with partialN := 3 }] }
    nx (exec (.outletAppendAccept 1 2) s) fun t => rest t && ans t 1 0x2A && (t.outlet 1).find 7 9 = none),
   (let s := s (.append 1 5 false) { open_ := [{ r0 with words := List.replicate 512 1 }] }
    nx (exec (.outletAppendAccept 1 2) s) fun t => rest t && ans t 1 0x2A && (t.outlet 1).find 7 9 = none),
   (let s := { s (.commit 1) { open_ := [r0], seq := 0xFFFFFFFF } with time := 88 }
    nx (exec (.outletCommitAccept 1 2) s) fun t => rest t && ans t (OK + 2 * 2 ^ 32) 0 && (t.outlet 1).find 7 9 = none && (t.outlet 1).seq = 0 &&
      (t.outlet 1).done.map (fun x => (x.words, x.seq, x.time)) = [([11, 12], 0xFFFFFFFF, 88)]),
   (let s := s (.commit 1) { open_ := [{ r0 with poisoned := true }] }
    nx (exec (.outletCommitAccept 1 2) s) fun t => ans t (DENIED + 2 ^ 16 + 2 * 2 ^ 32) 0 && (t.outlet 1).find 7 9 = none && (t.outlet 1).done = []),
   (let s := s (.commit 1) { open_ := [{ r0 with flow := 8 }] }
    nx (exec (.outletCommitAccept 1 2) s) fun t => ans t BAD_ARG 0 && (t.outlet 1).done = []),
   (let s := s .mark { open_ := [{ r0 with flow := 8 }] }
    nx (exec (.poisonMark 1 2) s) fun t => rest t && ans t 0 0 && match (t.outlet 1).find 7 9 with | some x => x.poisoned | none => false),
   (let s := ringed { fill := 1, done := [big] }
    nx (exec (.outletBankSwap 1) s) fun t => (t.outlet 1).fill = 0 && (t.outlet 1).done = [big]),
   (let s := ringed { fill := 0, done := [{ big with seq := 9 }, big], wr := 4095, wr2 := 4095, rd := 100, rd2 := 100 }
    (s.outlet 1).nextDone == some big && s.outDest 1 == 0 && s.outSize 1 == 4096 && big.span == 2 && s.ddr.wf 0 && nx (exec (.outletRecordDrain 1 none) s) fun t =>
      t.ddrBytes 0x8000 128 = big.bytes false && (t.outlet 1).wr = 2 && !(t.outlet 1).phase && (t.outlet 1).done = [{ big with seq := 9 }] &&
        t.ddrBytes (0x8000 + 128) 64 = zeros 64),
   (let s := ringed { fill := 0, done := [one], wr := 4095, wr2 := 4095, rd := 100, rd2 := 100 }
    nx (exec (.outletRecordDrain 1 none) s) fun t => t.ddrBytes (0x8000 + 64 * 4095) 64 = one.bytes true &&
      (t.outlet 1).wr = 0 && (t.outlet 1).done = []),
   (let s := ringed { fill := 0, done := [big], dropCnt := 7 }
    (big.flip (some (4, 1))).crc != big.acc && nx (exec (.outletRecordDrain 1 (some (4, 1))) s) fun t => (t.outlet 1).dropped && t.ddr = s.ddr &&
      (t.outlet 1).dropCnt = 8 && (t.outlet 1).done = []),
   (let s := s .commitPoisoned { open_ := [r0] }
    nx (exec (.outletCommitAccept 1 2) s) fun t => rest t && ans t (DENIED + 2 ^ 16) 0 && (t.outlet 1).find 7 9 = none && (t.outlet 1).done = []),
   (let s := { s .mark { open_ := [r0] } with cm := {} }
    !s.ctxLive 7 && nx (exec (.poisonMark 1 2) s) fun t => rest t && ans t 0 0 && (t.outlet 1).open_ = [r0]),
   (let s := ringed { open_ := [r0, { r0 with device := true, flow := 3 }], done := [big], wr := 9, wr2 := 8, ckWr := 4, ckRd := 5 }
    nx (exec (.outletReset 1 4 1) s) fun t => (t.outlet 1).open_ = [] && (t.outlet 1).done = [] && (t.outlet 1).dead = [(7, 9)] && (t.outlet 1).wr = 4 &&
      (t.outlet 1).rd = 5 && (t.outlet 1).wr2 = 4 && (t.outlet 1).rd2 = 5 && (t.outlet 1).reset_)] : List Bool)).all id = true := by
  decide +kernel

/-! ### Lanes -/

/-- The conclusion of `Loses`, checked. -/
def loses (s : State) (c : Instr) (l due cause dest : Nat) : Bool :=
  nx (exec c s) fun t => t.time = max s.time due && (t.lane l).state = dest && (t.lane l).cause = cause &&
    Tbl.get 0 (t.lane l).lp 0x0D = min 0xFFFFFFFF (Tbl.get 0 (s.lane l).lp 0x0D + 1) &&
    (t.lane l).purgeStim = min 0xFFFF (s.stimStaged l) &&
    (t.lane l).purgeCtrl = min 0xFF ((s.lane l).unacked.length + (s.lane l).ctrlQ.length) && (t.lane l).unacked = [] &&
    (t.lane l).ctrlQ = [] && t.host.laneAlert.testBit l && t.host.alert.testBit 1 && match s.siteOfLane l with
      | none => true
      | some k => (s.site k).quar || ((t.site k).quar &&
          (s.site k).laneList.all fun j => j = l || (s.lane j).state ≠ 5 || (t.lane j).state = 4)

/-- Lane 10 of site 9, in a state. -/
def at10 (f : Lane → Lane) (g : Site → Site := id) : State := (site9c.updSite 9 g).updLane 10 f

theorem witness_LaneTransmission : ((
  let go (s : State) (p : State → Bool) : Bool := nx (exec (.flitSlotStart 10) s) p
  let v : Staged := { idx := 2 ^ 48 - 1, at_ := 50, vecs := [{}, { stim := 0x1234 }], toSend := 3, toFret := 2, slot := 1590, late := true }
  let v' : Staged := { v with idx := 0, at_ := 82, slot := 2600 }
  let m : CtrlMsg := { seq := 4, data := padTo 128 [9, 4, 1, 0, 7] }
  let e : CtrlMsg := { seq := 2, sends := 1, at_ := 6 }
  let stat (s : State) : State := s.updLane 10 fun x => { x with lastStatus := s.linkStatus 10 }
  [(let s := at10 fun x => { x with state := 4, halt := some 7, mark := some 1 }
    go s fun t => (t.lane 10).tx.ty = 3 && (t.lane 10).tx.field = 7 && (t.lane 10).halt = none && (t.lane 10).rpt = some (7, 0)),
   (let s := at10 (fun x => { x with state := 5, mark := some 2 }) fun x => { x with staged := [v] }
    go s fun t => (t.lane 10).tx.ty = 8 && (t.lane 10).mark = none && fld (t.lane 10).tx.payload 0 6 = 2 ^ 48 - 1 && fld (t.lane 10).tx.payload 6 1 = 2),
   (let s := { at10 (fun x => { x with state := 5, stimLimit := 0, stimSent := 2 ^ 32 - 1 }) fun x => { x with staged := [v, v'] } with time := 50 }
    let s := s.updLane 9 fun x => { x with stimLimit := 3 }
    s.siteCredit 9 v && (s.site 9).nextSend 1 == some v && go s fun t => (t.lane 10).tx.ty = 1 && (t.lane 10).tx.field = 0xFFFFFF &&
      (t.lane 10).tx.payload = padTo 128 [0x34, 0x12] && (t.lane 10).stimSent = 0 && (t.site 9).high = 5 &&
      (t.site 9).staged.map (fun w => (w.at_, w.slot)) = [(50, 1600), (82, 2624)]),
   (let s := { at10 (fun x => { x with state := 5, stimSent := 3, stimLimit := 4 }) fun x => { x with staged := [{ v with at_ := 40 }] } with time := 50 }
    !s.siteCredit 9 { v with at_ := 40 } && go s fun t => (t.lane 10).tx.ty ≠ 1 && (t.lane 10).stimSent = 3 && (t.lane 10).stimWait = none &&
      (t.site 9).staged.map (·.late) = [true]),
   (let s := { at10 (fun x => { x with state := 5, stimSent := 4, stimLimit := 4 }) fun x => { x with staged := [v] } with time := 50 }
    !s.siteCredit 9 v && go s fun t => (t.lane 10).tx.ty ≠ 1 && (t.lane 10).stimSent = 4 && (t.lane 10).stimWait = some 50),
   (let s := at10 fun x => { x with state := 4 }
    go s fun t => (t.lane 10).tx.ty = 6 && (t.lane 10).tx.payload = s.linkStatus 10 && (t.lane 10).lastStatus = s.linkStatus 10),
   (let s := stat (at10 fun x => { x with state := 4, ctrlQ := [m, e], unacked := [e], feWindow := 2 })
    go s fun t => (t.lane 10).tx.ty = 4 && (t.lane 10).tx.payload = m.data && (t.lane 10).ctrlQ = [e] &&
      (t.lane 10).unacked = [e, { m with sends := 1, at_ := 0 }]),
   (let s := stat (at10 fun x => { x with state := 4, ctrlQ := [m], unacked := [e], feWindow := 1 })
    go s fun t => (t.lane 10).tx.ty = 0 && (t.lane 10).tx.payload = s.linkStatus 10),
   (let s := at10 fun x => { x with state := 3, phase := 1, slot := 1284 }
    go s fun t => (t.lane 10).tx.ty = 7 && (t.lane 10).tx.field = 1284 && (t.lane 10).tx.flags = 0 && (t.lane 10).slot = 0),
   (let s := at10 fun x => { x with state := 2, slot := 7 }
    go s fun t => (t.lane 10).tx = { ty := 7, field := 7, payload := zeros 128 } && decide ((s.lane 10).codes (t.lane 10))),
   (let s := at10 fun x => { x with state := 3, phase := 0, slot := 4, cfgNow := 2, txMsg := 5, txCrcs := [1, 2] }
    go s fun t => (t.lane 10).tx.ty = 7 && (t.lane 10).txMsg = 0x047 * 2 ^ 4224 / 2 ^ 5140 && decide ((s.lane 10).codes (t.lane 10))),
   (let s := at10 fun x => { x with state := 3, phase := 0, slot := 4, cfgNow := 2, txMsg := 5, txCrcs := [1, 2] }
    go s fun t => (t.lane 10).txCw.1 = 5 + 0x047 * 2 ^ 4224 && (t.lane 10).txCw.2 = 1 + 2 * 2 ^ 32 && (t.lane 10).txCrcs.length = 1),
   (let s := at10 fun x => { x with state := 3, phase := 0, cfgNow := 0x12 }
    (s.lane 10).testing && go s fun t => (t.lane 10).txTest = 1 && (t.lane 10).tx = (s.lane 10).tx),
   (let s := at10 fun x => { x with state := 3, phase := 2 }
    go s fun t => (t.lane 10).tx.ty = 4 && (t.lane 10).tx.payload = ctrlData 1 0 (s.helloBody 10) && (t.lane 10).helloAt = some 0),
   (let s := at10 fun x => { x with state := 3, phase := 2, helloAt := some 0, ctrlQ := [m, e] }
    go s fun t => (t.lane 10).tx.ty = 4 && (t.lane 10).tx.payload = m.data && (t.lane 10).ctrlQ = [e]),
   (let s := at10 fun x => { x with state := 3, phase := 2, helloAck := true, helloIn := some [], slot := 9 }
    go s fun t => (t.lane 10).tx = { ty := 7, field := 9, payload := zeros 128, flags := 1 }),
   (let s := at10 fun x => { x with state := 3, phase := 2, helloAck := true, slot := 9 }
    go s fun t => (t.lane 10).tx = { ty := 7, field := 9, payload := zeros 128, flags := 0 }),
   (let s := at10 fun x => { x with state := 4, statusAt := 30 }
    nx (exec (.creditRefreshDue 10) s) fun t => t.time = 4030 && (t.lane 10).creditDue),
   (let s := at10 fun x => { x with state := 5, unacked := [e, m] }
    nx (exec (.ctrlRetransmit 10) s) fun t => t.time = 8006 && (t.lane 10).unacked = [{ e with again := true }, { m with again := true }]),
   (let s := at10 fun x => { x with state := 3, phase := 2, helloAt := some 9 }
    nx (exec (.helloResend 10) s) fun t => t.time = 8009 && (t.lane 10).helloAt = none)] : List Bool)).all id = true := by
  decide +kernel

theorem witness_LaneReception : ((
  let f : Fret := { idx := 2 ^ 24 + 3, at_ := 9, exp := 0x10F, en := 0xFFF, side := [(0, 100), (1, 200)] }
  let s : State := (at10 fun x => { x with state := 5 }).updCu 10 fun c =>
    { c with high := 2 ^ 24 + 7, frets := [{ idx := 2, at_ := 1 }, f], destAct := 1, destCtx := 7, destSet := true }
  let hit (s : State) : Bool := isAlone s && s.siteOfLane 10 == some 9 && (s.cu 10).frets.find? (fun g => g.idx == 2 ^ 24 + 3) == some f &&
    extIdx (s.cu 10).high 3 == 2 ^ 24 + 3 && decide (s.floodCount 10 < s.floodT 10) && (s.cu 10).destSet && !(s.cu 10).summary
  let a : CtrlMsg := { seq := 254 }
  let m (n : Nat) : CtrlMsg := { seq := n }
  let up (g : Lane → Lane) : State := at10 fun x => g { x with state := 5 }
  [hit s && nx (exec (.captReceived 10 2 3 1 0x1FF 0) s) (fun t => (t.cu 10).frets = [{ idx := 2, at_ := 1 }] && (t.cu 10).pass = 0 &&
      (t.cu 10).fifo = (mismatchValues 4 f.side 0xF0).map (s.failTok 10 9 (2 ^ 24 + 3)) &&
      (t.cu 10).fifo.map (fun x => x.value.toNat % 2 ^ 48) = [200]),
   hit s && nx (exec (.captReceived 10 2 3 0 (0x10F + 2 ^ 1024) 1) s) (fun t => (t.cu 10).fifo = [] && (t.cu 10).pass = 1),
   (let s := s.updCu 10 fun c => { c with cnt := [(0x0D, 9)] }
    nx (exec (.captReceived 10 2 4 0 5 2) s) fun t => (t.cu 10).frets = (s.cu 10).frets && Tbl.get 0 (t.cu 10).cnt 0x0D = 10),
   (let s := at10 fun x => { x with state := 1, unacked := [a, m 255, m 0, m 1] }
    nx (exec (.linkStatusReceived 10 true (le [(4, 77), (4, 0), (1, 1), (1, 3), (6, 0), (4, 5)])) s) fun t => (t.lane 10).stimLimit = 77 &&
      (t.lane 10).feErr = 5 && (t.lane 10).intactAt = 0 && (t.lane 10).unacked = [m 1]),
   nx (exec (.captReceived 10 2 3 0 0x10F 0) s) (fun t => (t.cu 10).pass = 1 && t.capsOf 9 = [(10, 2 ^ 24 + 3, s.cu 10)] &&
    nx (exec (.signalLost 10) t) (fun u => (u.cu 10).pass = 0 && (u.cu 10).frets = [] && (u.site 9).quar) &&
    nx (exec (.signalLost 10) { t with time := t.time + 1 }) (fun u => (u.cu 10).pass = 1) &&
    nx (exec (.haltRptReceived 9 4 (le [(6, 2 ^ 24 + 3)])) (t.updSite 9 fun x => { x with haltDue := some 4 })) (fun u =>
      (u.cu 10).pass = 0 && Tbl.get 0 (u.cu 10).cnt 0x0D = 1 && (u.cu 10).frets.all fun g => g.idx != 2 ^ 24 + 3) &&
    nx (exec (.haltRptReceived 10 4 (le [(6, 2 ^ 24 + 3)])) (t.updSite 9 fun x => { x with haltDue := some 4 })) (fun u =>
      Tbl.get 0 (u.cu 10).cnt 0x0D = Tbl.get 0 (s.cu 10).cnt 0x0D + 1) &&
    nx (exec (.haltRptReceived 9 4 (le [(6, 2 ^ 24 + 4)])) (t.updSite 9 fun x => { x with haltDue := some 4 })) (fun u =>
      (u.cu 10).pass = 1 && Tbl.get 0 (u.cu 10).cnt 0x0D = 0)),
   (let s := s.updSite 9 fun x => { x with quar := true }
    nx (exec (.captReceived 10 2 3 1 0x1FF 0) s) fun t => t.cus = s.cus),
   (let s := s.updLane 10 fun x => { x with lp := [(0x0C, 0xFFFFFFFF)] }
    nx (exec (.captReceived 10 1 3 1 0x1FF 0) s) (fun t => Tbl.get 0 (t.lane 10).lp 0x0C = 0xFFFFFFFF) &&
      nx (exec (.captReceived 10 8 3 1 0x1FF 0) { s with lanes := [(10, { state := 5 })] }) fun t => Tbl.get 0 (t.lane 10).lp 0x0C = 1),
   (let s := at10 fun x => { x with state := 3, phase := 2, helloSent := true }
    nx (exec (.linkStatusReceived 10 false (zeros 8 ++ [1])) s) (fun t => (t.lane 10).helloAck) &&
      nx (exec (.linkStatusReceived 10 false (zeros 9)) s) fun t => !(t.lane 10).helloAck),
   (let s := { up fun x => { x with rxSeq := 255 } with lgs := [(1, { rx := List.replicate 15 (8, []) })] }
    nx (exec (.ctrlReceived 10 [0x31, 255, 1, 0, 6]) s) (fun t => (t.lg 1).rx = List.replicate 15 (8, []) ++ [(10, padTo 128 [0x31, 255, 1, 0, 6])] &&
      (t.lane 10).rxSeq = 0)),
   (let s := up fun x => { x with lp := [(0x13, 0xFFFFFFFF)] }
    nx (exec (.ctrlReceived 10 [0x21]) s) fun t => Tbl.get 0 (t.lane 10).lp 0x13 = 0xFFFFFFFF && (t.lane 10).rxSeq = 1),
   nx (exec (.ctrlReceived 10 [0x22]) (up id)) (fun t => (t.lg 1).rx = [] && (t.lane 10).rxSeq = 1 && (t.lg 1).rejected = 1),
   nx (exec (.measReceived 10 0x1000003 [7]) (up fun x => { x with measLimit := 0, measSeen := 2 ^ 32 - 1 })) (fun t =>
      (t.lg 1).meas = [(10, 3, padTo 128 [7])] && (t.lane 10).measSeen = 0),
   (let s := at10 fun x => { x with state := 3, cfgNow := 2, lp := [(0x0B, 5)] }
    nx (exec (.uncorrectableCodeword 10 4 1) s) fun t => Tbl.get 0 (t.lane 10).lp 0x0B = 6 && Tbl.get 0 (t.lane 10).lp 0x0C = 4 && (t.lane 10).state = 3),
   (let s := at10 fun x => { x with state := 3, cfgNow := 1 }
    nx (exec (.uncorrectableCodeword 10 4 16) s) fun t => Tbl.get 0 (t.lane 10).lp 0x0A = 1 && Tbl.get 0 (t.lane 10).lp 0x0C = 4),
   (let s := at10 fun x => { x with state := 5, cfgNow := 1, errRun := 7, lp := [(8, 3), (9, 0xFFFFFFFE)] }
    nx (exec (.uncorrectableCodeword 10 4 15) s) fun t => Tbl.get 0 (t.lane 10).lp 8 = 4 && Tbl.get 0 (t.lane 10).lp 9 = 0xFFFFFFFF &&
      (t.lane 10).errRun = 0 && (t.lane 10).rxBad = 0)] : List Bool)).all id = true := by
  decide +kernel

theorem witness_LaneTraining : ((
  let tr (ph : Nat) (g : Lane → Lane := id) : State := at10 fun x => g { x with state := 3, phase := ph }
  let b := le [(8, 0xABCD), (4, 8), (1, 16), (1, 15), (1, 3), (5, 0)]
  [nx (exec (.eqComplete 10) (tr 0)) (fun t => (t.lane 10).state = 3 && (t.lane 10).phase = 1),
   nx (exec (.trainReceived 10 1284 false) (tr 1 fun x => { x with trainOk := 7, trainNext := 1284 })) (fun t => (t.lane 10).phase = 2),
   (let s := tr 2
    s.helloFail 10 b = 0 && nx (exec (.helloReceived 10 b) s) fun t => (t.lane 10).helloIn = some b && (t.lane 10).state = 3 &&
      (t.lane 10).ctrlQ.map (fun m => (m.data.length, fld m.data 0 1, slice m.data 4 10)) =
        [(128, 0x10, (s.site 9).setBody 9)]),
   (let far (fl : Bool) : State := tr 2 fun x => { x with helloIn := some b, helloSent := true, flagged := fl }
    nx (exec (.trainReceived 10 3 true) (far false)) (fun t => (t.lane 10).farDone && (t.lane 10).helloAck && (t.lane 10).state = 3) &&
      nx (exec (.trainReceived 10 3 true) (far true)) (fun t => (t.lane 10).feHold = some 8 && (t.lane 10).feId = 0xABCD &&
        (t.lane 10).feWindow = 16 && (t.lane 10).state = 5 && (t.lane 10).mark = some 1) &&
      nx (exec (.trainReceived 10 3 true) ((far true).updSite 9 fun x => { x with quar := true })) (fun t => (t.lane 10).state = 4 &&
        (t.lane 10).mark = none) &&
      nx (exec (.trainReceived 10 3 true) (s0.updLane 10 fun _ => (far true).lane 10)) fun t => (t.lane 10).state = 5 && (t.lane 10).mark = none),
   nx (exec (.flitSlotStart 10) (tr 2 fun x => { x with helloIn := some b, helloAck := true, farDone := true })) (fun t =>
      (t.lane 10).flagged && (t.lane 10).state = 5),
   [([(8, 1), (4, 8), (1, 16), (1, 15), (1, 2), (5, 0)], 1), ([(8, 1), (4, 8), (1, 16), (1, 14), (1, 3), (5, 0)], 2), ([(8, 1), (4, 6), (1, 16), (1, 15), (1, 3), (5, 0)], 3),
    ([(8, 1), (4, 8), (1, 17), (1, 15), (1, 3), (5, 0)], 3), ([(8, 1), (4, 8), (1, 16), (1, 15), (1, 3), (5, 1)], 3)].all (fun (p, c) =>
      let s := tr 2
      s.helloFail 10 (le p) = c && nx (exec (.helloReceived 10 (le p)) s) fun t => (t.lane 10).state = 3 && (t.lane 10).phase = 0 &&
        (t.lane 10).fail = c && (t.lane 10).failPhase = some 2 && Tbl.get 0 (t.lane 10).lp 0x0E = 1),
   (let s := (tr 2).updSite 9 fun x => { x with lead := 129 }
    s.helloFail 10 b = 2 && nx (exec (.helloReceived 10 b) s) fun t => (t.lane 10).phase = 0 && (t.lane 10).fail = 2),
   [(0, 600000), (1, 80000), (2, 100000)].all (fun (p, d) => nx (exec (.trainingPhaseTimeout 10) (tr p fun x => { x with phaseAt := 11 })) fun t =>
      t.time = 11 + d && (t.lane 10).state = 3 && (t.lane 10).phase = 0 && (t.lane 10).failPhase = some p && Tbl.get 0 (t.lane 10).lp 0x0E = 1),
   nx (exec (.signalDetected 10) (at10 fun x => { x with state := 2, phase := 2 })) (fun t => (t.lane 10).state = 3 && (t.lane 10).phase = 0),
   (let s := at10 fun x => { x with state := 2, forced := true }
    nx (exec (.signalDetected 10) s) (fun t => (t.lane 10).state = 2) && s.domOn (lgDom 1) &&
      nx (exec (.laneRetrain 10) s) fun t => (t.lane 10).state = 3),
   nx (exec (.signalLost 10) (tr 1 fun x => { x with forced := true })) (fun t => (t.lane 10).state = 2 && !(t.lane 10).forced)] : List Bool)).all id = true := by
  decide +kernel

theorem witness_LaneLosses : ((
  let m : CtrlMsg := { seq := 4, sends := 4, at_ := 100 }
  let v : Staged := { idx := 3, at_ := 50, vecs := [{}, {}], toSend := 2, toFret := 2 }
  let lost (n : Nat) (f : Lane → Lane := id) : State := at10 (fun x => f { x with state := n, unacked := [m, { m with seq := 5 }], ctrlQ := [{ m with seq := 6 }], intactAt := 70 }) fun x => { x with staged := [v] }
  [isAlone (lost 5) && (lost 5).siteOfLane 10 == some 9 && (lost 5).stimStaged 10 == 1,
   loses (lost 1) (.signalLost 10) 10 0 1 2 && loses (lost 5) (.signalLost 10) 10 0 1 2,
   loses (lost 5 fun x => { x with errRun := 7 }) (.uncorrectableCodeword 10 31 16) 10 0 2 3,
   loses (lost 4 fun x => { x with errTimes := List.replicate 31 0 }) (.captReceived 10 2 1 1 1 3) 10 0 3 3,
   loses (lost 5 fun x => { x with errTimes := List.replicate 31 0 }) (.captReceived 10 8 1 1 1 0) 10 0 3 3,
   loses (lost 5) (.noIntactFlitTimeout 10) 10 2070 4 3,
   loses (lost 4) (.trainReceived 10 7 false) 10 0 5 3,
   loses (lost 5 fun x => { x with stimWait := some 5 }) (.stimCreditTimeout 10) 10 20005 6 3,
   loses (lost 5 fun x => { x with rpt := some (1, 40) }) (.haltReportTimeout 10) 10 16040 7 3,
   loses (lost 5) (.laneRetrain 10) 10 0 8 3 && loses (lost 4) (.laneForceDown 10) 10 0 8 2 &&
     nx (exec (.laneForceDown 10) (lost 4)) (fun t => (t.lane 10).forced),
   loses (lost 5) (.ctrlRetransmit 10) 10 8100 9 3] : List Bool)).all id = true := by
  decide +kernel

theorem witness_LaneCommands : ((
  let up (f : Lane → Lane := id) : State := at10 fun x => f { x with state := 5, txSeq := 255 }
  let a : List Byte := [10, 0x30, 3, 0, 7, 8, 9]
  let r : Nat × List Byte := (10, padTo 128 [0x31, 4, 2, 0, 5, 6])
  let rx : LaneGroup := { rx := [r, (9, [])] }
  [(let s := call 3 0x23 a (up id)
    served s 3 0x23 7 [(0, 3), (4, 3)] && nx (exec (.laneSend 3) s) fun t => (t.mb 3).state = 2 && (t.lane 10).txSeq = 0 &&
      (t.lane 10).ctrlQ = [{ seq := 255, data := padTo 128 [0x30, 255, 3, 0, 7, 8, 9], by_ := 5 }]),
   (let s := call 3 0x23 a (at10 fun x => { x with state := 3 })
    served s 3 0x23 7 [(0, 3), (4, 3)] && nx (exec (.laneSend 3) s) fun t => done s t 3 NOT_ACTIVE []),
   (let s := call 3 0x24 [0xFF] { up id with lgs := [(1, rx)] }
    served s 3 0x24 1 [(0, 1)] && nx (exec (.laneRecv 3) s) fun t => (t.lg 1).rx = [(9, [])] && done s t 3 OK [10, 0x31, 2, 0, 5, 6]),
   (let s := call 3 0x24 [1] { up id with lgs := [(0, rx), (1, rx)] }
    served s 3 0x24 1 [(0, 1)] && nx (exec (.laneRecv 3) s) fun t => (t.lg 1).rx = [(9, [])] && (t.lg 0).rx = rx.rx && done s t 3 OK [10, 0x31, 2, 0, 5, 6]),
   (let s := { up id with lgs := [(1, { stage := [0x00020030, 0x0807], stageIdx := 2 })], regs := [(lgBase 8 + 2, 2)] }
    nx (exec (.ctlMessageQueue 1) s) fun t => (t.lg 1).busy && (t.lg 1).stageIdx = 0 &&
      (t.lane 10).ctrlQ = [{ seq := 255, data := padTo 128 [0x30, 255, 2, 0, 7, 8], by_ := 1 }]),
   nx (exec (.ctlFifoPopRead 1 false) { up id with lgs := [(1, { rx with meas := [(10, 1, [])] })] }) (fun t => (t.lg 1).rx = [(9, [])] && (t.lg 1).meas = [(10, 1, [])]),
   nx (exec (.ctlFifoPopRead 1 true) { up (fun x => { x with measLimit := 2 ^ 32 - 1 }) with lgs := [(1, { rx with meas := [(10, 1, [])] })] }) (fun t =>
      (t.lg 1).rx = rx.rx && (t.lg 1).meas = [] && (t.lane 10).measLimit = 0),
   nx (exec (.lpCntClr 10) (up fun x => { x with lp := [(8, 3), (0x13, 9)] })) (fun t => (t.lane 10).lp = [])] : List Bool)).all id = true := by
  decide +kernel

/-! ### Fabric and memories -/

/-- The conclusion of `Replies`, checked. -/
def rep (t : State) (pe slot v : Nat) (poison : Bool := false) (fault : Nat := 0) : Bool :=
  t.net.transit.any fun p => p.net = 2 && p.dst = .pe pe && p.body = .rsp slot v poison fault

theorem witness_FabricCommands : ((
  let at_ (l : List Pkt) (f : Net → Net := id) : State := { s0 with net := f { s0.net with transit := l } }
  let p : Pkt := { chan := 1, router := 7, inport := 3, dst := .pe 5, body := .tok (tk 6) }
  let q : Pkt := { p with router := 8 }
  let o : Pkt := { p with router := 0 }
  let links (b : Nat) (n : Net) : Net := { n with links := [((0 * 36 + 7) * 4 + 1, { bad := b })] }
  let hd (s : State) (n ch r i : Nat) (p : Pkt) : Bool := s.headAt n ch r i == some p && s.contenders 0 0 r (nextDir r (routerOf p.dst)) == []
  let sp (s : State) : State := { s with pat := { s.pat with awaiting := [(9, 11, 65), (3, 5, 64)] } }
  [(let s := at_ [o, p, { p with body := .tok (tk 7) }]
    hd s 0 1 7 3 p && nextDir 7 (routerOf p.dst) == some 1 && s.turn 0 1 7 (some 1) == some 3 && nx (exec (.packetForward 0 1 7 3 true) s) fun t =>
      t.net.transit = [o, { p with body := .tok (tk 7) }, { p with router := 8, inport := 3 }] && t = { s with net := t.net }),
   (let s := at_ [p] (links 62)
    s.turn 0 1 7 (some 1) == some 3 && nx (exec (.packetForward 0 1 7 3 false) s) fun t => Tbl.get 0 t.net.replay 8 = 1 && t.net.transit = [p]),
   (let s := at_ [p] (links 64)
    nx (exec (.packetForward 0 1 7 3 false) s) fun t => Tbl.get 0 t.net.replay 8 = 1 && (Tbl.get {} t.net.links (7 * 4 + 1)).failed),
   (let m : MemReq := { pe := 5, slot := 3 }
    let k : Pkt := { p with net := 1, chan := 0, dst := .dc 1, body := .mem m }
    nextDir 7 (routerOf k.dst) == some 1 && nx (exec (.packetForward 1 0 7 3 true) (at_ [k] fun n => { n with links := [((1 * 36 + 7) * 4 + 1, { failed := true })] })) fun t =>
      rep t 5 3 0),
   (let s := at_ [q]
    nextDir 8 (routerOf q.dst) == none && s.turn 0 1 8 none == some 3 && !(s.pe 5).failed && !s.loadingSpare 5 && s.epRoom q && hd s 0 1 8 3 q &&
      s.domOn (quadDom 5) && nx (exec (.packetForward 0 1 8 3 true) s) fun t => t.net.transit = [] && (t.pe 5).inG = [tk 6]),
   (let s := at_ [{ q with chan := 0 }]
    s.turn 0 0 8 none == some 3 && nx (exec (.packetForward 0 0 8 3 true) s) fun t => t.net.transit = [] && (t.pe 5).inU = [tk 6] && (t.pe 5).inG = []),
   (let s := { at_ [q] with pwr := { s0.pwr with doms := s0.pwr.doms.put (quadDom 5) { state := 1, reset_ := false } } }
    s.turn 0 1 8 none == some 3 && !s.domOn (quadDom 5) && nx (exec (.packetForward 0 1 8 3 true) s) fun t => t.net.transit = [] && t.net.holdBuf = [q] &&
      (t.dom (quadDom 5)).wake && (t.pe 5).inU = []),
   (let s := sp s0
    s.domOn (quadDom 64) && nx (exec (.spareInService 64) s) fun t => t.pat.awaiting = [(9, 11, 65)] && Tbl.get 0 t.led.tot 3 = Tbl.get 0 s.led.tot 3 + 1)] : List Bool)).all id = true := by
  decide +kernel

/-- Four channels on, with the reset geometry. -/
def ddrOn (f : Ddr → Ddr := id) : State :=
  { s0 with ddrs := [(1, f { trained := true })], regs := (List.range 4).map fun c => (dcReg c 0, 0x112) }

theorem witness_DdrChannelCommands : ((
  let off := { s0 with regs := [(dcReg 0 0, 0x10), (dcReg 1 0, 0x12)] }
  let r : MemReq := { op := .ld 4 true, addr := 0x8100, pe := 5, slot := 1 }
  let ld (x : MemReq) : State := { ddrOn fun d => { d with q := [x], ue := 0xFFFFFFFF } with ddr := memOf 0 0x8100 [0x78, 0x56, 0x34, 0xF2] }
  let st : MemReq := { r with op := .st 2, b := 0xBEEF }
  let hold (s : State) : State := { s with st := { s.st with cores := [(1, { cache := [(516, [1])] })] } }
  [(let s := off
    s.domOn (dcDom 1) && nx (exec (.dcCfgEnable 1 0x112) s) fun t => t.dcCfg 1 = 0x12 && !(t.dc 1).trained),
   nx (exec (.dcCfgEnable 0 0x114) off) (fun t => t.dcCfg 0 = 0x10),
   nx (exec (.dcCfgEnable 0 0x10C) off) (fun t => t.dcCfg 0 = 0x10),
   nx (exec (.dcCfgEnable 1 0x110) { off with shareWritten := 0xFB }) (fun t => t.dcCfg 1 = 0x110 && (t.dc 1).trained &&
      t.share 2 = max 1 (64 * t.ddrUsable / 400) && t.share 3 = off.share 3),
   (let s := off
    s.ddrUsable < ((List.range 8).map fun w => if w = 7 then 1000 else s.share w).sum &&
      nx (exec (.ddrShareWrite 7 1000) s) fun t => t.share 7 = s.share 7 && t.budgetRefused),
   nx (exec (.ddrShareWrite 3 0xFC05) off) (fun t => t.share 3 = 5 && t.share 2 = off.share 2 && !t.budgetRefused),
   nx (exec (.ddrScheduleWindow 1 none) (ddrOn fun d => { d with winAt := 9, used := [(2, 99)] })) (fun t => t.time = 2009 && (t.dc 1).used = [] &&
      (t.dc 1).winAt = 2009 && t.ddrUpset = []),
   nx (exec (.ddrScheduleWindow 1 (some (7, 2))) { ddrOn with ddrUpset := [(5, 1)] }) (fun t => t.ddrUpset = [(5, 1), (7, 2)] && t.ddrPoison = []),
   !(ddrOn).derated && nx (exec (.refreshDerate 1 true) ddrOn) (fun t => (t.dc 1).hot && t.derated && t.host.alert.testBit 11),
   (let s := ddrOn fun d => { d with scrub := 2 ^ 34 - 128, ce := 0xFFFFFFFF, scrubAt := 100 }
    s.dcOn 1 && s.chanGiB == 32 && s.scrubDue 1 == some (100 + 24 * 7200000000000 * (2 ^ 27 - 1) / 2 ^ 28) && nx (exec (.patrolScrub 1 1) s) fun t => (t.dc 1).scrub = 2 ^ 34 && t.time = 100 + 24 * 7200000000000 * (2 ^ 27 - 1) / 2 ^ 28 && (t.dc 1).ce = 0xFFFFFFFF && (t.dc 1).ue = 0),
   nx (exec (.patrolScrub 1 2) (ddrOn fun d => { d with scrub := 32 * 2 ^ 30 - 128 })) (fun t => (t.dc 1).scrub = 0 && (t.dc 1).ue = 1 && (t.dc 1).ce = 0),
   (let s := ld r
    s.ddrNext 1 == some r && nx (exec (.ddrRequestServed 1 0) s) fun t => (t.dc 1).q = [] && t.ddr = s.ddr && rep t 5 1 0xFFFFFFFFF2345678),
   (let s := ld { r with op := .ld 2 false }
    nx (exec (.ddrRequestServed 1 2) s) fun t => rep t 5 1 0x5678 true && t.ddrPoison = [0x102] && t.host.alert.testBit 11 &&
      (t.dc 1).ue = 0xFFFFFFFF && (t.dc 1).ueAddr = 0x8100),
   (let s := ld st
    nx (exec (.ddrRequestServed 1 0) s) fun t => t.ddr = memOf 0 0x8100 [0xEF, 0xBE, 0x34, 0xF2] && rep t 5 1 0),
   (let s := hold (ld st)
    s.cachedAt 0x8100 && nx (exec (.ddrRequestServed 1 0) s) fun t => (t.dc 1).invWait.map (fun w => (w.1, w.2.pe, w.2.slot)) = [(516, 5, 1)] && !rep t 5 1 0 &&
      t.net.notices = [.inval 516]),
   (let s := hold (ddrOn fun d => { d with invWait := [(516, { st with b := 8 }), (517, r)] })
    let s := { s with net := { s.net with invIn := [(1, 516), (1, 3)] } }
    nx (exec (.cacheInvalidation 1 516) s) fun t => Tbl.find (t.core 1).cache 516 = none && (t.dc 1).invWait = [(517, r)] && rep t 5 1 8)] : List Bool)).all id = true := by
  decide +kernel

theorem witness_AtomicsAndShelf : ((
  let r : MemReq := { op := .fadd, shelf := true, addr := 0x100, b := 2, pe := 5, slot := 1, prio := 3, since := 7 }
  let sh (l : List MemReq) : State := { withFire 0 (fr 1 2 3) s0 with shelfAtomics := l, shelf := memOf 0 0x100 [0xFF, 0xFF, 0xFF, 0xFF, 0xFF, 0xFF, 0xFF, 0xFF, 9] }
  let dr (l : List MemReq) : State := { ddrOn fun d => { d with atomics := l } with ddr := memOf 0 0x100 [1, 1] }
  let pg : MemReq := { r with op := .swap, addr := 0x7FE000 + 8 * 3, b := 1, ctx := 7 }
  let a (port ad : Nat) (op : MemOp) (b : Nat) : ShAcc := { port := port, req := { op := op, shelf := true, addr := ad, b := b, pe := 5, slot := port } }
  let qd (l : List ShAcc) : State := { s0 with shelfQ := l, shelf := memOf 0 0x100 [1, 2, 0x83], regs := [(0x2C20, 0xFFFFFFFF), (0x2C21, 4)] }
  [(let s := sh [{ r with prio := 2 }, r, { r with slot := 0 }]
    nextAtomic (s.shelfAtomics.filter s.inOrder) == some r && nx (exec (.atomicService 8 0) s) fun t => t.shelfAtomics = [{ r with prio := 2 }, { r with slot := 0 }] &&
      rep t 5 1 (2 ^ 64 - 1) && t.shelf = memOf 0 0x100 [1, 0, 0, 0, 0, 0, 0, 0, 9]),
   (let s := sh [r]
    nx (exec (.atomicService 8 2) s) fun t => t.shelfAtomics = [] && rep t 5 1 (2 ^ 64 - 1) true && t.shelf = s.shelf),
   (let s := { sh [r] with shelfBad := [0x20] }
    s.shelfBadAt 0x100 8 && nx (exec (.atomicService 8 0) s) fun t => rep t 5 1 (2 ^ 64 - 1) true && t.shelf = s.shelf),
   (let s := { sh [pg] with regs := [(0x2C00, 0x40)] }
    s.pegRight 6 3 && !(s.peg 3).held && nx (exec (.atomicService 8 0) s) fun t => (t.peg 3).held && (t.peg 3).owner = 6 && (t.peg 3).ownerId = 1 &&
      rep t 5 1 (t.pegWord 3 + 2 ^ 31) && (t.pegWord 3 + 2 ^ 31).testBit 31),
   (let s := dr [{ r with op := .cas, b := 0x101, c := 0x77 }]
    nx (exec (.atomicService 1 0) s) fun t => (t.dc 1).atomics = [] && t.ddr = memOf 0 0x100 [0x77] && rep t 5 1 0x101),
   (let s := { dr [{ r with op := .for_ }] with ddrPoison := [2] }
    nx (exec (.atomicService 1 0) s) fun t => (t.dc 1).atomics = [] && t.ddr = s.ddr && rep t 5 1 0x101 true),
   nx (exec (.atomicAging 8) (sh [{ r with prio := 15 }])) (fun t => t.time = 2007 && t.atomQ 8 = [{ r with prio := 15, since := 2007 }]),
   nx (exec (.atomicAging 1) (dr [r])) (fun t => t.time = 2007 && t.atomQ 1 = [{ r with prio := 4, since := 2007 }]),
   (let x := a 1 0x102 (.ld 1 true) 0
    let s := qd [a 3 0x100 (.st 1) 4, x, a 1 0x101 (.ld 1 true) 0, a 2 0x140 (.ld 1 true) 0]
    ((List.range 4).filterMap fun p => s.shHead 4 p) == [x, a 3 0x100 (.st 1) 4] && nx (exec (.shelfAccess 4 0) s) fun t =>
      t.shelfQ = [a 3 0x100 (.st 1) 4, a 1 0x101 (.ld 1 true) 0, a 2 0x140 (.ld 1 true) 0] && t.shelf = s.shelf && rep t 5 1 0xFFFFFFFFFFFFFF83 &&
      t.ioReg 0x2C20 0 = 0xFFFFFFFF),
   (let s := qd [a 1 0x102 (.ld 1 true) 0]
    nx (exec (.shelfAccess 4 2) s) fun t => t.shelfQ = [] && rep t 5 1 0xFFFFFFFFFFFFFF83 true && t.shelfBadAt 0x102 1),
   (let x := a 1 0x102 (.st 1) 0xAA
    let y := a 2 0x104 (.st 1) 0xBB
    let s := qd [y, x]
    ((List.range 4).filterMap fun p => s.shHead 4 p) == [x, y] && nx (exec (.shelfAccess 4 0) s) fun t => t.shelf = memOf 0 0x100 [1, 2, 0xAA, 0, 0xBB] &&
      rep t 5 1 0 && rep t 5 2 0 && t.ioReg 0x2C21 0 = 5),
   (let s := qd [a 2 0x102 (.st 2) 0xBBCC, a 0 0x102 (.st 1) 0xAA]
    nx (exec (.shelfAccess 4 0) s) fun t => t.shelf = memOf 0 0x100 [1, 2, 0xAA, 0xBB] && t.ioReg 0x2C21 0 = 5)] : List Bool)).all id = true := by
  decide +kernel

theorem witness_IStructureRequests : ((
  let r : MemReq := { op := .iload, addr := 0x200, b := 0x1122, pe := 5, slot := 1 }
  let k : MemReq := { r with pe := 6, slot := 2 }
  let el (op : MemOp) (st : Byte) (rd : List MemReq := []) : State :=
    { ddrOn fun d => { d with istr := [{ r with op := op }, k] } with ddr := memOf 0 0x200 [0x34, 0x12, 0, 0, 0, 0, 0, 0, st], istr := if rd = [] then [] else [(0x200, rd)] }
  [(let s := el .iload 1
    s.elemState 0x200 = 1 && nx (exec (.istructRequest 1) s) fun t => (t.dc 1).istr = [k] && t.ddr = s.ddr && rep t 5 1 0x1234),
   (let s := el .iload 2
    (s.dc 1).istr = [r, k] && r.op = .iload && s.elemState 0x200 ≠ 1 && s.domOn (dcDom 1) && !(s.dc 1).selfRef && s.ddr.wf 0),
   (let s := { el .iload 2 with cm := { s0.cm with istrDying := [0] } }
    s.inOrder r && s.cm.istrDying.contains r.ctx && nx (exec (.istructRequest 1) s) fun t => (t.dc 1).istr = [k] && t.ddr = s.ddr && t.istr = s.istr &&
      t.net.transit = []),
   (let s := el .istore 1
    nx (exec (.istructRequest 1) s) fun t => t.ddr = s.ddr && rep t 5 1 0 false 0x24),
   (let s := el .istore 2 [k]
    nx (exec (.istructRequest 1) s) fun t => t.elemState 0x200 = 1 && t.ddrBytes 0x200 8 = leBytes 8 0x1122 && rep t 6 2 0x1122 && rep t 5 1 0),
   (let s := el .ireset 2 [k]
    s.elemState 0x200 = 2 && nx (exec (.istructRequest 1) s) fun t => t.ddr = s.ddr && rep t 5 1 0 false 0x25),
   (let s := el .ireset 1
    nx (exec (.istructRequest 1) s) fun t => t.elemState 0x200 = 0 && rep t 5 1 0),
   (let s := el .ireset 2
    s.elemState 0x200 = 0 && nx (exec (.istructRequest 1) s) fun t => t.elemState 0x200 = 0 && rep t 5 1 0)] : List Bool)).all id = true := by
  decide +kernel

theorem witness_TallyCommands : ((
  let tu (op a : Nat) (f : Tally → Tally := id) : State :=
    { s0 with tally := [(1, f { q := [{ pe := 5, slot := 1, a := a, op := op, space := 3 }], cells := [(3, 1, 2), (4, 1, 2)],
                                 rows := [(0, { space := 3, addr := 1, count := 1 }), (1, { space := 4, addr := 1, count := 1 })],
                                 cols := [(0, { space := 3, addr := 2, count := 1 })], spaces := [(3, { rs := 1, cs := 1 })] })] }
  let add (row col : Nat) : Nat := row + col * 2 ^ 32
  let small (x : Tally) : Tally := { x with spaces := [(3, { rs := 0, cs := 1, ovf := true })] }
  [s0.domOn (tuDom 1) && nx (exec (.tallySetup 1) (tu 0 0x30002)) (fun t => (t.tu 1).q = [] && rep t 5 1 0 && (t.tu 1).cells = [(4, 1, 2)] &&
      Tbl.get {} (t.tu 1).spaces 3 = { rs := 2, cs := 3, ovf := false }),
   nx (exec (.tallyAdd 1) (tu 1 (add 1 9))) (fun t => (t.tu 1).cells = [(3, 1, 2), (4, 1, 2), (3, 1, 9)] && lineCount (t.tu 1).rows 3 1 = 2 &&
      lineCount (t.tu 1).cols 3 9 = 1 && rep t 5 1 0x100010002),
   nx (exec (.tallyAdd 1) (tu 1 (add 7 2))) (fun t => lineCount (t.tu 1).cols 3 2 = 2 && rep t 5 1 0x200020001),
   nx (exec (.tallyAdd 1) (tu 1 (add 1 2))) (fun t => (t.tu 1).cells.length = 2 && rep t 5 1 0x800010001),
   nx (exec (.tallyAdd 1) (tu 1 (add 8 8) small)) (fun t => (t.tu 1).cells.length = 2 && rep t 5 1 0x400000000),
   nx (exec (.tallyQryRow 1) (tu 2 1 small)) (fun t => rep t 5 1 0x400000001),
   nx (exec (.tallyQryCol 1) (tu 3 2 small)) (fun t => rep t 5 1 0x600010000),
   nx (exec (.tallyScan 1) (tu 4 0 fun x => { x with rows := [(0, { space := 4, addr := 5, count := 9 }), (6, { space := 3, addr := 0x77, count := 2 })] })) (fun t =>
      rep t 5 1 (0x77 + 6 * 2 ^ 32 + 2 ^ 46)),
   nx (exec (.tallyClear 1) (tu 5 0 small)) (fun t => (t.tu 1).cells = [(4, 1, 2)] && rep t 5 1 0 && !(Tbl.get {} (t.tu 1).spaces 3).ovf)] : List Bool)).all id = true := by
  decide +kernel

/-! ### Stewards -/

theorem witness_StewardArithmetic : ((
  let r (fn : Nat) (c : Instr) (a b v : Nat) : Bool := puts (stw (wR 1 fn) (g23 a b)) c (wR 1 fn) v
  let i (m imm : Nat) (c : Instr) (a v : Nat) : Bool := puts (stw (wI m imm) (g23 a 9)) c (wI m imm) v
  [r 0 (.stAdd 1) 0xFFFFFFFF 2 1 && r 1 (.stSub 1) 1 2 0xFFFFFFFF,
   r 2 (.stAnd 1) 0xF0F0 0xFF00 0xF000 && r 3 (.stOr 1) 0xF0F0 0xFF00 0xFFF0,
   r 4 (.stXor 1) 0xF0F0 0xFF00 0x0FF0 && r 5 (.stAndn 1) 0xF0F0 0xFF00 0x00F0,
   r 6 (.stShl 1) 0x80000001 33 2 && r 7 (.stShr 1) 0x80000001 32 0x80000001,
   r 8 (.stSar 1) 0x80000000 31 0xFFFFFFFF && r 9 (.stRotl 1) 0x80000001 36 0x00000018,
   r 10 (.slt 1) 0x80000000 0 1 && r 11 (.sltu 1) 0x80000000 0 0,
   r 12 (.stMul 1) 0x80000001 3 0x80000003 && r 13 (.stMulhu 1) 0xFFFFFFFF 0xFFFFFFFF 0xFFFFFFFE,
   r 14 (.stMulhs 1) 0xFFFFFFFF 2 0xFFFFFFFF && r 14 (.stMulhs 1) 0x80000000 0x80000000 0x40000000,
   r 15 (.stDivu 1) 7 0 0xFFFFFFFF && r 15 (.stDivu 1) 0xFFFFFFFF 16 0x0FFFFFFF,
   r 16 (.stRemu 1) 7 0 7 && r 16 (.stRemu 1) 0xFFFFFFFF 16 15,
   r 17 (.stDivs 1) 7 0 0xFFFFFFFF && r 17 (.stDivs 1) 0xFFFFFFF9 2 0xFFFFFFFD && r 17 (.stDivs 1) 0x80000000 0xFFFFFFFF 0x80000000,
   r 18 (.stRems 1) 7 0 7 && r 18 (.stRems 1) 0xFFFFFFF9 2 0xFFFFFFFF && r 18 (.stRems 1) 0x80000000 0xFFFFFFFF 0,
   i 2 0x3FFFF (.addi 1) 5 4 && i 3 0x20000 (.slti 1) 0xFFFFFFFF 0 && i 4 0x20000 (.sltiu 1) 0xFFFFFFFF 0,
   i 4 0x3FFFF (.sltiu 1) 0xFFFFFFFE 1 && i 5 0x3FFFF (.andi 1) 0xFFFFFFFF 0x3FFFF,
   i 6 0x20001 (.ori 1) 0x80000000 0x80020001 && i 7 0x20001 (.xori 1) 1 0x20000,
   i 8 0x1F (.shiShl 1) 3 0x80000000 && i 8 0x3F (.shiShr 1) 0x80000000 1,
   i 8 0x5F (.shiSar 1) 0x80000000 0xFFFFFFFF && i 8 0x64 (.shiRotl 1) 0x80000001 0x18,
   puts (stw (9 * 2 ^ 26 + 4 * 2 ^ 22 + 0x3FFFFF)) (.lui 1) (9 * 2 ^ 26 + 4 * 2 ^ 22 + 0x3FFFFF) 0xFFFFFC00,
   puts (stw (9 * 2 ^ 26 + 7)) (.lui 1) (9 * 2 ^ 26 + 7) 7] : List Bool)).all id = true := by
  decide +kernel

theorem witness_StewardMemory : ((
  let win (b : Nat) (c : Steward) : Steward := { c with dwin := [(2, b)], cacheOn := true }
  let mem (s : State) : State := { s with shelf := memOf 0 0x100 [0x80, 0xFF, 3, 4], ddr := memOf 0 0x100 [0x85, 0xF1, 7], regs := (List.range 4).map fun c => (dcReg c 0, 0x112) }
  let at_ (w a : Nat) (f : Steward → Steward := id) : State := mem (stw w fun c => f (win 0x30000 { c with g := [(2, a), (3, 9), (4, 0xA1B2C3D4)], priv := memOf 0 0x100 [0x81, 0xF2, 3, 4] }))
  let p : Nat := 0x100
  let sh : Nat := 0x10000100
  let dw : Nat := 0xA0000100
  let s := at_ 0 0
  let ld (m : Nat) (c : Instr) (a v : Nat) : Bool := puts (at_ (wI m 0) a) c (wI m 0) v
  let atom (fn : Nat) (c : Instr) (a old new : Nat) : Bool :=
    let s := at_ (wR 0x1F fn) a fun c => { c with g := [(2, a), (3, 9), (4, old)] }
    runs s (wR 0x1F fn) && nx (exec c s) fun t => t.shelf = Mem.writeBytes 0 s.shelf 0x100 (leBytes 4 new) && (t.core 1).reg 4 = old && (t.core 1).pc = 0x1004
  [s.fwMode 1 && s.dAcc 1 0x40 4 false == some (.priv 0x40) && s.dAcc 1 0x3FFFF 1 true == some (.priv 0x3FFFF) && s.dAcc 1 0x3F 1 false == none &&
     s.dAcc 1 0x40000 4 false == none && s.dAcc 1 0x0FFFFFFF 1 false == none && s.dAcc 1 0x10000000 4 true == some (.shelf 0) &&
     s.dAcc 1 0x107FFFFF 1 true == some (.shelf 0x7FFFFF) && s.dAcc 1 0x10800000 1 true == none && s.dAcc 1 0x7FFFFFFF 1 false == none &&
     s.dAcc 1 dw 4 false == some (.win 0x100 true) && s.dAcc 1 0xB0000000 4 false == none,
   ld 0x0A (.lb 1) p 0xFFFFFF81 && ld 0x0B (.lbu 1) p 0x81 && ld 0x0C (.lh 1) p 0xFFFFF281 && ld 0x0D (.lhu 1) p 0xF281 && ld 0x0E (.lw 1) p 0x0403F281,
   ld 0x0A (.lb 1) sh 0xFFFFFF80 && ld 0x0D (.lhu 1) sh 0xFF80 && ld 0x0E (.lw 1) sh 0x0403FF80,
   (let s := at_ (wI 0x0E 0) 0x2FFC
    nx (exec (.lw 1) s) fun t => t.freeCnt = s.freeCnt + 1 && (t.core 1).pc = 0x1004),
   (let s := at_ (wI 0x0A 0) p fun c => { c with dbad := [0x40] }
    enters s (.lb 1) 12 p),
   (let s := at_ (wI 0x11 0) p fun c => { c with dbad := [0x40, 0x41] }
    nx (exec (.sw 1) s) fun t => (t.core 1).dbad = [0x41] && (t.core 1).pc = 0x1004),
   (let s := at_ (wI 0x0E 0) dw fun c => { c with cache := [(4, leBytes 64 0x1234)] }
    puts s (.lw 1) (wI 0x0E 0) 0x1234),
   (let s := at_ (wI 0x0C 0) dw
    runs s (wI 0x0C 0) && s.dReady 1 2 (.win 0x100 true) && nx (exec (.lh 1) s) fun t => (t.core 1).reg 4 = 0xFFFFF185 && (t.core 1).pc = 0x1004 &&
      Tbl.find (t.core 1).cache 4 = some (leBytes 64 0x7F185) && t = { s with st := t.st, ddrs := t.ddrs } &&
      (List.range 4).all fun k => (t.dc k).q = [] && (t.dc k).ce = 0),
   (let s := at_ (wI 0x0C 0) dw (win 0x10000)
    s.dAcc 1 dw 2 false == some (.win 0x100 false) && nx (exec (.lh 1) s) fun t => (t.core 1).reg 4 = 0xFFFFF185 && (t.core 1).cache = []),
   [(0x0F, Instr.sb 1, 1), (0x10, Instr.sh 1, 2), (0x11, Instr.sw 1, 4)].all (fun (m, c, n) =>
      let s := at_ (wI m 0) 0x104
      runs s (wI m 0) && nx (exec c s) fun t => t = s.updCore 1 fun k =>
        { k with priv := Mem.writeBytes 0 k.priv 0x104 (leBytes n 0xA1B2C3D4), pc := 0x1004 }),
   (let s := at_ (wI 0x10 0) sh
    runs s (wI 0x10 0) && nx (exec (.sh 1) s) fun t => t.shelfQ.map (fun x => (x.req.addr, x.st, x.port, x.data)) = [(0x100, some 1, 1, [0xD4, 0xC3])] &&
      (t.core 1).posted = [{}] && (t.core 1).pc = 0x1004 && t.shelf = s.shelf),
   (let s := at_ (wI 0x11 0x3FFFC) (dw + 4)
    s.stReady (.win 0x100 true) && nx (exec (.sw 1) s) fun t => t.ddr = memOf 0 0x100 [0xD4, 0xC3, 0xB2, 0xA1] && (t.core 1).posted = [{ ready := true }] &&
      (t.core 1).pc = 0x1004),
   atom 0 (.atomSwap 1) sh 0x0403FF80 9 && atom 2 (.atomFadd 1) sh 0x0403FF80 0x0403FF89 && atom 3 (.atomFor 1) sh 0x0403FF80 0x0403FF89,
   atom 4 (.atomFmaxu 1) sh 0x0403FF80 0x0403FF80 && atom 1 (.atomCas 1) sh 0x0403FF80 9,
   (let s := at_ (wR 0x1F 1) sh
    nx (exec (.atomCas 1) s) fun t => t.shelf = s.shelf && (t.core 1).reg 4 = 0x0403FF80),
   (let s := at_ (wR 0x1F 2) dw
    s.chanOfAddr 0x100 ≠ 8 && nx (exec (.atomFadd 1) s) fun t => t.ddr = memOf 0 0x100 [0x8E, 0xF1, 7] && (t.core 1).reg 4 = 0x7F185 && (t.core 1).pc = 0x1004),
   (let s := at_ 0 0 fun c => { c with posted := [{}, { ready := true, collided := true }, { ready := true }], wcCnt := 0xFFFFFFFF }
    nx (exec (.storeResponse 1) s) fun t => (t.core 1).posted = [{}, { ready := true }] && (t.core 1).psw = 0x21 && (t.core 1).wcCnt = 0xFFFFFFFF),
   (let s := at_ 0 0 fun c => { c with posted := [{}, { ready := true }, { ready := true, collided := true }] }
    nx (exec (.storeResponse 1) s) fun t => (t.core 1).posted = [{}, { ready := true, collided := true }] && (t.core 1).psw = 1)] : List Bool)).all id = true := by
  decide +kernel

/-- SYS function k with ra 2, rb 3, rd 4 as the function uses them. -/
def wS (k : Nat) (d a b : Nat) : Nat := 0x20 * 2 ^ 26 + d * 2 ^ 22 + a * 2 ^ 18 + b * 2 ^ 14 + k

theorem witness_StewardControl : ((
  let br (m off a b : Nat) (c : Instr) (pc : Nat) : Bool :=
    let w := m * 2 ^ 26 + 2 * 2 ^ 22 + 3 * 2 ^ 18 + off
    runs (stw w (g23 a b)) w && jumps (stw w (g23 a b)) c pc
  let sys (k d a b va vb : Nat) (f : Steward → Steward := id) : State := stw (wS k d a b) fun c => f (g23 va vb c)
  let go (s : State) (i : Instr) (f : Steward → Steward) : Bool := nx (exec i s) fun t => t = s.updCore 1 f
  let nxt (c : Steward) : Steward := { c with pc := 0x1004 }
  [br 0x12 4 7 7 (.beq 1) 0x1010 && br 0x12 4 7 8 (.beq 1) 0x1004 && br 0x13 0x3FFFF 7 8 (.bne 1) 0xFFC && br 0x13 4 7 7 (.bne 1) 0x1004,
   br 0x14 4 0x80000000 7 (.blt 1) 0x1010 && br 0x14 4 7 7 (.blt 1) 0x1004 && br 0x15 4 7 7 (.bge 1) 0x1010 && br 0x15 4 0x80000000 7 (.bge 1) 0x1004,
   br 0x16 4 0x80000000 7 (.bltu 1) 0x1004 && br 0x16 4 6 7 (.bltu 1) 0x1010 && br 0x17 4 7 7 (.bgeu 1) 0x1010 && br 0x17 4 6 7 (.bgeu 1) 0x1004,
   (let s := stw (0x18 * 2 ^ 26 + 2 ^ 26 - 0x401); runs s (0x18 * 2 ^ 26 + 2 ^ 26 - 0x401) && jumps s (.jump 1) 0xFFFFFFFC),
   go (stw (0x19 * 2 ^ 26 + 2) fun c => { c with rs := [9] }) (.call 1) fun c => { c with rs := [0x1004, 9], pc := 0x1008 },
   go (stw (0x19 * 2 ^ 26 + 2) fun c => { c with rs := List.range 16 }) (.call 1) fun c =>
     { c with rs := 0x1004 :: List.range 15, pc := 0x1008, psw := 0x11 },
   go (stw (0x1B * 2 ^ 26 + 2 * 2 ^ 18) (g23 0x2002 0)) (.callr 1) fun c => { c with rs := [0x1004], pc := 0x2002 },
   jumps (stw (0x1A * 2 ^ 26 + 2 * 2 ^ 18) (g23 0x2002 0)) (.jr 1) 0x2002,
   go (stw (0x1C * 2 ^ 26) fun c => { c with rs := [2 ^ 32 + 8, 3] }) (.ret 1) fun c => { c with rs := [3], pc := 8 },
   go (sys 3 0 0 0 0 0) (.fence 1) nxt,
   go (sys 3 0 0 0 0 0 fun c => { c with posted := [{}] }) (.fence 1) id,
   puts (sys 7 4 0 0 0 0 fun c => { c with psw := 0x55 }) (.mfpsw 1) (wS 7 4 0 0) (0x55 + 5 * 2 ^ 8 + 2 * 2 ^ 12),
   go (sys 8 0 2 0 0xFFFFFFFE 0) (.mtpsw 1) fun c => { c with psw := 0x7E, pc := 0x1004 },
   (let r (c : Steward) : Steward := { c with psw := 0x0A, xdr := [(0, 0), (1, 0x40000)] }
    go (sys 8 0 2 0 0xFFFFFFF5 0 r) (.mtpsw 1) fun c => { c with psw := 0x7A, pc := 0x1004 }),
   go (sys 11 0 2 0 7 0 fun c => { c with rs := List.range 15 }) (.rspush 1) fun c => { c with rs := 7 :: List.range 15, pc := 0x1004 },
   go (sys 12 4 0 0 0 0 fun c => { c with rs := [6, 5] }) (.rspop 1) fun c => { c with rs := [5], g := c.g.put 4 6, pc := 0x1004 },
   puts (sys 13 4 0 0 0 0 fun c => { c with rs := List.range 16 }) (.rsdepth 1) (wS 13 4 0 0) 16,
   (let f (c : Steward) : Steward := { c with dwin := [(2, 0x30000)], cacheOn := true, cache := [(4, [1]), (5, [2])] }
    let s := { sys 14 0 2 0 0xA0000104 0 f with regs := [(dcReg 0 0, 0x112)] }
    s.dLoc 1 0xA0000104 == some (.win 0x104 true) && go s (.cinv 1) fun c => { c with cache := [(5, [2])], pc := 0x1004 }),
   puts (sys 9 4 2 0 0x1000 0) (.irdw 1) (wS 9 4 2 0) (wS 9 4 2 0),
   go (sys 10 0 2 3 0x2008 0x99) (.iwrw 1) fun c => { c with ispace := Mem.writeBytes 0 c.ispace 0x2008 [0x99, 0, 0, 0], iloaded := [1, 2], pc := 0x1004 },
   go (sys 10 0 2 3 0x1008 0x99) (.iwrw 1) fun c => { c with ispace := Mem.writeBytes 0 c.ispace 0x1008 [0x99, 0, 0, 0], pc := 0x1004 },
   go (sys 15 0 0 0 0 0) (.stHalt 1) fun c => { c with halted := true, idle := true },
   go (sys 2 0 0 0 0 0 fun c => { c with psw := 5, priv := memOf 0 0x40 [0x34, 0x12, 0, 0, 0xFB, 1] }) (.rete 1) fun c => { c with pc := 0x1234, psw := 0x7B },
   go (sys 2 0 0 0 0 0 fun c => { c with g := [(14, 0x100)], priv := memOf 0 0x100 [0x34, 0x12, 0, 0, 0x8B] }) (.rete 1) fun c =>
     { c with pc := 0x1234, psw := 0x0B, g := [(14, 0x110)] },
   (let fl (s : State) : State := s.updTask 1 2 fun t => { t with flags := 0x80000006 }
    nx (exec (.waitany 1) (fl (sys 4 4 2 3 0x80000003 0))) (fun t => (t.core 1).reg 4 = 2 && (t.core 1).pc = 0x1004 && (t.task 1 2).flags = 0x80000004 && (t.core 1).cur = 2) &&
    nx (exec (.waitall 1) (fl (sys 5 4 2 3 6 9))) (fun t => (t.core 1).reg 4 = 6 && (t.task 1 2).flags = 0x80000000) &&
    puts (fl (sys 5 4 2 3 0x80000000 0xFFF00000)) (.waitall 1) (wS 5 4 2 3) 0 && puts (fl (sys 4 4 2 3 0 0)) (.waitany 1) (wS 4 4 2 3) 0 &&
    nx (exec (.waitall 1) (fl (sys 5 4 2 3 3 9))) (fun t => (t.task 1 2).state = 4 && (t.task 1 2).mask = 3 && (t.task 1 2).waitRd = 4 &&
      (t.task 1 2).pc = 0x1004 && (t.task 1 2).timeout = some 18000) &&
    nx (exec (.waitany 1) (fl (sys 4 4 2 3 8 0))) (fun t => (t.task 1 2).state = 4 && (t.task 1 2).timeout = none && (t.core 1).idle)),
   (let s := sys 6 0 0 0 0 0; s.nextTask 1 == none && jumps s (.yield 1) 0x1004),
   (let s := (sys 6 0 0 0 0 0 fun c => { c with readySeq := 5 }).updTask 1 9 fun t => { t with state := 2, ctl := 5, readySeq := 3, pc := 0x3000 }
    s.nextTask 1 == some 9 && s.effPri 1 2 ≤ s.effPri 1 9 && ((List.range 32).all fun j => (s.task 1 j).readySeq ≤ 5) && nx (exec (.yield 1) s) fun t =>
      (t.core 1).cur = 9 && (t.task 1 9).state = 3 && (t.task 1 2).state = 2 && (t.task 1 2).pc = 0x1004 && (t.core 1).pc = 0x3000),
   go (sys 0 0 0 0 0 0 fun c => { c with cache := [(4, [1])] }) (.scCtlInvalidate 1) fun c => { c with cache := [] }] : List Bool)).all id = true := by
  decide +kernel

theorem witness_StewardExceptions : ((
  let ok (c : Steward) : Steward := { c with g := [(14, 0x180)] }
  let s (w : Nat) (f : Steward → Steward := id) : State := stw w fun c => f (ok c)
  let ext (c : Steward) : Steward := { c with psw := 0x0A, xdr := [(0, 0x100), (1, 0x200)] }
  let entered (s : State) (c : Instr) (cause info : Nat) : Bool := enters s c cause info && nx (exec c s) fun t => (t.core 1).pc = 4 * cause && fld (Mem.readBytes 0 (t.core 1).priv 0x170 16) 12 4 = info
  [entered (s 0 fun c => { c with iloaded := [] }) (.stAdd 1) 2 0x1000 && entered (s 0 fun c => { c with pc := 0x1002 }) (.fence 1) 2 0x1002,
   entered (s 0x1234) (.lw 1) 3 0x1234 && entered (s (wR 1 19)) (.call 1) 3 (wR 1 19) && entered (s (0x21 * 2 ^ 26)) (.inPort 1) 3 (0x21 * 2 ^ 26),
   [(2, Instr.rete 1), (15, .stHalt 1)].all (fun (k, c) => entered (s (wS k 0 0 0) ext) c 4 (wS k 0 0 0)),
   entered (s (wS 9 4 2 0) ext) (.irdw 1) 4 (wS 9 4 2 0) && entered (s (wS 10 0 2 3) ext) (.iwrw 1) 4 (wS 10 0 2 3),
   [(0x0C, Instr.lh 1), (0x0D, .lhu 1), (0x0E, .lw 1), (0x10, .sh 1), (0x11, .sw 1)].all (fun (m, c) =>
      entered (s (wI m 0x3FFFF)) c 5 0xFFFFFFFF && entered (s (wI m 0x3C)) c 6 0x3C),
   (let s := { s (wI 0x0E 0) fun c => { c with g := [(2, 0xA0000100), (14, 0x180)], dwin := [(2, 0x10000)], cacheOn := true } with
        ddrPoison := [2], regs := [(dcReg 0 0, 0x112)] }
    s.dAcc 1 0xA0000100 4 false == some (.win 0x100 false) && s.dReady 1 4 (.win 0x100 false) && s.poisonedAt 0x100 4 && nx (exec (.lw 1) s) fun t =>
      t = ((s.ddrRd 6 0x100 4).enter 1 12 0xA0000100).keep s && (t.core 1).pc = 48),
   (let s := { s (wI 0x0E 0) fun c => { c with g := [(2, 0x10000104), (14, 0x180)] } with shelfBad := [0x20] }
    s.dAcc 1 0x10000104 4 false == some (.shelf 0x104) && !s.ownStore 1 0x104 4 && s.shelfBadAt 0x104 4 && entered s (.lw 1) 12 0x10000104),
   entered (s (0x19 * 2 ^ 26 + 2) fun c => { c with rs := List.range 16, psw := 9 }) (.call 1) 8 0x1004,
   entered (s (0x1C * 2 ^ 26)) (.ret 1) 9 0,
   entered (s (wS 0 0 0 0) fun c => { c with g := c.g.put 1 0x77 }) (.syscall 1) 10 0x77 && entered (s (wS 1 0 0 0)) (.breakpoint 1) 11 0x1000,
   (let s := s 0 fun c => { c with psw := 0x2B, excCnt := 0xFFFFFFFF, rs := [5] }
    let t := s.enter 1 7 0xABCD
    (s.core 1).stackOk && (t.core 1).psw = 0x29 && (t.core 1).excCnt = 0xFFFFFFFF && (t.core 1).rs = [5] && (t.core 1).pc = 28 && (t.core 1).reg 14 = 0x170 &&
      Mem.readBytes 0 (t.core 1).priv 0x170 16 = leBytes 4 0x1000 ++ leBytes 4 0x252B ++ leBytes 4 7 ++ leBytes 4 0xABCD),
   (let s := { s 0 fun c => { c with g := [(14, 0x18F)] } with time := 2 ^ 32 + 5 }
    let t := s.enter 1 7 0xABCD
    !(s.core 1).stackOk && (t.core 1).psw = 5 && (t.core 1).pc = 4 && (t.core 1).g = [(14, 0x18F)] && Mem.readBytes 0 (t.core 1).priv 0x40 40 =
      leBytes 4 0x1000 ++ leBytes 4 0x2501 ++ leBytes 4 7 ++ leBytes 4 0xABCD ++ leBytes 4 0x18F ++ leBytes 4 0x100 ++ leBytes 4 0x200 ++ leBytes 4 2 ++ leBytes 8 (2 ^ 32 + 5)),
   (let t := (s 0 fun c => { c with psw := 5 }).enter 1 7 0
    (t.core 1).halted && (t.core 1).idle)] : List Bool)).all id = true := by
  decide +kernel

theorem witness_DispatcherCommands : ((
  let s (f : Task → Task) (g : Steward → Steward := id) : State := (stw 0 g).updTask 1 9 f
  let w (t : Task) : Task := { t with state := 4, mask := 6, waitRd := 3, g := [(3, 9)], flags := 1, ctl := 7 }
  let pg (p : Peg) : State := { stw 0 with pegs := [(30, p)], regs := [(0x2C00, 0xFF)] }
  [nx (exec (.waitTimeout 1 9) (s fun t => { w t with timeout := some 50 })) (fun t => t.time = 51 && (t.task 1 9).state = 2 && (t.task 1 9).g = [(3, 0)] && (t.task 1 9).flags = 1),
   nx (exec (.waitTimeout 1 9) (s (fun t => { w t with timeout := some 50 }) fun c => { c with idle := true })) (fun t =>
      (t.task 1 9).state = 3 && (t.core 1).cur = 9 && (t.core 1).g = [(3, 0)]),
   (let s := s (fun t => { t with state := 2, ctl := 6, pc := 0x3000, g := [(1, 2)] }) fun c => { c with psw := 3 }
    s.nextTask 1 == some 9 && s.effPri 1 2 < s.effPri 1 9 && nx (exec (.preemption 1) s) fun t => (t.core 1).cur = 9 && (t.task 1 9).state = 3 &&
      (t.core 1).pc = 0x3000 && (t.core 1).g = [(1, 2)] && (t.task 1 2).state = 2 && (t.task 1 2).pc = 0x1000),
   (let s := { stw 0 with st := { (stw 0).st with timer := 3, timerAt := 10 } }
    nx (exec .dspTimerExpiry s) fun t => t.time = 6010 && (Tbl.get {} t.st.routes 28).pend && t.st.timerAt = 6010),
   (let t0 (t : Task) : Task := { t with state := 1, entry := 0x40, ctl := 0x10, g := [(1, 1)], rs := [2], flags := 3 }
    nx (exec (.dspStart 1 9) (s t0)) (fun t => (t.task 1 9).state = 2 && (t.task 1 9).pc = 0x40 && (t.task 1 9).g = [] && (t.task 1 9).rs = [] && (t.task 1 9).psw = 9) &&
    nx (exec (.dspStart 1 9) (s (fun t => { t0 t with state := 0, ctl := 0 }) fun c => { c with idle := true })) (fun t =>
      (t.task 1 9).state = 3 && (t.core 1).cur = 9 && (t.core 1).psw = 8 && (t.core 1).pc = 0x40) &&
    nx (exec (.dspFree 1 9) (s t0)) (fun t => t.task 1 9 = { entry := 0x40, ctl := 0x10 })),
   nx (exec (.dspStop 1 9) (s w)) (fun t => (t.task 1 9).state = 1) && nx (exec (.dspStop 1 2) (s id)) (fun t => (t.task 1 2).state = 1 && (t.core 1).idle),
   nx (exec (.dspFlagsSet 1 9 0x80000008) (s fun t => { t with state := 1, flags := 1 })) (fun t => (t.task 1 9).flags = 9 && (t.task 1 9).state = 1),
   nx (exec (.dspXsig 1 9 0x4) (s w)) (fun t => (t.task 1 9).state = 2 && (t.task 1 9).g = [(3, 4)] && (t.task 1 9).flags = 1),
   nx (exec (.dspFlagsClr 1 9 0xFFFFFFFE) (s fun t => { t with flags := 0x80000007 })) (fun t => (t.task 1 9).flags = 0x80000001),
   nx (exec (.dspFlagsClr 1 9 0x7) ((s fun t => { t with state := 1, flags := 1 }).setFlags 1 9 4)) (fun t => (t.task 1 9).flags = 4),
   (let s := s (fun t => { t with state := 4, pegWait := some (30, 4) })
    let s := { s with pegs := [(30, { held := true, owner := 1, waits := [(1, 9, 4)] })], regs := [(0x2C00, 0xFF)] }
    let t := outS (exec (.pegRelease 1 0 30) s)
    t.handedNow 1 9 = [30] && nx (exec (.dspStop 1 9) t) fun u => (u.task 1 9).state = 1 && !(u.peg 30).held),
   nx (exec (.dspCtlWrite 1 9 0xFFFFFFFF) (s w)) (fun t => (t.task 1 9).ctl = 0xFF1F && (t.task 1 9).state = 4),
   (let s := pg {}
    s.domOn 1 && isAlone s && s.pegRight 0 30 && nx (exec (.pegAcquire 0 12 30) s) fun t => (t.peg 30).held && (t.peg 30).owner = 0 && (t.peg 30).ownerId = 12 &&
      t.st.pegRes = t.pegWord 30 + 2 ^ 31),
   nx (exec (.pegAcquireWait 1 30 4) (pg {})) (fun s => ((s.peg 30).now s.time).won == some { m := 3, id := 2, rd := 4, wait := true } &&
     nx (exec (.pegAcquire 1 0 30) s) (fun t => (t.peg 30).owner = 1 && (t.task 1 2).state = 4 && (t.peg 30).waits = [(1, 2, 4)] &&
       t.st.pegRes = t.pegWord 30 + 2 ^ 31 && nx (exec (.pegRelease 1 0 30) t) fun u => (u.peg 30).owner = 3) &&
     nx (exec (.pegAcquire 5 3 30) s) (fun t => (t.peg 30).owner = 3 && t.st.pegRes = s.pegWord 30) &&
     nx (exec (.pegAcquire 1 0 30) { s with time := s.time + 1 }) fun t => (t.peg 30).owner = 3),
   (let s := pg { held := true, owner := 6, ownerId := 8, lost := [{ m := 4, id := 1, rd := 2 }], asksAt := 0 }
    s.askedNow 30 == [{ m := 4, id := 1, rd := 2 }] && nx (exec (.pegRelease 6 8 30) s) (fun t => (t.peg 30).owner = 4 && (t.peg 30).ownerId = 1 &&
      (t.task 2 1).g = [(2, t.pegWord 30 + 2 ^ 31)]) && nx (exec (.pegRelease 6 8 30) { s with time := 1 }) fun t => !(t.peg 30).held),
   (let s := pg { held := true, owner := 6, ownerId := 8 }
    nx (exec (.pegAcquire 0 12 30) s) (fun t => (t.peg 30).owner = 6 && (t.peg 30).ownerId = 8 && t.st.pegRes = s.pegWord 30) && nx (exec (.pegRelease 6 8 30) s) (fun t => !(t.peg 30).held)),
   nx (exec (.pegRelease 0 5 30) (pg { held := true, owner := 0, ownerId := 8 })) (fun t => !(t.peg 30).held),
   nx (exec (.pegAcquireWait 1 30 4) (pg {})) (fun t => (t.peg 30).held && (t.peg 30).owner = 3 && (t.peg 30).ownerId = 2 && (t.core 1).reg 4 = t.pegWord 30 + 2 ^ 31 && (t.core 1).cur = 2),
   nx (exec (.pegAcquireWait 1 30 4) (pg { held := true, owner := 0, ownerId := 8 })) (fun t => (t.peg 30).waits = [(1, 2, 4)] && (t.task 1 2).state = 4 && (t.core 1).idle),
   (let s := { s (fun t => { t with state := 4, pegWait := some (30, 4) }) with pegs := [(30, { held := true, owner := 1, waits := [(1, 9, 4)] })], regs := [(0x2C00, 0xFF)] }
    s.pegRight 1 30 && nx (exec (.pegRelease 1 0 30) s) fun t => (t.peg 30).held && (t.peg 30).owner = 3 && (t.peg 30).ownerId = 9 && (t.peg 30).waits = [] && (t.task 1 9).state = 2 && (t.task 1 9).pegWait = none)] : List Bool)).all id = true := by
  decide +kernel

theorem witness_ExtensionCommands : ((
  let ti (t : Tok) : State := stw 0 fun c => { c with ti := (List.range 5).map fun i => fld t.image18 (4 * i) 4 }
  let up (t : Task) : Task := { t with state := 2, flags := 1 }
  let md : Module := { id := 0x99, st := 1, slots := [2, 9], shelf := 0x20000, traps := [{ slot := 3, key := 5, word := 7 }, { slot := 4 }] }
  let call (code : Nat) (g : Tbl Nat) (m : Module := md) (f : Task → Task := id) : State :=
    let s := stw 0 fun c => { c with pc := 40, psw := 1, g := (14, 0x180) :: g, xdr := [(0, 0x100), (1, 0x200)], tasks := [(2, { state := 3, module := 4 }), (9, f {})], priv := memOf 0 0x180 (le [(4, 0x1000), (4, 0x2A), (4, 10), (4, code)]) }
    { s with st := { s.st with modules := [(4, m)] } }
  let back (s t : State) (st : Nat) : Bool := decide (SvcReturns s t 1 st)
  let at_ (s : State) (code : Nat) (m : Module := md) : Bool := s.svcCall 1 == some (4, m, code)
  let img : List Byte := padTo 516 (le [(4, 0x4D584B53), (2, 1), (2, 0), (4, 0x99), (4, 0), (2, 1), (1, 0xFF), (1, 1), (4, 4)])
  let ld : State :=
    let s := Tests.call 3 0x72 (le [(4, 0), (4, 516), (8, 0x1000)]) { s0 with host := { s0.host with mem := memOf 0 0x1000 img, pf0 := { s0.host.pf0 with bme := true } } }
    { s with otp := { s.otp with extHash := [1] }, boot := { s.boot with image := { s.boot.image with api := 1 } } }
  [(let k := { tk 5 with kind := 2, port := 1 }
    let s := ti k
    nx (exec (.tokenInject 1) s) fun t => (t.core 1).tiStat = 0 && t.net.transit.any fun p => p.net = 0 && p.dst = .cm && p.body = .tok k.sealed),
   nx (exec (.tokenInject 1) (ti { tk 5 with kind := 1 })) (fun t => (t.core 1).tiStat = 0x1020000 && t.net.transit = []) &&
   nx (exec (.tokenInject 1) (ti { tk 5 with port := 3 })) (fun t => (t.core 1).tiStat = 0x1020000 && t.net.transit = []),
   (let s := (stw 0).updTask 1 9 up
    let s := { s with st := { s.st with routes := [(5, { flag := 30, slot := 9, st := 1, en := true, pend := true })] } }
    nx (exec (.eventRouted 5) s) fun t => !(Tbl.get {} t.st.routes 5).pend && (t.task 1 9).flags = 2 ^ 30 + 1),
   (let s := call 0 []
    at_ s 0 && nx (exec (.exit 1) s) fun t => (t.task 1 2).state = 1),
   (let s := call 1 [(2, 0x12345), (3, 7), (4, 8)]
    at_ s 1 && s.rcd.intake = [] && nx (exec (.event 1) s) fun t => back s t 0 && t.rcd.intake.map (fun e => (e.code, e.cls, e.arg)) = [(0x2345, 15, 0x800000007)]),
   (let s := call 2 [(2, 1)] md fun t => { t with state := 1, entry := 0x28000 }
    at_ s 2 && nx (exec (.taskStart 1) s) fun t => back s t 0 && (t.task 1 9).state = 2 && (t.task 1 9).pc = 0x28000),
   (let s := call 3 []
    at_ s 3 && nx (exec (.info 1) s) fun t => back s t 0 && (t.core 1).reg 2 = 0x99 && (t.core 1).reg 3 = 1 && (t.core 1).reg 4 = 0x10020000),
   (let m := { md with traps := md.traps.take 1 }
    let s := call 4 [(2, 0x120)] m
    at_ s 4 m && s.svcMem 1 96 == some (.priv 0x120) && nx (exec (.trapNext 1) s) fun t => back s t 0 &&
      Mem.readBytes 0 (t.core 1).priv 0x120 96 = TrapMsg.bytes { slot := 3, key := 5, word := 7 } && (Tbl.get {} t.st.modules 4).traps = [] &&
      (Tbl.get {} t.st.modules 4).given = [({ slot := 3, key := 5, word := 7 }, false)]),
   (let b : Tok := { tk 6 with kind := 3, flow := 3 }
    let m := { md with given := [({ slot := 2 }, false), ({ slot := 3, key := b.tag }, false)] }
    let s := call 5 [(2, 0x120)] m
    let s := s.updCore 1 fun c => { c with priv := Mem.writeBytes 0 c.priv 0x120 b.image18 }
    at_ s 5 m && s.svcMem 1 18 == some (.priv 0x120) && nx (exec (.trapReturn 1) s) fun t => back s t 0 && t.net.transit.any fun p =>
      p.net = 0 && p.dst = .cm && p.body = .tok b.sealed),
   (let h := img.take 512
    served ld 3 0x72 16 [(0, 1), (4, 4), (8, 8)] && ld.hostBytes 0x1000 516 == img && extOk 1 516 h && fld h 0x24 2 == 0 && fld h 8 4 == 0x99 &&
      ld.extPick h == some 0 && (ld.extShelf h).isSome && (ld.extRoom 0 h).isSome && ld.extDdr h && (Tbl.find ld.st.modules ld.freeModule).isNone && ld.boot.dev ≠ 4),
   (let s := Tests.call 3 0x73 [0x99, 0, 0, 0] { stw 0 with st := { (stw 0).st with modules := [(4, { md with traps := [] })] } }
    served s 3 0x73 4 [(0, 4)] && nx (exec (.extUnload 3) s) fun t => done s t 3 OK [] && Tbl.find t.st.modules 4 = none),
   (let s := stw 0 fun c => { c with adopt := true, halted := true, idle := true, tasks := [(7, { state := 2, entry := 0x44, ctl := 3 })] }
    let s := { s with st := { s.st with routes := [(5, { flag := 3, slot := 7, st := 1, en := true })] }, mbs := [(3, { state := 2, st := 1 }), (4, { state := 2, st := 2 })] }
    s.adopter 1 == some 2 && isAlone s && nx (exec (.stewardAdoption 1) s) fun t => !(t.core 1).adopt && Tbl.get {} t.st.routes 5 = { flag := 3, slot := 0, st := 2, en := true } &&
      (t.mb 3).state = 3 && (t.mb 3).status = TIMEOUT && (t.mb 4).state = 2)] : List Bool)).all id = true := by
  decide +kernel

/-! ### Host interface -/

theorem witness_HostRegisters : ((
  let w (a : Nat) (v : Word) (s : State) (p : State → Bool) : Bool := nx (exec (.registerWrite .bar0 a v) s) p
  let mb (st : Nat) : State := { s0 with mbs := [(14, { state := st, orphan := true, cmd := 7, data := [1, 2, 3, 4, 5, 6, 7, 8, 9] })], host := { s0.host with mbReject := 0xFFFFFFFF } }
  let al : State := { s0 with host := { s0.host with alert := 0x0F, laneAlert := 2 ^ 33 + 2 ^ 1 } }
  [w 0x1E04 9 (mb 3) (fun t => t.mb 14 = { (mb 3).mb 14 with state := 1, orphan := false } && t.host = (mb 3).host),
   w 0x1E00 0xFF123456 (mb 0) (fun t => t.mb 14 = { (mb 0).mb 14 with cmd := 0x123456 }),
   w 0x1E24 0xA1B2C3D4 (mb 3) (fun t => (t.mb 14).data = [1, 2, 3, 4, 0xD4, 0xC3, 0xB2, 0xA1, 9]),
   w 0x1EFC 0xA1B2C3D4 (mb 3) (fun t => fld (t.mb 14).data 220 4 = 0xA1B2C3D4 && (t.mb 14).data.take 9 = ((mb 3).mb 14).data && (t.mb 14).data.getD 9 0 = 0),
   w 0x1E04 9 (mb 1) (fun t => t = mb 1) && w 0x1E00 9 (mb 2) (fun t => t = mb 2) && w 0x1EFC 9 (mb 1) (fun t => t = mb 1),
   w 0x1E10 0xFFFFFFFE (mb 2) (fun t => t.mb 14 = { (mb 2).mb 14 with cfg := 0 }),
   w 0x3000 6 al (fun t => t.host.alert = 9),
   w 0x3004 0xFFFF0009 al (fun t => t.alertEn = 9 && t.host.pf0.pend = [18, 21] && t.host.pf0.sent = []),
   w 0x3004 1 { al with host := { al.host with pf0 := { msixEn := true, table := [(75, 0)] } } } (fun t => t.host.pf0.sent = [18] && t.host.pf0.pend = []),
   w 0x3044 2 al (fun t => t.host.laneAlert = 2),
   w 0x3000 6 { al with fc := { notes := [(.w1c .host 2, 1)] } } (fun t => t.host.alert = 13) &&
     w 0x3044 2 { al with fc := { notes := [(.w1c .lane 33, 1)] } } (fun t => t.host.laneAlert = 2 ^ 33 + 2),
   (let s := { al with cm := { al.cm with db := { held := some 5, posted := [.doorbellSubmit 1] } } }
    w 0x3000 6 s fun t => t = s.updCm fun c => { c with db := { c.db with posted := [.doorbellSubmit 1, .registerWrite .bar0 0x3000 6] } }),
   w 0x3060 0xFFFFFFFF s0 (fun t => t.reg .bar0 0x3060 0 = 0x103FF),
   [0x3001, 0x0FFC, 0x1F00, 0x1FFC, 0x6400, 0xFFFFC, 0x100200].all (fun a => w a 3 s0 fun t => t = s0),
   nx (exec (.registerWrite .pf1 4 0x50000) { s0 with regs := [(regKey .pf1 4, 0x30002)] }) (fun t => t.reg .pf1 4 1 = 0x50002) &&
   nx (exec (.registerWrite .pf1 8 0x50007) s0) (fun t => t.reg .pf1 8 1 = 0x50007),
   nx (exec (.registerWrite (.cfg 0) 4 6) s0) (fun t => t.host.pf0 = { s0.host.pf0 with bme := true }),
   nx (exec (.registerWrite (.cfg 0) 0x40 0xFF) s0) (fun t => t.host.pf0.d3),
   (let s := { s0 with time := 7 * 2 ^ 32 + 5 }
    nx (exec (.latchingRead .bar0 0x20) s) (fun t => t = s.updHost fun h => { h with timeLatch := 7 }) &&
    nx (exec (.latchingRead (.io 1) 3) s) (fun t => t = s.updCore 1 fun c => { c with timeLatch := 7 }))] : List Bool)).all id = true := by
  decide +kernel

theorem witness_PortAccesses : ((
  let at_ (m port : Nat) (f : Steward → Steward := id) : State := stw (wI m port) fun c => f { c with g := [(4, 0xA1B2C3D7)] }
  let ext (xio : Nat) (c : Steward) : Steward := { c with psw := 0x0A, xdr := [(0, 0), (1, 0x40000)], xio := [(0, xio)] }
  let off (d : Nat) (s : State) : State := { s with pwr := { s.pwr with doms := s.pwr.doms.put d { state := 0, reset_ := false } } }
  let io : State := { s0 with regs := [(0xDC20, 0xC01)], outlets := [(1, { wr := 9, rd := 4 })] }
  [(let s := { at_ 0x1D 3 with time := 5 * 2 ^ 32 }
    runs s (wI 0x1D 3) && s.portOf 1 (wI 0x1D 3) = 3 && s.portAllowed 1 3 false && !s.portOff 3 && !s.portAsleep 3 && nx (exec (.inPort 1) s) fun t =>
      t = ((s.ioTouch 1 3).updCore 1 fun k => { k with g := putG k.g 4 (s.ioVal 1 3), pc := 0x1004 }).keep s),
   puts (at_ 0x1D 0) (.inPort 1) (wI 0x1D 0) 0x101,
   puts (at_ 0x1D 0 (ext 1)) (.inPort 1) (wI 0x1D 0) 0x101,
   (let s := at_ 0x1E 1
    nx (exec (.outPort 1) s) fun t => (t.core 1).stkLo = 0xA1B2C3D4 && (t.core 1).pc = 0x1004),
   (let s := at_ 0x1E 0xDB00
    s.portAllowed 1 0xDB00 true && !s.portOff 0xDB00 && !s.portAsleep 0xDB00 && nx (exec (.outPort 1) s) fun t =>
      t = ((s.ioWrite 1 0xDB00 0xA1B2C3D7).updCore 1 fun k => { k with pc := 0x1004 }).keep s),
   enters (at_ 0x1E 1 (ext 1)) (.outPort 1) 7 1 && enters (at_ 0x1D 0xDB00 (ext 1)) (.inPort 1) 7 0xDB00,
   (let s := off (lgDom 0) (at_ 0x1E 0x8100)
    s.portOff 0x8100 && !s.portAbsent 0x8100 && nx (exec (.outPort 1) s) (fun t => t = s.updCore 1 fun k => { k with psw := 0x41, pc := 0x1004 }) &&
    (let s := off (lgDom 0) (at_ 0x1D 0x8100)
     nx (exec (.inPort 1) s) (fun t => t = s.updCore 1 fun k => { k with g := [(4, 0)], psw := 0x41, pc := 0x1004 }))),
   io.domOn (outDom 1) && isAlone io && nx (exec (.outRdWrite 1 0xFC000009) io) (fun t => (t.outlet 1).rd = 9 && !(t.outlet 1).rdBad) &&
   nx (exec (.outRdWrite 1 10) io) (fun t => (t.outlet 1).rd = 4 && (t.outlet 1).rdBad) &&
   nx (exec (.outRdWrite 1 0x3FFFFFF) io) (fun t => (t.outlet 1).rd = 4 && (t.outlet 1).rdBad),
   (let s := { s0 with cab := { s0.cab with bgRegion := 3, bgBucket := 9 } }
    !s.cabOn && nx (exec (.cabCfgWrite 0xFFFFFFF5) s) fun t => t.cabCfg = 0x115 && t.cab.bgRegion = 0 && t.cab.bgBucket = 0),
   (let s := { withFire 0 (fr 1 2 3) s0 with regs := [(0xD800, 0x118)] }
    s.cabOn && s.jobCtxLive && nx (exec (.cabCfgWrite 0x15) s) fun t => t.cabCfg % 32 = 0x18 && t.cabOn),
   nx (exec (.pwrAvsWrite 0xFFFFFF20) s0) (fun t => t.pwr = { s0.pwr with avs := 800 }) && nx (exec (.pwrAvsWrite 720) s0) (fun t => t.pwr = { s0.pwr with avs := 720 }),
   nx (exec (.tmpCfgWrite 0x1F3) s0) (fun t => t.sec = { s0.sec with tmpCfg := 0xF3 }),
   (let s := { s0 with sec := { s0.sec with tmpCfg := 0x80 } }
    nx (exec (.tmpCfgWrite 0) s) fun t => t = s),
   nx (exec (.snKillHoldWrite 0x1234) s0) (fun t => t.sn = { s0.sn with killHold := 0x34 })] : List Bool)).all id = true := by
  decide +kernel

theorem witness_HostCommands : ((
  let fn (f : Func) : State := { s0 with host := { s0.host with pf0 := f } }
  let win : State := { s0 with regs := [(regKey .bar0 0x3060, 0x10002), (regKey (.io 1) 0xD130, 0x20001000), (regKey (.io 1) 0xD132, 0x20002000)] }
  let tr : List Byte := le [(4, 0xC00), (4, 0x100), (8, 0x1000), (4, 7), (4, 1), (8, 5)] ++ zeros 25
  [nx (exec (.msixPendingSend 0 18) (fn { pend := [3, 18], msixEn := true, table := [(75, 0)] })) (fun t => t.host.pf0.sent = [18] && t.host.pf0.pend = [3]) &&
   nx (exec (.msixPendingSend 0 18) (fn { pend := [3, 18] })) (fun t => t.host.pf0 = { pend := [3, 18] }),
   (let s := { s0 with regs := [(regKey .pf1 8, 0x50004)], outlets := [(1, { modSince := some 10, modCount := 2 })] }
    nx (exec (.pf1ModerationTimer 1) s) fun t => t.time = 10010 && (t.outlet 1).modSince = none && (t.outlet 1).modCount = 0 && t.host.pf1.pend = [1]),
   (let s := win
    s.jobBase = 0x20001000 && s.jobLimit = 0x20002000 && isAlone s && nx (exec (.bar2Write 0x1FFE [7, 8]) s) fun t => t.ddr = memOf 0 0x20001FFE [7, 8] && t.host = s.host),
   nx (exec (.bar2Write 0x2000 [7]) win) (fun t => t = win.updHost fun h => { h with dwinViol := 1 }) &&
   nx (exec (.bar2Write 0xFFF [7]) win) (fun t => t = win.updHost fun h => { h with dwinViol := 1 }),
   nx (exec (.bar2Write 0x1000 [7]) s0) (fun t => t = s0),
   (let s := { withFire 0 (fr 1 2 3) s0 with regs := [(regKey .bar0 0x3004, 7), (regKey .bar0 0x3060, 1), (regKey .bar0 0x2018, 1)], mbs := [(3, { state := 2, cfg := 0, status := 9 })], pegs := [(5, { held := true, owner := 0, ownerId := 9 }), (6, { held := true, owner := 1 })] }
    nx (exec (.pf0Reset true) s) fun t => t.host = { s.host with pf0 := {} } && t.alertEn = 0 && t.reg .bar0 0x3060 0 = 0 && !t.crOn && t.cm.jobs = s.cm.jobs &&
      t.mb 3 = { state := 2, cfg := 1, status := 9, orphan := true } && !(t.peg 5).held && (t.peg 6).held && t.pes = s.pes),
   (let s := { s0 with otp := { s0.otp with dieRev := 0x1A } }
    s.idcode = 0xA0000000 + s.partNo * 2 ^ 12 + 0x76B && s.partNo < 2 ^ 16),
   (let s := { s0 with cm := { s0.cm with db := { held := some 3, posted := [.doorbellSubmit 1] } } }
    nx (exec (.pf0Reset true) s) fun t => t.cm.db = {}),
   (let s := { s0 with regs := [(regKey .pf1 4, 7), (regKey .pf1 8, 7)], host := { s0.host with pf1 := { bme := true } } }
    nx (exec (.pf1Reset true) s) fun t => t.host = { s.host with pf1 := {} } && t.reg .pf1 4 1 = 1 && t.reg .pf1 8 1 = 1),
   (let s := call 3 0x99 [] s0
    (s.mb 3).cmdId ∉ mbIds && !s.clusterDown && s.fwRuns && nx (exec (.mbGoUndefinedId 3) s) fun t => (t.mb 3).state = 3 && (t.mb 3).status = BAD_ARG && (t.mb 3).rspLen = 0),
   (let s := call 3 0x01 [] { s0 with time := 0x1234 }
    served s 3 0x01 0 [] && nx (exec (.getInfo 3) s) fun t => done s t 3 OK s.infoBytes && s.infoBytes.length = 104 && fld s.infoBytes 0 2 = s.partNo % 2 ^ 16 &&
      fld s.infoBytes 4 8 = s.otp.serial % 2 ^ 64 && fld s.infoBytes 32 8 = 0x1234 && fld s.infoBytes 16 4 = s.boot.image.version),
   (let s := call 3 0x02 [] s0
    served s 3 0x02 0 [] && s.capsBytes.length = 40 && fld s.capsBytes 0 4 = s.idUnits0 % 2 ^ 32 && fld s.capsBytes 4 4 = s.idUnits1 % 2 ^ 32 && fld s.capsBytes 9 1 = 15 &&
      fld s.capsBytes 16 4 = s.admLimit % 2 ^ 32 && fld s.capsBytes 22 2 = s.cm.blocks.length && fld s.capsBytes 36 1 = 64),
   (let s := call 3 0xA0 tr s0
    served s 3 0xA0 57 traceNamed && traceOk tr && !s.trRingOn && nx (exec (.traceConfig 3) s) fun t => (t.mb 3).state = 3 && (t.mb 3).status = OK && (t.mb 3).rspLen = 8 &&
      t.trRingCtl = 0xC00 && t.trTrigCfg = 0x100 && t.trPost = 7 && [0, 2].all (fun k => t.peReg (s.physOf k) 0x20 0x01FFFF00 = 1) && t.peReg 1 0x20 0x01FFFF00 = 0x01FFFF00)] : List Bool)).all id = true := by
  decide +kernel

theorem witness_I3cCommands : ((
  let s (f : I3c → I3c) : State := { s0 with i3c := f s0.i3c, pwr := { s0.pwr with rails := 3 } }
  let a (f : I3c → I3c := id) : State := s fun i => f { i with addr := some 9 }
  let mb (st : Nat) (s : State) : State := { s with mbs := [(15, { state := st, cfg := 0, data := [1, 2, 3] })], pegs := [(5, { held := true, owner := 1 })], regs := [(regKey .i3c 0xC, 7)] }
  [(s id).i3cUp && nx (exec (.entdaa 9) (s id)) (fun t => t = a),
   nx (exec .rstdaa (a)) (fun t => t = s id),
   nx (exec .rstact (mb 2 (a fun i => { i with ptr := 5, ev := 0 }))) (fun t => t.i3c.addr = none && t.i3c.ptr = 0 && t.bmcAlertEn = 0x600 &&
      t.mb 15 = { state := 2, cfg := 1, data := [1, 2, 3], orphan := true } && !(t.peg 5).held),
   nx (exec (.enec 0xA) (a)) (fun t => t.i3c = { (a).i3c with ev := 0xB }) && nx (exec (.disec 0xB) (a fun i => { i with ev := 6 })) (fun t => t.i3c.ev = 4),
   [(Instr.getpid, 6), (.getbcr, 1), (.getdcr, 1), (.getmwl, 2), (.getmrl, 2), (.getstatus, 2)].all (fun (i, n) => nx (exec i (a)) fun t => t.i3c.out.length = n),
   nx (exec (.i3cPrivateWrite [0xC, 0, 0x34, 0x12, 0, 0]) (a)) (fun t => t.bmcAlertEn = 0x1234 && t.i3c.ptr = 0x10),
   nx (exec (.i3cPrivateWrite [0xFF, 1, 0x77]) (mb 0 (a))) (fun t => (t.mb 15).data.getD 0xDF 0 = 0x77 && (t.mb 15).data.take 4 = [1, 2, 3, 0]),
   nx (exec (.i3cPrivateWrite [0x20, 1, 0x77]) (mb 3 (a))) (fun t => (t.mb 15).data = [0x77, 2, 3]),
   (let s := a fun i => { i with ptr := 0 }
    nx (exec (.i3cPrivateRead 4) s) fun t => t.i3c.out = leBytes 4 (s.i3cVal 0) && t.i3c.ptr = 4),
   [true, false].all (fun acc => nx (exec (.inBandInterrupt acc) (a fun i => { i with ibi := [4, 5] })) fun t => t.i3c.out = [4] &&
      t.i3c.ibi = if acc then [5] else [4, 5])] : List Bool)).all id = true := by
  decide +kernel

/-! ### Pairs and arbitration -/

/-- A package of a pair. -/
def pr (f : Pair → Pair) (g : State → State := id) : State := g { s0 with pair := f { s0.pair with en := true } }

/-- The conclusion of `Detached`, checked. -/
def detached (s : State) (c : Instr) (cause : Nat) : Bool := nx (exec c s) fun t => decide (Detached s t cause)

def hb (role term : Nat) : Heartbeat := { role := role, term := term, epoch := 9, acked := 0, live := 0, echo := 0 }

def jr (ty : Nat) (args : List Nat) (data : List Byte := []) : JRec := { ty := ty, args := args, data := data }

theorem witness_PairFormation : ((
  let form (pref : Bool) (f : Pair → Pair := id) : State := pr fun p => f { p with state := 4, prefHigh := pref, term := 3, partnerTerm := 7, formAt := 10 }
  let claimed (t : State) : Bool := t.pair.state = 1 && t.pair.term = 8
  let duals (n : Nat) (s : State) : State := { s with lanes := (List.range 4).map fun l => (l, { state := 5, dual := true, following := decide (l < n) }) }
  let seen (st n : Nat) : State := duals n (pr fun p => { p with state := st, claimSeenAt := some 50 })
  [s0.hasBridge && nx (exec .formationTimeout (form true)) (fun t => t.time = 4000000010 && claimed t && t.pair.unprot && t.host.alert.testBit 7 &&
      (List.range 128).all fun l => (t.lane l).creditDue),
   (let s := form true; s.domOn 4 && nx (exec (.bridgeTrained s.bridgeParams) s) fun t => claimed t && t.pair.trained && t.pair.lanes = 0xFF),
   (let s := form false; let x := { s.bridgeParams with serial := 99 }
    s.sameParams x && nx (exec (.bridgeTrained x) s) fun t => t.pair.state = 4 && t.pair.trained && t.pair.lanes = 0xFF && t.pair.partnerSame && t.cm = s.cm),
   (let s := pr fun p => { p with state := 2 }; let x := { s.bridgeParams with e := 99 }
    !s.sameParams x && detached s (.bridgeTrained x) 8),
   nx (exec (.bridgeLaneLoss 7) (pr fun p => { p with state := 2, lanes := 0xC1 })) (fun t => t.pair.lanes = 0x41 && t.pair.state = 2),
   nx (exec (.primClaimInChange true) s0) (fun t => t = s0.updPair fun p => { p with claimIn := true, claimAt := s0.time }),
   nx (exec (.heartbeatReceived (hb 3 4)) (pr fun p => { p with state := 1, suspectAt := some 3 })) (fun t => t.pair.suspectAt = none && t.pair.partnerRole = 3),
   (let s := form false; s.initial && nx (exec (.heartbeatReceived (hb 1 4)) s) fun t => t.pair.state = 4 && t.pair.claimSeenAt = some 0),
   (let s := { form false with sites := [(9, { bound := true })] }; !s.initial && detached s (.heartbeatReceived (hb 1 4)) 8),
   nx (exec (.heartbeatReceived (hb 2 4)) (pr fun p => { p with state := 1, unprot := true })) (fun t => !t.pair.unprot && t.pair.seatDue && t.host.alert.testBit 7),
   (let s := seen 1 1; s.quorum = 2 && nx (exec .dualClaimCheck s) fun t => t.time = 20050 && decide (Detached s t 7)),
   (let s := seen 1 2; nx (exec .dualClaimCheck s) fun t => t.pair.state = 1 && t.pair.claimSeenAt = none && t.cm = s.cm),
   detached (seen 4 4) .dualClaimCheck 8,
   nx (exec (.seatMessage 6) (form false)) (fun t => t.arb = [{ obj := .pairRole, opened := 0, cmds := [{ rank := 3, at_ := 0, what := .partnerRole 6 }] }])] : List Bool)).all id = true := by
  decide +kernel

theorem witness_PairEpochs : ((
  let act (f : Pair → Pair := id) (g : State → State := id) : State := pr (fun p => f { p with state := 1, running := true, epoch := 3, digest := 0xD, journal := [jr 2 [1]], sent := [jr 7 [5], jr 15 [2, 1, 0]] }) g
  let sb (f : Pair → Pair := id) : State := pr fun p => f { p with state := 2, epoch := 3 }
  let rec_ (r : JRec) (p : State → Bool) (q : JRec) (f : Pair → Pair := id) : Bool := nx (exec (.journalRecordReceived r) (sb fun p => f { p with rxCur := [q] })) p
  let e : JRec := jr 15 [3, 1, 0xAB]
  let lanes (n : Nat) (s : State) : State := { s with lanes := (List.range 4).map fun l => (l, { state := 5, dual := true, port := 1, feRole := if l < n then 0 else 2 }) }
  [(let s := act id fun s => { s with time := 100 }
    s.epochUs = 8 && nx (exec .epochBoundary s) fun t => t.time = 16000 && t.pair.epoch = 4 && t.pair.journal = [] && t.pair.sent = [jr 7 [5], jr 15 [2, 1, 0], jr 2 [1], jr 15 [3, 1, 0xD]] &&
      t.net.notices = [.epoch 4]),
   (let s := act (fun p => { p with early := true }) fun s => { s with time := 20000 }
    nx (exec .epochBoundary s) fun t => t.time = 20000 && t.pair.epoch = 3 && !t.pair.early && t.pair.lastB = 16000 && t.pair.journal = [jr 2 [1]]),
   (let s := act id fun s => { s with time := 20000 }
    s.journals && s.epochOver && !(act).epochOver && (s.jrnl 1 [8] []).pair.epoch = 4 && (s.jrnl 1 [8] []).pair.early &&
      (s.jrnl 1 [8] []).pair.journal = [jr 1 [8]]),
   (let s := act (fun p => { p with running := false, reseat := true, copyDone := true }) fun s => { s with cm := { s.cm with jobs := [(5, {}), (9, {})] } }
    nx (exec .epochBoundary s) fun t => t.pair.running && t.pair.epoch = 0 && t.pair.seamPassed && !t.pair.reseat && t.pair.unprotJobs = [5, 9] && t.pair.unprot),
   (let s := act (fun p => { p with running := false, reseat := true, copyDone := true })
    nx (exec .epochBoundary s) fun t => t.pair.running && t.pair.unprotJobs = [] && !t.pair.unprot),
   (let s := act (fun p => { p with sent := [jr 7 [5], jr 15 [2, 1, 0], jr 7 [6], jr 15 [3, 1, 0], jr 2 [8]] }) fun s =>
      { s with mbs := [(3, { state := 2, held := some (2, OK, [7]) }), (4, { state := 2, held := some (3, OK, [7]) })] }
    s.journals && nx (exec (.epochAck 2) s) fun t => t.pair.acked = some 2 && t.pair.sent = [jr 7 [6], jr 15 [3, 1, 0], jr 2 [8]] && (t.mb 3).state = 3 && (t.mb 3).status = OK &&
      (t.mb 3).data = padTo 224 [7] && (t.mb 3).held = none && t.mb 4 = s.mb 4),
   (let s := act fun p => { p with trained := true, lanes := 3, hbOut := 70 }
    s.bridgeUp && nx (exec .heartbeatSend s) fun t => t.time = 570 && t.pair.hbOut = 570 && t.pair.hbSent.any fun h => h.role = 1 && h.epoch = 3),
   nx (exec (.journalRecordReceived (jr 0x0A [1])) (sb fun p => { p with rxCur := [e] })) (fun t => t.pair.rxCur = [e, jr 0x0A [1]] && t.cm = (sb).cm),
   nx (exec (.journalRecordReceived (jr 0x0E [1])) (sb)) (fun t => t.pair.rxCur = [jr 0x0E [1]]),
   [0, 0x0B, 0x0D, 0x10, 0xFF].all (fun ty => detached (sb) (.journalRecordReceived (jr ty [])) 2),
   detached (sb fun p => { p with grants := [(1, 2, 3, 4)] }) (.journalRecordReceived e) 3,
   detached (sb fun p => { p with rxDigest := some 1, digest := 2 }) (.journalRecordReceived e) 2,
   detached (sb fun p => { p with rxBad := true }) (.journalRecordReceived e) 3,
   (let s := sb fun p => { p with rxCur := [] }
    nx (exec (.journalRecordReceived e) s) fun t => t = s.updPair fun p => { p with rxBad := true }),
   rec_ e (fun t => t.pair.ctls = [(9, 77, 3)]) (jr 0x0A [9, 7, 77, 19]),
   rec_ e (fun t => t.pair.values = [(5, 6, 7, true)] && t.pair.acked = some 3 && t.pair.epoch = 4 && t.pair.rxDigest = some 0xAB && t.pair.rxCur = []) (jr 2 [5, 6, 7, 9]) fun p =>
     { p with rxDigest := some 8, digest := 8 },
   rec_ e (fun t => t.pair.grants = [(5, 6, 7, 9)] && t.pair.acked = some 3) (jr 1 [5, 6, 7, 9]),
   rec_ e (fun t => t.pair.seqs = [(1, 6, 7, 9)] && t.pair.acked = some 3) (jr 7 [1, 6, 7, 9, 4]),
   rec_ e (fun t => t.pair.branchPts = [(5, 6, 7)]) (jr 4 [5, 6, 7]),
   rec_ e (fun t => (t.mb 21).state = 1 && (t.mb 21).cmd = 0x20 + 0x44 * 2 ^ 8 + 2 * 2 ^ 16 && (t.mb 21).data = padTo 224 [8, 9]) (jr 6 [5, 5, 0x20, 0x44, 2] [8, 9]),
   nx (exec .suspicion (sb fun p => { p with hbIn := some 90 })) (fun t => t.time = 2090 && t.pair.suspectAt = some 2090),
   (let s := { sb fun p => { p with suspectAt := some 5, claimIn := true, term := 3, partnerTerm := 7, values := [(1, 2, 3, true)], takeovers := 0xFFFFFFFF } with time := 4005 }
    let s := lanes 2 s
    s.quorum = 2 && s.absentLanes = 2 && nx (exec .takeover s) fun t => t.pair.state = 1 && t.pair.term = 8 && t.pair.unprot && t.pair.rxCur = [] && t.pair.takeovers = 0xFFFFFFFF &&
      t.pair.values = [(1, 2, 3, true)] && t.cm = s.cm && t.sites = s.sites && t.host.alert.testBit 7 && (List.range 128).all fun l => (t.lane l).creditDue),
   nx (exec .takeover (sb fun p => { p with suspectAt := some 5 })) (fun t => t.pair.state = 1),
   nx (exec .takeover (sb fun p => { p with suspectAt := some 4000, claimAt := 3990 })) (fun t => t.pair.state = 1 && t.time = 4001),
   (let s := sb fun p => { p with suspectAt := some 5, term := 0xFFFFFFFF }; nx (exec .takeover s) fun t => t.pair = s.pair),
   (let s := sb fun p => { p with suspectAt := some 5 }; nx (exec .confirmationExpiry s) fun t => t.time = 4005 && decide (Detached s t 1)),
   (let s := act (fun p => { p with hbIn := some 5 }) fun s => { s with mbs := [(3, { state := 2, held := some (2, DENIED, [7]) })] }
    nx (exec .bridgeLossAtActive s) fun t => t.time = 6005 && t.pair.unprot && !t.pair.running && t.host.alert.testBit 7 && t.cm = s.cm && (t.mb 3).state = 3 && (t.mb 3).status = DENIED),
   (let s := { (sb) with ddr := memOf 0 0x100 [1, 2, 3] }; nx (exec (.mirrorWrite 0x101 [9]) s) fun t => t.ddr = memOf 0 0x100 [1, 9, 3] && t.pair = s.pair),
   (let s := pr fun p => { p with state := 3, trained := true, lanes := 0x81, term := 4 }
    let c : SeamCfg := { cohorts := [(4, 0x30)], queued := [List.replicate 128 0] }
    s.bridgeUp && nx (exec (.seam 9 [5] c) { s with sites := [(9, { bound := true, first := 8, lanes := 1 })] }) fun t => t.pair.state = 2 && t.pair.term = 9 &&
      t.pair.epoch = 0 && t.pair.unprotJobs = [5] && (Tbl.find t.cm.jobs 5).isSome && t.cohorts = [(4, 0x30)] && !(t.site 9).bound && t.cm.queue.length = 1),
   (let s := act fun p => { p with reseat := true }
    nx (exec .reseatCopyDone s) (fun t => t = s.updPair fun p => { p with copyDone := true, reseatPct := 100, lastB := s.time }) &&
    nx (exec .reseatFailure s) (fun t => !t.pair.reseat && t.host.alert.testBit 7)),
   nx (exec .reseatFailure (pr fun p => { p with state := 3 })) (fun t => t.pair.state = 3 && t.pair.detach = 9),
   (let s := act fun p => { p with unprot := true }
    nx (exec .unprotectedJobEnd s) fun t => t.pair = { s.pair with unprot := false } && t.host.alert.testBit 7),
   nx (exec .standbyFirmwareRunning (act fun p => { p with fwWait := true })) (fun t => t = act fun p => { p with fwWait := false })] : List Bool)).all id = true := by
  decide +kernel

theorem witness_PairCommands : ((
  let cmd (k m : Nat) (f : Pair → Pair := id) : State := call m k [] (pr f)
  let ready (s : State) (m k : Nat) : Bool := (s.mb m).state = 1 && (s.mb m).cmdId = k && (s.mb m).replay = none && s.domOn 1 && s.hostRoom && s.mbCheck m 0 [] true false = none
  let rs (p : Pair) : Pair := { p with state := 1, partnerRole := 3, trained := true, lanes := 3, partnerSame := true }
  [(let s := cmd 0x50 3 fun p => { p with state := 1, running := true, term := 0x99, acked := some 7 }
    ready s 3 0x50 && nx (exec (.pairStatus 3) s) fun t => done s t 3 OK s.pairStatus && s.pairStatus.length = 24 && fld s.pairStatus 0 1 = s.role && fld s.pairStatus 4 4 = 0x99 &&
      fld s.pairStatus 8 2 = 8 && fld s.pairStatus 16 8 = 7),
   (let s := cmd 0x51 3 fun p => { p with state := 1, running := true }
    ready s 3 0x51 && nx (exec (.pairSwap 3) s) fun t => (t.mb 3).state = 2 && t.arb = [{ obj := .pairRole, opened := 0, cmds := [{ rank := 2, at_ := 0, what := .swap 3 }] }]),
   (let s := call 3 0x51 [] s0; ready s 3 0x51 && nx (exec (.pairSwap 3) s) fun t => done s t 3 NOT_ACTIVE []),
   (let s := cmd 0x52 3 rs; ready s 3 0x52 && nx (exec (.pairReseat 3) s) fun t => done s t 3 ACCEPTED [] && t.pair.reseat && t.pair.reseatPct = 0),
   [fun p => { rs p with running := true }, fun p => { rs p with lanes := 1 }, fun p => { rs p with reseat := true }, fun p => { rs p with partnerSame := false },
    fun p => { rs p with partnerRole := 2 }].all (fun f => let s := cmd 0x52 3 f; ready s 3 0x52 && nx (exec (.pairReseat 3) s) fun t => done s t 3 DENIED [] && t.pair = s.pair),
   [fun p => { rs p with en := false }, fun p => { rs p with state := 3 }].all (fun f => let s := cmd 0x52 3 f; ready s 3 0x52 && nx (exec (.pairReseat 3) s) fun t => done s t 3 NOT_ACTIVE []),
   (let s := { pr fun p => { p with state := 2, term := 4, partnerTerm := 6 } with mbs := [(21, { cmd := 0x51, state := 1 })] }
    s.replayed 21 && s.digestOk && nx (exec (.pairSwap 21) s) fun t => t.pair.state = 1 && t.pair.term = 7 && !t.pair.unprot && t.pair.running && t.cm = s.cm),
   (let s := { pr fun p => { p with state := 1, running := true, term := 4, swapMb := some 5, swapAt := some 2 } with mbs := [(5, { cmd := 0x51, state := 2 })] }
    nx (exec (.heartbeatReceived (hb 1 9)) s) fun t => t.pair.state = 2 && t.pair.term = 9 && t.pair.swapMb = none && (t.mb 5).state = 3 && (t.mb 5).status = OK &&
      (t.mb 5).data = padTo 224 [9]),
   [(Instr.partnerPegAcquire 9, 1), (.partnerPegRead 9, 2), (.partnerPegRelease 9, 3)].all (fun (i, k) =>
      let s := pr fun p => { p with trained := true, lanes := 3, pegRes := 4 }
      nx (exec i s) fun t => t = s.updPair fun p => { p with pegReq := some (k, 9), pegRes := 0 }),
   (let s := pr fun p => { p with pegReq := some (1, 2) }
    nx (exec (.partnerPegResult 0x77) s) fun t => t = s.updPair fun p => { p with pegRes := 0x77, pegReq := none })] : List Bool)).all id = true := by
  decide +kernel

theorem witness_Arbitration : ((
  let w (obj : ArbObj) (l : List (Nat × Arb)) (g : State → State := id) : State :=
    g { s0 with arb := [{ obj := obj, opened := 40, cmds := l.map fun x => { rank := x.1, at_ := 44, what := x.2 } }], host := { s0.host with superseded := 0xFFFFFFFF }, mbs := [(3, { state := 2 }), (15, { state := 2 })] }
  let st (b : Bool) (s : State) : State := { s with sites := [(9, { bound := b, first := 9, lanes := 2, job := some 1 })], lgs := [(1, { ops := [{ id := 6, op := 1, req := 2, wait := 2 }] })] }
  let go (s : State) (o : ArbObj) (p : State → Bool) : Bool := isAlone s && nx (exec (.arbiterWindowClose o) s) fun t => t.time = 168 && t.arb = [] && p t
  let ans (t : State) (m c : Nat) : Bool := (t.mb m).state = 3 && (t.mb m).status = c
  [go (w (.site 9) [(4, .sitectl 6 1)] (st true)) (.site 9) (fun t => (t.site 9).ctl = [(6, 1)] && t.host.superseded = 0xFFFFFFFF),
   go (w (.site 9) [(4, .branch 6 33 0x77)] (st true)) (.site 9) (fun t => (t.site 9).brq.map (fun b => (b.op, b.pe, b.word, b.at_, b.land)) = [(6, 33, 0x77, 168, 44)]),
   go (w (.site 9) [(4, .sitectl 6 1), (2, .retire 3)] (st false)) (.site 9) (fun t => (t.site 9).ctl = [] && t.host.superseded = 0xFFFFFFFF && ans t 3 NOT_ACTIVE &&
      (t.lg 1).ops.all fun o => o.id ≠ 6 || o.sup),
   go (w (.site 9) [(2, .retire 3)] (st true)) (.site 9) (fun t => !(t.site 9).bound && (t.site 9).job = none && ans t 3 OK),
   (let s := w (.site 9) [(2, .rejoin 3 7)] (st true); go s (.site 9) (fun t => ans t 3 NOT_ACTIVE && t.site 9 = s.site 9)),
   go (w .throttle [(2, .throttle 3 5)]) .throttle (fun t => t.pwr.hostThr = 5 && ans t 3 OK),
   go (w .throttle [(2, .throttle 3 5), (1, .snThrottle 6)] fun s => { s with host := { s.host with superseded := 8 } }) .throttle (fun t => t.pwr.hostThr = 0 && t.pwr.snThr = 6 && t.host.superseded = 9 && ans t 3 SUPERSEDED),
   (let s := w (.domain 9) [(2, .setDomain (.mb 3) 1), (1, .setDomain (.mb 15) 2)]
    s.domCheck 9 2 = none && go s (.domain 9) (fun t => (t.dom 9).set_ = 2 && ans t 3 SUPERSEDED)),
   go (w (.rule 4) [(2, .ruleWrite (.port 1 0) [1, 2])]) (.rule 4) (fun t => (t.rule 4).next = some [1, 2] && !t.sn.refused)] : List Bool)).all id = true := by
  decide +kernel

/-! ### Power and the sentinel -/

/-- A domain in a state. -/
def withDom (d : Nat) (x : Domain) (s : State) : State := { s with pwr := { s.pwr with doms := s.pwr.doms.put d x } }

def up : Domain := { state := 2, reset_ := false }

theorem witness_PowerCommands : ((
  let cmd (m op a2 a3 : Nat) (w : Nat := 0) : State := call m 0x90 (le [(1, op), (1, a2), (1, a3), (1, 0), (4, w)]) { s0 with time := 70 }
  let sleeping (f : Power → Power) : State := { s0 with pwr := f { s0.pwr with asleep := true, doms := (s0.pwr.doms.put 5 { up with state := 1 }).put 6 { up with state := 1 } }, time := 900 }
  let rest (l : List Nat) (f : Power → Power) : State :=
    let s := l.foldl (fun s d => withDom d { up with state := 1 } s) s0
    { s with pwr := f s.pwr, time := 77 }
  [(let s := cmd 15 0 33 1
    served s 15 0x90 8 ppNamed && s.domPresent 33 && nx (exec (.powerPolicyDomain (.mb 15)) s) fun t => (t.mb 15).state = 2 &&
      t.arb = [{ obj := .domain 33, opened := 70, cmds := [{ rank := 1, at_ := 70, what := .setDomain (.mb 15) 1 }] }]),
   (let s := cmd 3 1 0 2 10000000
    served s 3 0x90 8 ppNamed && nx (exec (.powerPolicyInsertions 3) s) fun t => done s t 3 OK [0] && t.polLevel = 2 && t.holdoff = 20000000000),
   [(3, 10), (2, 9), (2, 10000001)].all (fun (l, h) => let s := cmd 3 1 0 l h; nx (exec (.powerPolicyInsertions 3) s) fun t => done s t 3 BAD_ARG [] && t.regs = s.regs),
   (let s := cmd 3 2 0 7
    served s 3 0x90 8 ppNamed && nx (exec (.powerPolicyThrottle 3) s) fun t => (t.mb 3).state = 2 &&
      t.arb = [{ obj := .throttle, opened := 70, cmds := [{ rank := 2, at_ := 70, what := .throttle 3 7 }] }]),
   nx (exec (.powerPolicyDomain (.port 1 0x531)) s0) (fun t => t.pwr = { s0.pwr with cmdBusy := true } &&
      t.arb = [{ obj := .domain 49, opened := 0, cmds := [{ rank := 1, at_ := 0, what := .setDomain (.port 1 0x531) 1 }] }]),
   (let s := withDom 33 { up with state := 1, going := some 2, waits := [(.mb 3, 1)] } s0
    s.mayWake 33 && nx (exec (.domainTransitionDone 33) s) fun t => (t.dom 33).state = 2 && (t.dom 33).going = none && (t.dom 33).waits = []),
   (let s := { withDom (lgDom 1) { up with state := 1, going := some 2 } s0 with time := 9 }
    let s := { s with net := { s.net with regHold := [(lgDom 1, .cuCntClr 10 1)] }, cus := [(10, { cnt := [(0x0E, 4)] })] }
    s.mayWake (lgDom 1) && nx (exec (.domainTransitionDone (lgDom 1)) s) fun t => t.net.regHold = [] && Tbl.get 0 (t.cu 10).cnt 0x0E = 0),
   [0, 1].all (fun k => let s := withDom 33 { up with going := some k, set_ := k } s0
      s.entryReady 33 && nx (exec (.domainTransitionDone 33) s) fun t => (t.dom 33).state = k && (t.dom 33).going = none),
   (let s := withDom 33 { up with state := 1, set_ := 1, wake := true } s0
    nx (exec (.domainTransitionDone 33) s) fun t => (t.dom 33).state = 2 && !(t.dom 33).wake && (t.dom 33).woken),
   (let s := withDom 33 { up with set_ := 1, woken := true, idleSince := 6 } s0
    s.domIdle 33 && nx (exec (.domainIdleHoldoff 33) s) fun t => t.time = 200006 && (t.dom 33).going = some 1),
   (let s := { s0 with regs := [(regKey (.io 0) 0x3042, 1)], pwr := { s0.pwr with idleAt := some 8 } }
    !s.domBusy 33 1 && s.domIdle 33 && nx (exec .policyApply s) fun t => t.time = 200008 && (t.dom 33).going = some 1),
   (let s := rest (sleepDoms 1) fun p => { p with step := 1 }; s.stepDone 1 && nx (exec .fabricSleepStep s) fun t => t.pwr.step = 2),
   (let s := rest (sleepDoms 5) fun p => { p with step := 5 }
    s.stepDone 5 && nx (exec .fabricSleepStep s) fun t => t.pwr.asleep && t.pwr.ts = 77 && (t.dom 5).state = 1 && (t.dom 6).state = 1),
   nx (exec (.fabricWake 2) (sleeping fun p => { p with wakeCnt := 0xFFFFFFFF })) (fun t => t.time = 1400 && !t.pwr.asleep && t.pwr.tw = 1400 && t.pwr.wakeCnt = 0xFFFFFFFF &&
      (t.dom 5).state = 2 && (t.dom 6).state = 2),
   nx (exec (.fabricWake 2) (rest [33] fun p => { p with step := 3 })) (fun t => t.pwr.step = 0 && t.time = 77),
   (let s := { s0 with pwr := { s0.pwr with flush := [3, 4] }, trace := { s0.trace with coll := [(3, [{ time := 5 }])] } }
    nx (exec (.quadTraceFlush 3) s) fun t => t.pwr.flush = [4] && Tbl.get [] t.trace.coll 3 = [] && t.pwr.slept = [3]),
   nx (exec .aoTick s0) (fun t => t = s0) && (let s := sleeping fun p => { p with fref := false, undisc := 0xFFFFFFFF }
    nx (exec .aoTick s) fun t => t = { s with time := 1400 })] : List Bool)).all id = true := by
  decide +kernel

theorem witness_SuppliesAndResets_rails : ((
  let r (n : Nat) : State := { s0 with pwr := { s0.pwr with rails := n, railLoss := 0xFFFFFFFF } }
  let r2 : State := { r 0x7F with otp := { s0.otp with part := 2 } }
  [nx (exec (.railBad 6) (r 0x7F)) (fun t => t.pwr.rails = 0x3F && t.pwr.railLoss = 0xFFFFFFFF && t.time = 0 && [7, 8, 9, 10].all (fun d => (t.dom d).reset_ && (t.dom d).state = 0) && t.domOn 33),
   nx (exec (.railBad 2) r2) (fun t => t.pwr.rails = 0x7B && ((List.range 50).all fun d => !r2.domPresent d || !(domRails d).contains 2 || ((t.dom d).reset_ && (t.dom d).state = 0))),
   nx (exec (.railBad 1) { r 0x7F with sn := { s0.sn with killHold := 0 }, host := { s0.host with mem := [(5, 6)] } }) (fun t => t.pwr.rails = 0x7D && t.sn = {} && t.cm = {} && t.host.mem = [(5, 6)] &&
      t.otp = s0.otp && (List.range 49).all fun d => (t.dom (d + 1)).reset_)] : List Bool)).all id = true := by
  decide +kernel

theorem witness_SuppliesAndResets_good : ((
  let down (f : Power → Power) : State := { s0 with pwr := f { s0.pwr with doms := [] } }
  [nx (exec (.railGood 6) (down fun p => { p with rails := 0x3F })) (fun t => t.pwr.rails = 0x7F && (List.range 50).all fun d => !s0.domPresent d || !t.railsOk d || !(t.dom d).reset_),
   s0.fabricRuns && nx (exec .frefLoss { withFire 0 (fr 1 2 3) s0 with otp := { s0.otp with part := 2 } }) (fun t => !t.pwr.fref && t.pwr.railLoss = 1 && (t.dom 1).reset_ && t.cm.jobs = [])] : List Bool)).all id = true := by
  decide +kernel

theorem witness_SuppliesAndResets : ((
  let down (f : Power → Power) : State := { s0 with pwr := f { s0.pwr with doms := [] } }
  [(let s := withDom 5 { up with state := 1 } s0; nx (exec .frefLoss s) fun t => t = s.updPwr fun p => { p with fref := false }),
   nx (exec .frefReturn (down fun p => { p with fref := false })) (fun t => t.pwr.fref),
   (let s := { s0 with lanes := [(96, { state := 5 }), (95, { state := 5 })], pair := { s0.pair with lanes := 0xFF } }
    nx (exec (.lrefLoss 3) s) fun t => t.pwr.lref = 7 && t.pair.lanes = 0 && (t.lane 96).state = 2 && (t.lane 96).cause = 1 && (t.lane 95).state = 5),
   (let s := { withFire 0 (fr 1 2 3) s0 with sn := { s0.sn with trip := true, killHold := 5, inputs := List.replicate 48 499 }, i3c := { s0.i3c with ptr := 9 } }
    nx (exec .resetAssert s) fun t => t.boot.resetLow && t.time = 0 && t.cm = {} && t.sites = [] && t.lanes = [] && t.sn.killHold = 5 && t.i3c.ptr = 9 && t.rcd = s.rcd &&
      !t.sn.trip && (List.range 49).all fun d => (t.dom (d + 1)).reset_)] : List Bool)).all id = true := by
  decide +kernel

/-- A rule image: flags, input, mode, avg_len, onset and clear debounces, actions, threshold, hysteresis, kill mask. -/
def ruleImg (fl inp mode avg on off acts thr hyst kill : Nat) : List Byte :=
  padTo 64 (le [(1, fl), (1, inp), (1, mode), (1, avg), (1, on), (1, off), (2, acts), (4, thr), (4, hyst), (1, kill)])

theorem witness_SentinelCommands : ((
  let img := ruleImg 1 5 0 2 2 2 7 100 10 0x81
  let cmd (m op n : Nat) (i : List Byte := []) : State := call m 0x91 ((le [(1, op), (1, 2)] ++ zeros 6 ++ i).take n) { s0 with sn := { s0.sn with rules := [(2, { image := img })] } }
  let staged (i : List Byte) : State := { s0 with regs := (regKey (.io 0) 0x4003, 2) :: (List.range 16).map fun k => (regKey (.io 0) (0x4010 + k), fld i (4 * k) 4) }
  let put (m : Nat) (rank : Nat) (a : Arb) (t : State) : Bool := (t.mb m).state = 2 && t.arb = [{ obj := .rule 2, opened := 0, cmds := [{ rank := rank, at_ := 0, what := a }] }]
  let smp (v : Int) (r : SnRule) (p : SnRule → State → Bool) : Bool :=
    let s := { s0 with sn := { s0.sn with rules := [(2, r)], killHold := 0 } }
    nx (exec (.sentinelSample (List.replicate 5 0 ++ [v])) s) fun t => match Tbl.find t.sn.rules 2 with | some n => p n t | none => false
  let r0 : SnRule := { image := img }
  [(let s := cmd 3 0 2; served s 3 0x91 2 snNamed && nx (exec (.sentinelRulesRead 3) s) fun t => done s t 3 OK img),
   (let s := cmd 15 1 72 img; served s 15 0x91 72 snNamed && snImageOk 2 img && nx (exec (.sentinelRulesWrite (.mb 15)) s) (put 15 1 (.ruleWrite (.mb 15) img))),
   (let i := ruleImg 1 98 0 2 2 2 7 100 10 0; let s := cmd 3 1 72 i
    !snImageOk 2 i && nx (exec (.sentinelRulesWrite (.mb 3)) s) fun t => done s t 3 BAD_ARG [] && t.sn = { s.sn with refused := true }),
   (let s := cmd 3 2 2; served s 3 0x91 2 snNamed && nx (exec (.sentinelRulesDisable (.mb 3)) s) (put 3 2 (.ruleDisable (.mb 3)))),
   (let s := staged img
    s.snSel = 2 && s.snStaged == img && nx (exec (.sentinelRulesWrite (.port 1 1)) s) fun t =>
      t.arb = [{ obj := .rule 2, opened := 0, cmds := [{ rank := 2, at_ := 0, what := .ruleWrite (.port 1 1) img }] }]),
   (let s := { staged (zeros 64) with sn := { s0.sn with rules := [(2, r0)] } }; nx (exec .snRuleCopy s) fun t => t.snStaged = img),
   nx (exec (.dpfAssert 7) { s0 with sn := { s0.sn with killHold := 0 } }) (fun t => t.sn.killHw = 0x80 && t.killState = 0x80 && t.sn.dpfCnt = 1),
   nx (exec (.dpfReleaseTimer 7) { s0 with sn := { s0.sn with killHw := 0xC0, dpfHigh := [(7, 5)] } }) (fun t => t.time = 2000005 && t.sn.killHw = 0x40),
   smp 110 { r0 with hist := [91, 400], meets := 1 } (fun n _ => n.hist = [110, 91] && n.f = 100 && !n.own && n.meets = 0),
   smp 111 { r0 with hist := [91], meets := 1 } (fun n t => n.f = 101 && n.own && n.holds && t.killState = 0x81 && t.sn.alertN && t.host.alert.testBit 10 && t.host.bmcAlert.testBit 10 && !n.latched),
   smp 111 { r0 with hist := [91] } (fun n _ => !n.own && n.meets = 1),
   smp 90 { r0 with hist := [90], own := true, holds := true, ends := 1 } (fun n _ => !n.own && !n.holds),
   smp 90 { r0 with hist := [90], own := true, holds := true } (fun n _ => n.own && n.ends = 1),
   smp 92 { r0 with hist := [90], own := true, holds := true, ends := 1 } (fun n _ => n.own && n.ends = 0),
   smp (-1) { r0 with image := ruleImg 3 5 1 1 1 1 0 0 10 0 } (fun n _ => n.holds && n.latched && n.f = -1),
   smp 7 { r0 with image := ruleImg 1 5 2 1 1 1 0 7 0 0 } (fun n _ => n.holds),
   (let s := { s0 with sn := { s0.sn with inputs := [0, 660] } }
    nx (exec (.sentinelSample [0, 660]) s) fun t => t.sn.trip && t.killState = 0xFF && t.host.alert.testBit 10 && (List.range 49).all fun d => (t.dom (d + 1)).reset_)] : List Bool)).all id = true := by
  decide +kernel

/-! ### Start-up, flash and security -/

/-- Flash device 1 with bytes at an address and a queue; the mailbox of the queue's head waits in service. -/
def fl (bs : List (Nat × List Byte)) (q : List FlOp) (s : State := s0) : State :=
  { s with boot := { s.boot with cs1 := bs.foldl (fun m p => Mem.writeBytes 0xFF m p.1 p.2) [], q1 := q },
           mbs := s.mbs.put 3 { cmd := 0x5AB1, state := 2 } }

theorem witness_FlashCommands : ((
  let er (cs off len : Nat) (f : State → State := id) : State := f (call 3 0xB0 (le [(1, cs), (3, 0), (4, off), (4, len)]) s0)
  let rom (s : State) : State := { s with boot := { s.boot with dev := 0 } }
  let host (s : State) : State := { s with host := { s.host with pf0 := { s.host.pf0 with bme := true }, mem := [(0x5001, 0x77)] } }
  let pg (src off a : Nat) : State := host (rom (call 3 0xB1 (le [(1, 1), (1, src), (2, 0), (4, off), (4, 3), (4, 0), (8, a)]) s0))
  let rd (off len : Nat) : State := call 3 0xB2 (le [(1, 1), (3, 0), (4, off), (2, len)]) s0
  let one : FlOp := { off := 0x2300FE, data := [1, 2, 3], blank := true, mb := some 3 }
  let st (len : Nat) (f : Boot → Boot := id) : State :=
    let s := call 3 0x60 (le [(1, 0), (3, 0), (4, len), (8, 0x5000)]) s0
    { s with boot := f { s.boot with running := some 1 }, host := { s.host with pf0 := { s.host.pf0 with bme := true }, mem := [(0x5015, 16)] } }
  let tr (cm : Nat) (f : Boot → Boot := id) : State :=
    let s := call 3 cm [] s0
    { s with boot := f { s.boot with trial := true, running := some 1, prevSlot := 0, confAt := some 9, image := { svn := 7, raise := true } } }
  [(let s := er 1 0x300000 8192 rom
    served s 3 0xB0 12 [(0, 1), (4, 4), (8, 4)] && s.flClosed 1 0x300000 8192 = false && nx (exec (.flashErase 3) s) fun t =>
      (t.mb 3).state = 2 && t.flQ 1 = [{ off := 0x300000, erase := 2, mb := some 3 }]),
   [(2, 0, 4096), (0, 0x1FFF000, 8192), (1, 100, 4096), (1, 4096, 100)].all (fun (cs, off, len) => let s := er cs off len
      nx (exec (.flashErase 3) s) fun t => done s t 3 BAD_ARG [] && t.boot = { s.boot with flStat := BAD_ARG }),
   (let s := er 1 0x100000 4096; s.flClosed 1 0x100000 4096 && nx (exec (.flashErase 3) s) fun t =>
      done s t 3 DENIED [] && t.boot = { s.boot with flStat := DENIED, refuseCnt := 1 }),
   (let s := pg 0 0x300000 0x5000
    served s 3 0xB1 24 [(0, 1), (1, 1), (4, 4), (8, 4), (16, 8)] && !s.flClosed 1 0x300000 3 && nx (exec (.flashProgram 3) s) fun t =>
      (t.mb 3).state = 2 && t.flQ 1 = [{ off := 0x300000, data := [0, 0x77, 0], blank := true, mb := some 3 }]),
   (let s := pg 0 0x300000 0x5000
    let s := { s with host := { s.host with bad := [5] } }
    !s.hostReads 0x5000 3 && nx (exec (.flashProgram 3) s) fun t => done s t 3 BAD_ARG [] && t.flQ 1 = s.flQ 1),
   (let s := rd 0x300000 192
    served s 3 0xB2 10 [(0, 1), (4, 4), (8, 2)] && nx (exec (.flashRead 3) s) fun t =>
      (t.mb 3).state = 2 && t.flQ 1 = [{ off := 0x300000, read := 192, ends := .bytes, mb := some 3 }]),
   (let s := rd 0x3FFFFFF 2; nx (exec (.flashRead 3) s) fun t => done s t 3 BAD_ARG []),
   (let s := fl [(0x2FFFFF, [1, 2]), (0x300FFF, [3, 4])] [{ off := 0x300000, erase := 2 }]
    (s.flMem 1).wf 0xFF && nx (exec (.flashUnitStep 1) s) fun t => t.boot.eraseCnt = 1 && (t.flMem 1).wf 0xFF &&
      t.flBytes 1 0x2FFFFF 2 = [1, 0xFF] && t.flBytes 1 0x300FFF 2 = [0xFF, 4]),
   (let s := fl [(0x2300FE, [0xF0, 0xFF, 9])] [{ one with blank := false, data := [0x3C, 2, 3] }]
    (s.flMem 1).wf 0xFF && nx (exec (.flashUnitStep 1) s) fun t => t.boot.progCnt = 1 && t.flBytes 1 0x2300FE 3 = [0x30, 2, 9] && (t.flQ 1).map (·.pos) = [2]),
   (let s := fl [(0x230100, [0xFE])] [one, { off := 1 }]
    !mbJournalled (s.mb 3).id && nx (exec (.flashUnitStep 1) s) fun t => (t.mb 3).state = 3 && (t.mb 3).status = NOT_BLANK && t.flQ 1 = [{ off := 1 }] &&
      t.flMem 1 = s.flMem 1 && t.boot.progCnt = 0),
   [(0x2300FE, OK), (0x230100, VERIFY_FAIL)].all (fun (a, c) =>
    let s := fl [(0x2300FE, [1, 2]), (a, if c = OK then [1] else [0xFC])] [{ one with pos := 2 }, { off := 1 }]
    nx (exec (.flashUnitStep 1) s) fun t => (t.mb 3).state = 3 && (t.mb 3).status = c && t.flQ 1 = [{ off := 1 }]),
   (let s := fl [(5, [1, 2])] [{ off := 5, read := 4, ends := .bytes, mb := some 3 }]
    nx (exec (.flashUnitStep 1) s) fun t => (t.mb 3).status = OK && t.flQ 1 = [] && (t.mb 3).data = padTo 224 [1, 2, 0xFF, 0xFF]),
   (let s := st 8192
    served s 3 0x60 16 [(0, 1), (4, 4), (8, 8)] && !s.confPending && 8192 = 4096 + fld (s.hostBytes 0x5000 8192) 0x14 4 && nx (exec (.fwStage 3) s) fun t =>
      (t.mb 3).state = 2 && (t.flQ 0).map (fun x => (x.off, x.erase, x.ends)) = [(0, 4096, .stage 0)]),
   (let s := st 8192 fun b => { b with trial := true }; nx (exec (.fwStage 3) s) fun t => done s t 3 DENIED []),
   [4099, 16777217].all (fun n => let s := st n; nx (exec (.fwStage 3) s) fun t => done s t 3 BAD_ARG []),
   (let s := tr 0x62
    served s 3 0x62 0 [] && nx (exec (.fwConfirm 3) s) fun t => !t.boot.trial && t.boot.confAt = none && t.otp.svnFloor = 7 &&
      t.boot.record.map (fun r => (r.active, r.prev, r.trial)) = some (1, 0, false)),
   (let s := tr 0x62 fun b => { b with trial := false }
    nx (exec (.fwConfirm 3) s) fun t => done s t 3 NOT_ACTIVE [] && t.otp = s.otp && t.boot = s.boot),
   (let s := tr 0x63
    served s 3 0x63 0 [] && nx (exec (.fwRevert 3) s) fun t => done s t 3 OK [] && t.st.restarting && t.boot.reverting && !t.boot.trial &&
      t.boot.record.map (fun r => (r.active, r.prev, r.trial)) = some (0, 1, false)),
   (let s := tr 0x63 fun b => { b with trial := false }
    nx (exec (.fwRevert 3) s) fun t => done s t 3 NOT_ACTIVE [] && t.boot = s.boot && t.st = s.st)] : List Bool)).all id = true := by
  decide +kernel

theorem witness_BootCommands : ((
  let b (f : Boot → Boot) : State := { s0 with boot := f s0.boot }
  let low : State := { s0 with pwr := { s0.pwr with doms := [] }, boot := { s0.boot with resetLow := true } }
  let act (t : Nat) (f : Boot → Boot) : State := let s := call 3 0x61 (le [(2, t)]) s0; { s with boot := f s.boot }
  let again (f : Boot → Boot) : State := { s0 with boot := f s0.boot, st := { s0.st with restarting := true } }
  let key : List Byte := [0x50, 0x50, 0x52, 0x56] ++ List.replicate 97 0x21
  [nx (exec (.resetRelease 1) low) (fun t => !t.boot.resetLow && t.boot.bootSel = 1 && t.boot.step = 1 && t.boot.dev = 0 &&
      (low.dom 1).reset_ && (List.range 50).all fun d => !low.domPresent d || !low.railsOk d || !(t.dom d).reset_),
   nx (exec (.bootStep []) (b fun b => { b with step := 1 })) (fun t => t.boot.step = 2),
   nx (exec (.bootStep []) (b fun b => { b with step := 2 })) (fun t => t.boot.step = 3),
   (let s := { b (fun b => { b with step := 2 }) with sec := { s0.sec with latch := true } }
    nx (exec (.bootStep []) s) fun t => t.boot.dev = 3 && t.st.cores = []),
   (let s := b fun b => { b with step := 4 }
    s.slotImage 0 = none && s.slotImage 1 = none && nx (exec (.bootStep []) s) fun t => t.boot.step = 0 && t.boot.running = none),
   nx (exec (.bootStep []) { b (fun b => { b with step := 6 }) with cm := { ctxs := [(0, { state := 1 })] } }) (fun t => t.boot.dev = 2 && t.boot.step = 0 && t.otp = s0.otp && t.sec.kek.isSome),
   (let s := b fun b => { b with step := 5, cs1 := Mem.writeBytes 0xFF [] 0x2200000 (key ++ leBytes 4 3427186324) }
    s.otp.extHash = [] && s.flBytes 1 0x2200000 4 = [0x50, 0x50, 0x52, 0x56] && crc32 (s.flBytes 1 0x2200000 101) = fld (s.flBytes 1 0x2200000 105) 101 4),
   (let s := act 0 fun b => { b with trial := true }
    served s 3 0x61 2 [(0, 2)] && s.fwRuns && s.confPending && nx (exec (.fwActivate 3) s) fun t => done s t 3 DENIED []),
   (let s := act 0 fun b => { b with running := some 0 }
    s.fwRuns && s.slotImage 1 = none && nx (exec (.fwActivate 3) s) fun t => done s t 3 DENIED [] && t.boot.activating = none),
   (let s := act 0 fun b => { b with dev := 0 }
    !s.fwRuns && nx (exec (.fwActivate 3) s) fun t => done s t 3 DENIED [] && t.boot.step = 0),
   nx (exec .confirmationTimeout { b (fun b => { b with trial := true, confAt := some 900, prevSlot := 1 }) with time := 30 }) (fun t =>
      t.time = 1000 && t.st.restarting && t.boot.reverting && t.boot.record.map (fun r => (r.active, r.trial)) = some (1, false)),
   nx (exec .stewardClusterRestart (again fun b => { b with bootSel := 1, dev := 2 })) (fun t => t.boot.dev = 0 && t.boot.running = none && t.st.cores = [] && !t.st.restarting),
   nx (exec .stewardClusterRestart (again fun b => { b with dev := 2, reverting := true })) (fun t => t.boot.dev = 0 && t.boot.running = none && t.st.cores = []),
   (again fun b => { b with activating := some 1 }).boot.activating = some 1] : List Bool)).all id = true := by
  decide +kernel

theorem witness_SecurityCommands : ((
  let kl (ky : Nat) (f : Sec → Sec := id) : State := let s := call 3 0x71 (le [(2, ky), (6, 0), (40, 5)]) s0; { s with sec := f s.sec }
  let ch (f : Sec → Sec := id) : State := let s := call 3 0x70 (le [(1, 0)]) s0; { s with sec := f s.sec }
  let an (f : Sec → Sec) : State := let s := call 3 0x70 (le [(1, 1), (7, 0), (96, 5)]) s0; { s with sec := f s.sec }
  [(let s := kl 0; s.domOn 2 && served s 3 0x71 48 [(0, 2), (8, 40)] && nx (exec (.keyLoad 3) s) fun t => done s t 3 BAD_ARG [] && t.sec.keys = []),
   (let s := kl 5; served s 3 0x71 48 [(0, 2), (8, 40)] && nx (exec (.keyLoad 3) s) fun t => done s t 3 DENIED [] && t.sec.keys = []),
   (let s := kl 5 fun x => { x with kek := some [], latch := true }; nx (exec (.keyLoad 3) s) fun t => done s t 3 DENIED [] && t.sec.keys = []),
   (let s := kl 5 fun x => { x with kek := some [1] }; served s 3 0x71 48 [(0, 2), (8, 40)] && s.sec.kek = some [1] && !s.sec.latch),
   (let s := ch fun x => { x with entropyBad := true }; served s 3 0x70 1 [(0, 1)] && nx (exec (.tamperClearChallenge 3) s) fun t => done s t 3 DENIED [] && t.sec = s.sec),
   (let s := ch; served s 3 0x70 1 [(0, 1)] && nx (exec (.tamperClearChallenge 3) s) fun t => (t.mb 3).state = 3 && (t.mb 3).status = OK && t.sec.drbg = 1),
   (let s := an id; served s 3 0x70 104 [(0, 1), (8, 96)] && nx (exec (.tamperClearAnswer 3) s) fun t => done s t 3 NOT_ACTIVE [] && t.sec = s.sec),
   (let s := an fun x => { x with nonce := some [4] }; nx (exec (.tamperClearAnswer 3) s) fun t => done s t 3 NOT_ACTIVE [] && t.sec.nonce = none),
   (let s := an fun x => { x with latch := true }; nx (exec (.tamperClearAnswer 3) s) fun t => done s t 3 NOT_ACTIVE []),
   (let s := an fun x => { x with latch := true, nonce := some [4], fails := 8 }
    nx (exec (.tamperClearAnswer 3) s) fun t => done s t 3 DENIED [] && t.sec = { s.sec with nonce := none }),
   (let s := an fun x => { x with latch := true, nonce := some [4], fails := 7 }; served s 3 0x70 104 [(0, 1), (8, 96)] && s.sec.nonce = some [4]),
   [(0, 0x3F), (5, 0x3F), (6, 0)].all (fun (k, cfg) =>
    let s := { s0 with sec := { s0.sec with tmpCfg := cfg, kek := some [], keys := [(4, [1])], nonce := some [2], src := 8, cnt := 0xFFFFFFFF }, boot := { s0.boot with step := 4, dev := 1 } }
    nx (exec (.tamperAlarm k) s) fun t => t.sec.latch && t.sec.kek = none && t.sec.keys = [] && t.sec.nonce = none && t.sec.src = 8 ||| 2 ^ k &&
      t.sec.cnt = 0xFFFFFFFF && t.host.alert.testBit 9 && t.time = s.time && t.boot.dev = 3 && t.st.cores = []),
   [0, 5].all (fun k => let s := { s0 with sec := { s0.sec with tmpCfg := 0x1E } }; nx (exec (.tamperAlarm k) s) fun t => t = s),
   nx (exec .entropyFailure s0) (fun t => t.sec.entropyBad && t = { s0 with sec := { s0.sec with entropyBad := true }, rcd := t.rcd })] : List Bool)).all id = true := by
  decide +kernel

/-! ### The recorder, the ledger, repairs -/

theorem witness_RecorderCommands : ((
  let r (f : Recorder → Recorder) (s : State := s0) : State := { s with rcd := f s.rcd, time := 9000 }
  let old : EvRec := { seq := 4, ver := 6, code := 0x8003, cls := 2, inst := 1, time := 40, arg := 8 }
  let ev : EvReq := { code := 0x8003, cls := 2, inst := 1, arg := 8, alert := true, time := 600, coarse := true, extra := (0x61, 7) }
  let five (x : Recorder) : Recorder := { x with ring := [(4, old)], next := 5, held := 5 }
  let rd (i c : Nat) (f : Recorder → Recorder) : State := r f (call 3 0x81 (le [(2, i), (1, c)]) s0)
  let go (n : Nat) : State := r (fun x => { x with intake := List.replicate n ev })
    { s0 with regs := [(regKey (.io 0) 0x7004, 0xA1237FFF), (regKey (.io 0) 0x7005, 1), (regKey (.io 0) 0x7006, 5), (regKey (.io 0) 0x7007, 6)] }
  let alerts (t : State) : Bool := t.host.alert.testBit 13 && t.host.bmcAlert.testBit 13
  [(let s := rd 6 1 five; served s 3 0x81 3 [(0, 2), (2, 1)] && nx (exec (.eventsRead 3) s) fun t => done s t 3 BAD_ARG [] && t.rcd = s.rcd),
   (let s := rd 5 6 five; nx (exec (.eventsRead 3) s) fun t => done s t 3 OK [0, 0, 5, 0, 0, 0, 0, 0] && t.rcd = s.rcd),
   (let s := rd 4 1 five; nx (exec (.eventsRead 3) s) fun t => done s t 3 OK ([1, 0, 5, 0, 0, 0, 0, 0] ++ old.bytes) && t.rcd = s.rcd),
   (let s := rd 0 6 five; nx (exec (.eventsRead 3) s) fun t => done s t 3 OK ([5, 0, 5, 0, 0, 0, 0, 0] ++ zeros 128 ++ old.bytes)),
   (let s := rd 65535 2 fun x => { five x with held := 4096, next := 2 ^ 24 - 1 + 1 - 2 ^ 24 }
    nx (exec (.eventsRead 3) s) fun t => done s t 3 OK ([1, 0, 0, 0, 0, 0, 0, 0] ++ zeros 32)),
   nx (exec .evrGo (go 63)) (fun t => t.rcd.intake.length = 64 && t.rcd.intake.getLast? = some { code := 0x7FFF, inst := 0x123, cls := 0xA, alert := true, time := 9000, arg := 0x600000005 }),
   nx (exec .evrGo (go 64)) (fun t => t.rcd = { (go 64).rcd with lostCnt := 1, lostPend := 1 }),
   (let x : EvReq := { ev with time := 9000, cls := 0xB }
    let s := { go 0 with rcd := { (go 0).rcd with intake := [ev, { x with cls := 1 }, { x with cls := 0xA, inst := 0x123 }, x] } }
    nx (exec .evrGo s) fun t => t.rcd.intake.map (·.cls) = [2, 1, 0xA, 0xA, 0xB] && t.rcd.intake.map (·.inst) = [1, 1, 0x123, 0x123, 1]),
   (let x : EvReq := { ev with time := 9000, cls := 0xB }
    let s := { go 0 with rcd := { (go 0).rcd with intake := List.replicate 64 x } }
    nx (exec .evrGo s) fun t => t.rcd.intake.length = 64 && (t.rcd.intake.head?.map (·.cls)) = some 0xA && t.rcd.lostCnt = 1),
   nx (exec (.evrRdIdxWrite 0x1FFF) (r fun x => { x with rdWord := 3 })) (fun t => t.rcd.rdIdx = 0xFFF && t.rcd.rdWord = 0),
   nx (exec .evrRdDataRead (r fun x => { x with rdWord := 7 })) (fun t => t.rcd.rdWord = 0),
   (let s := r fun x => { five x with intake := [ev, ev] }
    Tbl.find s.rcd.ring s.rcd.lastSlot = some old && nx (exec .eventRecordIntake s) fun t => t.rcd.intake = [ev] && t.rcd.ring = s.rcd.ring && t.rcd.next = 5 &&
      t.rcd.chg = some { old with rep := 1, coarse2 := true, last := 2 } && alerts t),
   [{ ev with cls := 3 }, { ev with inst := 2 }, { ev with code := 5 }, { ev with arg := 9 }].all (fun e =>
    let s := r fun x => { five x with intake := [e] }
    nx (exec .eventRecordIntake s) fun t => t.rcd.intake = [] && t.rcd.next = 6 && t.rcd.held = 6 && alerts t &&
      (Tbl.find t.rcd.ring 5).any fun x => x.seq = 5 && x.code = e.code && x.cls = e.cls && x.inst = e.inst && x.arg = e.arg && x.extra = (0x61, 7) && x.time = 600 && x.rep = 0 && x.alert),
   (let s := r fun x => { five x with ring := [(4, { old with rep := 0xFFFF })], intake := [ev] }
    nx (exec .eventRecordIntake s) fun t => t.rcd.next = 6),
   (let s := r fun x => { x with intake := [ev], takeAt := 9876 }
    nx (exec .eventRecordIntake s) fun t => t.time = max s.time 9876 && t.rcd.takeAt = (if t.fabricRuns then t.time + 1 else (t.time / 500 + 1) * 500)),
   (let s := r fun x => { x with intake := [{ ev with alert := false }], lostPend := 7, next := 2 ^ 24 - 1 }
    nx (exec .eventRecordIntake s) fun t => (Tbl.find t.rcd.ring 4095).map (fun x => (x.code, x.arg, x.alert)) = some (0x8011, 7, true) && t.rcd.lostPend = 0 &&
      (Tbl.find t.rcd.ring 0).map (fun x => (x.code, x.arg)) = some (0x8003, 8) && t.host.alert.testBit 13),
   (let s := r fun x => { five x with chg := some { old with rep := 3, ver := 254 }, chgAt := 10000 }
    nx (exec .recordChangeApply s) fun t => t.time = 10000 && t.rcd = { s.rcd with ring := [(4, { old with rep := 3, ver := 0 })], chg := none, chgAt := 110000 })] : List Bool)).all id = true := by
  decide +kernel

theorem witness_LedgerAndRepairs : ((
  let lr (k o n : Nat) : State := call 3 0x80 (le [(1, k), (3, 0), (4, o), (2, n)]) { s0 with led := { s0.led with tot := [(11, 77)], cycles := 3 } }
  let fw (s : State) : State := { s with boot := { s.boot with dev := 2 }, time := 60 }
  let warn (q : List FlOp) : State := fw { s0 with boot := { s0.boot with q1 := q } }
  let pat (f : Patrol → Patrol) : State := fw { s0 with pat := f s0.pat }
  let live (pe : Nat) (f : Pe → Pe := id) : State :=
    { s0 with pes := s0.pes.put pe (f { s0.pe pe with ready := [fr 1 2 3], retired := [9] }) }
  let job (x : Job) : State :=
    { live 5 with cm := { s0.cm with blocks := [(4, blk (wd 1 2 0 0))], jobs := [(1, x)], ctxs := [(7, { block := 4, state := 1, job := 1 })] } }
  [(let s := lr 6 88 8; served s 3 0x80 10 [(0, 1), (4, 4), (8, 2)] && nx (exec (.ledgerRead 3) s) fun t => done s t 3 OK [77, 0, 0, 0, 0, 0, 0, 0]),
   (let s := lr 0 4 4; nx (exec (.ledgerRead 3) s) fun t => done s t 3 OK [3, 0, 0, 0]),
   [(7, 0, 1), (3, 19, 2)].all (fun (k, o, n) => let s := lr k o n; nx (exec (.ledgerRead 3) s) fun t => done s t 3 BAD_ARG []),
   (let s := fw { s0 with led := { s0.led with snapAt := some 500, seq := 4095 } }
    s.fwRuns && nx (exec .ledgerSnapshot s) fun t => t.time = 500 && t.led.snapAt = some 1200000000500 && t.led.seq = 4096 && t.led.snapTime = 500 &&
      (t.flQ 1).map (fun x => (x.off, x.ledger, x.erase)) = [(0x200000, true, 0), (0x200000 + 16384, false, 2)]),
   (let s := warn [{ off := 7 }]; s.fwRuns && nx (exec .pwrWarn s) fun t => t.led.seq = 1 && (t.flQ 1).map (fun x => (x.off, x.ledger, x.erase)) =
      [(0x202000, true, 0), (7, false, 0), (0x206000, false, 2)]),
   (let s := warn [{ off := 7 }, { off := 8, ledger := true }]; nx (exec .pwrWarn s) fun t => t.led = s.led && (t.flQ 1).map (·.off) = [8, 7]),
   (let s := pat id; s.fwRuns && s.ioReg 0x7150 24 % 65536 ≠ 0 && nx (exec (.patrolUnit false none) s) fun t => (t.pat.target, t.pat.unit, t.pat.done) = (0, 1, 1)),
   [(0, 1048575, (1, 0, 6)), (2, 16383, (3, 0, 6)), (3, 8191, (0, 0, 0))].all (fun (k, u, x) => let s := pat fun p => { p with target := k, unit := u, done := 5 }
      nx (exec (.patrolUnit false none) s) fun t => (t.pat.target, t.pat.unit, t.pat.done) = x),
   (let s := pat fun p => { p with flagged := [(1, 5), (0, 2)], unit := 8 }
    nx (exec (.patrolUnit false none) s) fun t => t.pat.flagged = [(0, 2)] && t.pat.target = 0 && t.pat.unit = 8),
   (let s := pat fun p => { p with unit := 5 * 16384 + 17 }
    s.patOpen 0 s.pat.unit && s.physOf 5 = 5 && (s.pe 5).ways 17 = [] && nx (exec (.patrolUnit true none) s) fun t =>
      (t.pe 5).retired = [17] && t.pat.retired = 1 && Tbl.get 0 t.led.tot 4 = 1),
   (let s := pat fun p => { p with unit := 5 * 16384 + 17 }
    let s := { s with pes := s.pes.put 5 { ents := [(8 * 17, { tok := {} }), (8 * 18, { tok := {} })] } }
    nx (exec (.patrolUnit false none) s) fun t => (t.pe 5).ents.map (·.1) = [8 * 18] && (t.pe 5).spill.length = 1 && t.pat.unit = 5 * 16384 + 18),
   (let up (v : Upset) (s : State) : State := outS (exec (.patrolUnit false (some v)) { s with regs := [(regKey (.io 1) 0x7150, 0)] })
    let site : State := { s0 with sites := [(9, { bound := true, first := 8, lanes := 1 })] }
    Tbl.get 0 ((up (.cell 5 3 2) s0).pe 5).summary 3 = 255 && ((up (.tally 1 4 2) s0).tu 1 |>.space 4).ovf &&
      ((up (.fail 8 1) { s0 with cus := [(8, { fifo := [{}, { value := 5 }, {}] })] }).cu 8).fifo = [{}, {}] &&
      [Upset.table 9 2, .burst 9].all (fun v => let t := up v site; (t.site 9).halted && (t.site 9).bad) &&
      Tbl.find (up (.context 6 2) { s0 with cm := { s0.cm with cache := [(6, (70, false))] } }).cm.cache 6 = none &&
      ((stw 0).core 1).fetch.isSome && ((up (.iword 1 0x1000 2) (stw 0)).core 1).fetch = none && (up (.dword 1 0x84 2) s0).badPriv 1 0x84 1 &&
      (Tbl.find (up (.record 4 2) { s0 with rcd := { s0.rcd with ring := [(4, { seq := 4, cls := 3, code := 9 })] } }).rcd.ring 4).map (fun e => (e.code, e.cls, e.seq)) =
        some (0x800C, 0, 4)),
   (let s := live 5; isAlone s && s.peFitted 5 && s.logOf 5 = some 5 && nx (exec (.peFailure 5 2) s) fun t => (t.pe 5).failed && (t.pe 5).ready = [] && (t.pe 5).retired = [9] &&
      (s.spareFor 5).isSome && some (Tbl.get 5 t.pat.lmap 5) = s.spareFor 5 && t.pat.lost = [] && (t.dom (quadDom (Tbl.get 5 t.pat.lmap 5))).wake),
   (let dead : Pe := { failed := true }
    let s := { live 5 with pes := [(64, dead), (65, dead), (66, dead), (67, dead)] }
    isAlone s && s.spareFor 5 = none && nx (exec (.peFailure 5 2) s) fun t => t.pat.lost = [5] && t.pat.lmap = s.pat.lmap),
   (let s := job { block := 4, root := 7 }
    isAlone s && s.ctxsOn 1 5 = [7] && nx (exec (.peFailure 5 2) s) fun t => t.cm.killQ.map (fun q => (q.job, q.end_, q.cause, q.fault)) = [(1, 3, 0x41, [7])]),
   (let s := live 64; s.peFitted 64 && s.logOf 64 = none && nx (exec (.peFailure 64 2) s) fun t => (t.pe 64).failed && t.pat = s.pat && t.cm = s.cm)] : List Bool)).all id = true := by
  decide +kernel

/-! ### The whole block -/

theorem witness_StepRunsFront : ((
  let s := { s0 with pending := [.frefReturn, .aoTick], pwr := { s0.pwr with fref := false } }
  let d : State := { s0 with ddr := [(5, 6)], shelf := [(7, 8)], boot := { s0.boot with cs1 := [(9, 0)] }, pending := [.frefReturn] }
  [nx (step s) fun t => t.pending = [.aoTick] && t.pwr.fref,
   s0.pending = [] && s0.fabricRuns && nx (step s0) fun t => t.time = 1 && t = { s0 with time := 1, pair := { s0.pair with jrnlHold := t.pair.jrnlHold } },
   { s with pending := [] }.fabricRuns = false && nx (step { s with pending := [] }) fun t => t = { s with pending := [] },
   (d.memsWf : Bool) && nx (step d) fun t => (t.memsWf : Bool) && t.ddr = [(5, 6)],
   (Instr.frefReturn.controlParts.isSome || Instr.frefReturn.flowParts.isSome || Instr.frefReturn.stores = []) && (Instr.outletBankSwap 3).flowParts = some [.outlets] && (Instr.outletBankSwap 3).stores = [],
   nx (exec (.outletBankSwap 3) s0) fun t => t.lanes = s0.lanes && t.cm = s0.cm && t.ddr = s0.ddr,
   (Instr.pairStatus 3).controlParts = some [.mbs, .host, .i3c, .pair, .pwr] && nx (exec (.pairStatus 3) (call 3 0x95 [] s0)) fun t => t.cm = s0.cm && t.regs = s0.regs] : List Bool)).all id = true := by
  decide +kernel

/-! ### The manual's worked examples -/

/-- Table of chapter 02, *packing a token*. -/
theorem test_token_examples : ((
  let t : Tok := { ctx := 0x02A31, act := 0x01C5, iter := 0x137, port := 1, value := 9, flow := 0x011, grp := 1 }
  [t.tag = 0x02A31071400004DD && t.attr = 0x0448 && t.image18 = [0xDD, 4, 0, 0x40, 0x71, 0x10, 0xA3, 2, 9, 0, 0, 0, 0, 0, 0, 0, 0x48, 4],
   crc16 ([0x31, 0x32, 0x33, 0x34, 0x35, 0x36, 0x37, 0x38, 0x39]) = 0xD0DB,
   (let p : PeSet := { members := 0x7700, shift := 4, mode := 0 }
    p.pick 0x0A5C3F0 = 12 && { p with mode := 1 }.pick 0x0A5C3F0 = 8 && p.pick 0x0A5C3FF = 12),
   (let w := 0x28A048C049120003
    wOpc w = 0x28 && wArity w = 2 && wImmSel w = 2 && wDst0 w = 0x123 && wPort0 w = 0 && wDst1 w = 0x124 && wPort1 w = 1 && wGrp w = 1 && !wFk w && wImm16 w = 3)] : List Bool)).all id = true := by
  decide +kernel

/-- *A guarded admission that waits* (chapter 03) and *must-repair lines on one space* (chapter 05). -/
theorem test_count_examples : ((
  let t0 : Tally := { spaces := [(4, { rs := 2, cs := 1 })] }
  let adds := [(0x1A0, 0x05), (0x1A0, 0x11), (0x1A0, 0x05), (0x033, 0x11), (0x077, 0x11), (0x0C2, 0x11)]
  let run := adds.foldl (fun (p : List Nat × Tally) a => let q := p.2.add 4 a.1 a.2; (p.1 ++ [q.1], q.2)) ([], t0)
  [(let s := { s0 with regs := [(regKey (.io 0) 0xD800, 0x115)], pes := [(23, { retired := [1, 2, 3] })] }
    s.nOpen = 2031616 && s.cDie = 131048 && s.admLimit = 1763551),
   run.1 = [0x10001, 0x100010002, 0x900010002, 0x20001, 0x200030001, 0x200040001] &&
    run.2.cells.length = 5 && run.2.rows.length = 4 && run.2.cols.length = 2 && run.2.scan 4 0 % 2 ^ 32 = 0x1A0 && run.2.scan 4 0x10000 % 2 ^ 32 = 0x11,
   wearIndex [(24 * 3 + 17, 30000 * 3600 * 100000), (24 * 3 + 20, 13800 * 3600 * 100000)] [(7, 43800 * 3600 * 100000)] = (0x13B2, 3)] : List Bool)).all id = true := by
  decide +kernel

/-- *One fail from the march* (chapter 08). -/
theorem test_fail_example : ((
  let a := 2 * 2 ^ 40 + 5 * 2 ^ 24 + 0xA3
  let s := { s0 with sites := [(40, { bound := true, first := 40, lanes := 1 })], cus := [(40, { destSet := true, destCtx := 0x412, destAct := 0x31, destGrp := 1 })] }
  let f := s.failTok 40 40 0x65A8 0x48120200050000A3
  [mismatchValues 16 [(2, a)] (2 ^ 147 + 2 ^ 150) = [0x4812020005 * 2 ^ 24 + 0x0000A3],
   f.tag = 0x0041200C400196A0 && f.attr = 0x5009 && f.image18 = [0xA0, 0x96, 1, 0x40, 0x0C, 0x20, 0x41, 0, 0xA3, 0, 0, 5, 0, 2, 0x12, 0x48, 9, 0x50] && f.crcOk] : List Bool)).all id = true := by
  decide +kernel

/-- *An exception with a corrupt stack pointer* (chapter 11). -/
theorem test_stack_example : ((
  let s := stw (0x0E * 2 ^ 26 + 4 * 2 ^ 22 + 2 * 2 ^ 18) fun c =>
    { g23 0x20000000 0 c with pc := 0x1000, psw := 0xB, cur := 5, stkLo := 0x1E000, stkHi := 0x20000, g := putG (g23 0x20000000 0 c).g 14 0x1F002,
                              tasks := [(5, { state := 3, ctl := 12 })] }
  [s.psw 1 = 0x5C0B && nx (exec (.lw 1) s) fun t => t.psw 1 = 0x5C0D && (t.core 1).pc = 4 &&
    Mem.readBytes 0 (t.core 1).priv 0x40 32 = [0x1000, 0x5C0B, 6, 0x20000000, 0x1F002, 0x1E000, 0x20000, 5].flatMap (leBytes 4)] : List Bool)).all id = true := by
  decide +kernel

/-- *Rule 0 on a heating step* (chapter 14): the sample at 40 µs. -/
theorem test_heating_example : ((
  let run (l : List Int) (r : SnRule) : List (Int × Bool) := (l.foldl (fun (p : List (Int × Bool) × SnRule) x => let q := p.2.step x; (p.1 ++ [(q.f, q.own)], q)) ([], r)).1
  [run [608, 608, 608, 608, 608, 608, 570, 570, 570, 570, 570] { image := snDefault0, hist := [560, 560, 560, 560] } =
    [(572, false), (584, false), (596, false), (608, false), (608, true), (608, true), (598, true), (589, true), (579, true), (570, true), (570, false)],
   (let s := { s0 with sn := { s0.sn with rules := [(0, { image := snDefault0, hist := [608, 608, 608, 560], meets := 2 })] } }
    nx (exec (.sentinelSample ((List.range 98).map fun i => if i = 7 then 608 else 0)) s) fun t => (t.rule 0).holds && t.sn.alertN && t.host.alert.testBit 10 &&
      t.arb.map (fun w => w.cmds.map (·.what)) = [[.snThrottle 4]])] : List Bool)).all id = true := by
  decide +kernel

/-- *A budget for heavy playback* (chapter 10): the stored-vector share alone to 308 is refused. -/
theorem test_budget_example : ((
  [nx (exec (.ddrShareWrite 0 308) s0) fun t => t.budgetRefused && t.regs = s0.regs] : List Bool)).all id = true := by
  decide +kernel

/-! ### Ill-formed commands -/

/-- One term at the limit, and one just under it, for each kind of check. -/
theorem test_wellformed_refuses : ((
  let ok (l : List (Instr × Instr)) : Bool := l.all fun p => p.1.wf && !p.2.wf
  [ok [(.tokenEnqueue 67, .tokenEnqueue 68), (.firingIssue 0 1, .firingIssue 0 2), (.istructRequest 7, .istructRequest 8),
       (.atomicService 8 2, .atomicService 9 2), (.atomicService 8 2, .atomicService 8 3), (.cohortCopy 15, .cohortCopy 16), (.laneBurst 15, .laneBurst 16),
       (.laneBranch 127, .laneBranch 128), (.outletAppendAccept 1 3, .outletAppendAccept 2 3), (.outletAppendAccept 1 3, .outletAppendAccept 1 4),
       (.tallySetup 3, .tallySetup 4), (.loadBlock 31, .loadBlock 32), (.laneSend 15, .laneSend 16)],
   ok [(.arbiterWindowClose (.site 127), .arbiterWindowClose (.site 128)), (.arbiterWindowClose (.domain 49), .arbiterWindowClose (.domain 50)),
       (.arbiterWindowClose (.rule 63), .arbiterWindowClose (.rule 64)), (.killNotice (.pe 67), .killNotice (.pe 68)),
       (.killNotice (.lg 15), .killNotice (.lg 16)), (.contextFreed 0xFFFFF, .contextFreed 0x100000), (.runLimitExpiry 65535, .runLimitExpiry 65536)],
   ok [(.powerPolicyDomain (.mb 31), .powerPolicyDomain (.mb 32)), (.powerPolicyDomain (.port 3 0), .powerPolicyDomain (.port 4 0)),
       (.flashUnitStep 1, .flashUnitStep 2), (.msixPendingSend 1 0, .msixPendingSend 2 0), (.latchingRead (.cfg 1) 0, .latchingRead (.cfg 2) 0),
       (.latchingRead (.io 3) 0, .latchingRead (.io 4) 0), (.latchingRead .bar0 0xFFFFFFFFFFFFFFFF, .latchingRead .bar0 0x10000000000000000),
       (.dcCfgEnable 7 0, .dcCfgEnable 8 0), (.domainTransitionDone 49, .domainTransitionDone 50)],
   ok [(.railBad 15, .railBad 16), (.lrefLoss 3, .lrefLoss 4), (.dpfAssert 7, .dpfAssert 8), (.spareInService 67, .spareInService 68),
       (.shelfAccess 31 2, .shelfAccess 32 2), (.shelfAccess 31 2, .shelfAccess 31 3), (.bridgeLaneLoss 15, .bridgeLaneLoss 16), (.stAdd 3, .stAdd 4), (.playbackRecordFetch 31, .playbackRecordFetch 32),
       (.fretDeadline 127 2, .fretDeadline 127 3), (.fretDeadline 127 2, .fretDeadline 128 2)],
   ok [(.matchDecision 67 (some (131071, .corrected)), .matchDecision 67 (some (131072, .corrected))),
       (.cabinetLookupReturn 67 (some (2 ^ 26 - 1, .tag)), .cabinetLookupReturn 67 (some (2 ^ 26, .tag))),
       (.captReceived 127 15 0 0 0 3, .captReceived 127 16 0 0 0 3), (.captReceived 127 15 0 0 0 3, .captReceived 127 15 0 0 0 4),
       (.outletRecordDrain 1 (some (511, 2 ^ 64 - 1)), .outletRecordDrain 1 (some (512, 1))),
       (.outletRecordDrain 1 (some (511, 2 ^ 64 - 1)), .outletRecordDrain 1 (some (511, 2 ^ 64))),
       (.outletReset 1 4 (2 ^ 32 - 1), .outletReset 1 5 1), (.outletReset 1 4 (2 ^ 32 - 1), .outletReset 1 4 (2 ^ 32)),
       (.ddrScheduleWindow 7 (some (2 ^ 31 - 1, 2)), .ddrScheduleWindow 7 (some (2 ^ 31, 2))),
       (.ddrScheduleWindow 7 (some (5, 2)), .ddrScheduleWindow 7 (some (5, 3))),
       (.uncorrectableCodeword 127 5 544, .uncorrectableCodeword 127 5 545)]] : List Bool)).all id = true := by
  decide +kernel

end Sys2Proof.Tests
end

section
/-! SUPPORT. What a fire half does with the firing it holds (R46 to R48, R114, R148, R187): the firing leaves its slot,
and then its tokens depart or its fault is raised. -/

namespace Sys2Proof.Machine
open Sys2Proof

/-! ### Tokens that depart -/

/-- A state differs from an earlier one by the tokens that a fire half has sent, and by nothing else. -/
structure State.Emitted (s : State) (pe pipe : Nat) (l : List Tok) (t : State) : Prop where
  gone : (t.gone pe pipe).Perm (s.gone pe pipe ++ l)
  others : ∀ q, q ≠ pe → t.pe q = s.pe q
  own : ∃ o, t.pe pe = { s.pe pe with outL := o }
  rest : ∃ p k, t = { s with pes := p, net := { s.net with transit := k } }

theorem State.Emitted.refl (s : State) (pe pipe : Nat) : s.Emitted pe pipe [] s where
  gone := by simp
  others _ _ := rfl
  own := ⟨_, rfl⟩
  rest := ⟨_, _, rfl⟩

theorem State.Emitted.trans {s t u : State} {pe pipe : Nat} {l m : List Tok} (h : s.Emitted pe pipe l t)
    (k : t.Emitted pe pipe m u) : s.Emitted pe pipe (l ++ m) u where
  gone := by simpa [List.append_assoc] using k.gone.trans (h.gone.append_right m)
  others q hq := (k.others q hq).trans (h.others q hq)
  own := by
    obtain ⟨o, ho⟩ := h.own
    obtain ⟨o', ho'⟩ := k.own
    exact ⟨o', by rw [ho', ho]⟩
  rest := by
    obtain ⟨_, _, rfl⟩ := h.rest
    obtain ⟨p, n, rfl⟩ := k.rest
    exact ⟨p, n, rfl⟩

/-- Nothing that a fire half sends changes a code block. -/
theorem State.Emitted.cm {s t : State} {pe pipe : Nat} {l : List Tok} (h : s.Emitted pe pipe l t) : t.cm = s.cm := by
  obtain ⟨_, _, rfl⟩ := h.rest
  rfl

/-- The token network has an urgent and a general channel (R116). -/
theorem chanOf_cases (g : Nat) : chanOf g = 0 ∨ chanOf g = 1 := by
  unfold chanOf
  split <;> simp

/-- A token for the PE itself joins one of its fire half's two local queues. -/
theorem State.emitted_local (s : State) (pe pipe : Nat) {c : Nat} (hc : c = 0 ∨ c = 1) (t : Tok) :
    s.Emitted pe pipe [t]
      (s.updPe pe fun p => { p with outL := p.outL.put (2 * pipe + c) (Tbl.get [] p.outL (2 * pipe + c) ++ [t]) }) where
  gone := by
    obtain rfl | rfl := hc
    · simp only [State.gone, State.updPe_pe, State.updPe_net, if_true, Nat.add_zero, Tbl.get_put, List.append_assoc,
        show 2 * pipe + 1 ≠ 2 * pipe by omega, if_false]
      exact (List.perm_append_comm (l₁ := [t])).append_left _ |>.trans (by simp)
    · simp only [State.gone, State.updPe_pe, State.updPe_net, if_true, Tbl.get_put, List.append_assoc,
        show 2 * pipe ≠ 2 * pipe + 1 by omega, if_false]
      exact ((List.perm_append_comm (l₁ := [t])).append_left _).append_left _
  others q hq := by simp [hq]
  own := ⟨_, by simp; rfl⟩
  rest := ⟨_, _, rfl⟩

/-- A token for another PE enters the token network. -/
theorem State.emitted_send (s : State) (pe pipe c dst : Nat) (t : Tok) :
    s.Emitted pe pipe [t] (s.send 0 c (2 * pe + pipe) (.pe pe) (.pe dst) (.tok t)) where
  gone := by
    have he : (s.send 0 c (2 * pe + pipe) (.pe pe) (.pe dst) (.tok t)).gone pe pipe = s.gone pe pipe ++ [t] := by
      simp only [State.gone, State.send, State.sendChk, State.updNet_net, List.filterMap_append, List.append_assoc]
      simp [State.updNet, State.pe]
    rw [he]
  others _ _ := rfl
  own := ⟨_, rfl⟩
  rest := ⟨_, _, rfl⟩

/-- A token departs by one of the two ways (R20, R69). -/
theorem State.emitted_depart (s : State) (pe pipe : Nat) (f : Firing) (t : Tok)
    (hb : (Tbl.find s.cm.blocks f.block).isSome = true) : s.Emitted pe pipe [t] (s.depart pe pipe f t) := by
  obtain ⟨b, hb⟩ := Option.isSome_iff_exists.mp hb
  simp only [State.depart, hb]
  split
  · exact s.emitted_local pe pipe (chanOf_cases _) t
  · exact s.emitted_send pe pipe _ _ t

theorem State.emitted_emit1 (s : State) (pe pipe : Nat) (f : Firing) (i v : Nat) (p : Bool) (it fl : Nat)
    (hb : (Tbl.find s.cm.blocks f.block).isSome = true) :
    s.Emitted pe pipe (f.result i v p it fl) (s.emit1 pe pipe f i v p it fl) := by
  unfold Firing.result State.emit1
  split
  · exact .refl s pe pipe
  · exact s.emitted_depart pe pipe f _ hb

/-- The results for both destinations are those for each. -/
theorem Firing.results_eq (f : Firing) (v : Nat) (p : Bool) (it fl : Nat) :
    f.results v p it fl = f.result 0 v p it fl ++ f.result 1 v p it fl := by
  unfold Firing.results Firing.result
  rw [show List.range 2 = [0, 1] from rfl]
  by_cases h0 : wDstPort f.word 0 = 3 <;> by_cases h1 : wDstPort f.word 1 = 3 <;> simp [h0, h1]

theorem State.emitted_emitAs (s : State) (pe pipe : Nat) (f : Firing) (v : Nat) (p : Bool) (it fl : Nat)
    (hb : (Tbl.find s.cm.blocks f.block).isSome = true) :
    s.Emitted pe pipe (f.results v p it fl) (s.emitAs pe pipe f v p it fl) := by
  have h0 := s.emitted_emit1 pe pipe f 0 v p it fl hb
  rw [Firing.results_eq]
  exact h0.trans (State.emitted_emit1 _ pe pipe f 1 v p it fl (h0.cm ▸ hb))

/-! ### A firing leaves its slot -/

/-- The state once the firing in a slot of a PE has left it. -/
def State.taken (s : State) (pe slot : Nat) : State := s.updPe pe fun p => { p with fire := p.fire.del slot }

@[simp] theorem State.taken_cm (s : State) (pe slot : Nat) : (s.taken pe slot).cm = s.cm := rfl
@[simp] theorem State.taken_net (s : State) (pe slot : Nat) : (s.taken pe slot).net = s.net := rfl
@[simp] theorem State.taken_maps (s : State) (pe slot : Nat) : (s.taken pe slot).maps = s.maps := rfl
@[simp] theorem State.taken_pe (s : State) (pe slot : Nat) :
    (s.taken pe slot).pe pe = { s.pe pe with fire := (s.pe pe).fire.del slot } := by simp [State.taken]
theorem State.taken_pe_of_ne (s : State) (slot : Nat) {pe q : Nat} (h : q ≠ pe) : (s.taken pe slot).pe q = s.pe q := by
  simp [State.taken, h]
@[simp] theorem State.taken_gone (s : State) (pe slot pipe : Nat) : (s.taken pe slot).gone pe pipe = s.gone pe pipe := by
  simp [State.gone]

/-- A firing that can act is taken out of its slot, and then acts (R114). -/
theorem State.onFire_of_holds {s : State} {pe slot op : Nat} {f : Firing} (h : s.holds pe slot op f)
    (g : Firing → State → State) : s.onFire pe slot op g = g f (s.taken pe slot) := by
  obtain ⟨⟨hdom, hfind, hop, -⟩, hroom⟩ := h
  simp [State.onFire, State.taken, hdom, hfind, hop, hroom]

/-- The block that a firing's tokens are routed by is still resident once the firing has left its slot. -/
theorem State.taken_block {s : State} {pe slot op : Nat} {f : Firing} (h : s.holds pe slot op f) :
    (Tbl.find (s.taken pe slot).cm.blocks f.block).isSome = true := by
  obtain ⟨⟨-, -, -, hb⟩, -⟩ := h
  exact hb

/-- A command that takes a firing out of its slot and then only sends tokens. -/
theorem sends_of_emitted {s t : State} {c : Instr} {pe pipe slot : Nat} {l : List Tok} (hc : exec c s = .next (t.keep s))
    (ht : (s.taken pe slot).Emitted pe pipe l t) : Sends s c pe pipe slot l := by
  obtain ⟨hgone, hothers, ⟨o, hown⟩, hrest⟩ := ht
  have hkeep : t.keep s = t := by
    obtain ⟨_, _, rfl⟩ := hrest
    rfl
  refine ⟨t, hkeep ▸ hc, by simp [hown], by simpa using hgone, fun q hq => ?_, ?_, ?_⟩
  · exact (hothers q hq).trans (s.taken_pe_of_ne slot hq)
  · rw [hown, State.taken_pe]
  · obtain ⟨_, _, rfl⟩ := hrest
    rfl

/-- A held firing whose opcode only sends tokens. -/
theorem sends_of_onFire {s : State} {c : Instr} {pe pipe slot op : Nat} {f : Firing} {g : Firing → State → State} {l : List Tok}
    (h : s.holds pe slot op f) (hc : exec c s = State.plain (State.onFire pe slot op g) s)
    (hg : (s.taken pe slot).Emitted pe pipe l (g f (s.taken pe slot))) : Sends s c pe pipe slot l :=
  sends_of_emitted (by rw [hc, State.plain_eq, State.onFire_of_holds h]) hg

/-- A held firing whose opcode sends a value to both destinations. -/
theorem sends_of_emitAs {s : State} {c : Instr} {pe pipe slot op : Nat} {f : Firing} {g : Firing → State → State} {v : Nat}
    {p : Bool} {it fl : Nat} (h : s.holds pe slot op f) (hc : exec c s = State.plain (State.onFire pe slot op g) s)
    (hg : g f (s.taken pe slot) = (s.taken pe slot).emitAs pe pipe f v p it fl) :
    Sends s c pe pipe slot (f.results v p it fl) :=
  sends_of_onFire h hc (hg ▸ State.emitted_emitAs _ pe pipe f v p it fl (State.taken_block h))

/-- A held firing whose opcode gives one value (R148). -/
theorem gives_of_calc {s : State} {c : Instr} {pe pipe slot op : Nat} {f : Firing} {v : Firing → Nat} {x : Nat}
    (h : s.holds pe slot op f) (hc : exec c s = State.plain (State.calc pe slot pipe op v) s) (hx : v f = x) :
    Gives s c pe pipe slot f x :=
  sends_of_emitAs h hc (by rw [← hx]; rfl)

end Sys2Proof.Machine
end

section
/-! SUPPORT. The values of the comparison, bit, field and lane opcodes as arithmetic on numbers (R153, R157, R180, R181,
R185). -/

namespace Sys2Proof.Machine
open Sys2Proof

/-! ### Bits and signed readings -/

theorem bit_eq_testBit (v i : Nat) : bit v i = v.testBit i := by
  rw [bit, bits, Nat.add_sub_cancel_left, Nat.pow_one, Nat.testBit_eq_decide_div_mod_eq]
  rfl

theorem b2n_eq_ite (b : Bool) : b2n b = if b = true then 1 else 0 := rfl

theorem b2n_mul (b : Bool) (x : Nat) : b2n b * x = if b = true then x else 0 := by
  cases b
  · exact Nat.zero_mul x
  · exact Nat.one_mul x

theorem b2n_bit (v i : Nat) : b2n (bit v i) = v / 2 ^ i % 2 := by
  have : v / 2 ^ i % 2 < 2 := Nat.mod_lt _ (by decide)
  rw [bit_eq_testBit, Nat.testBit_eq_decide_div_mod_eq, b2n_eq_ite]
  simp only [decide_eq_true_eq]
  split <;> omega

/-- The signed reading of a number's low bits is that of the machine word of that width. -/
theorem sext_eq_toInt (w v : Nat) : sext (w + 1) v = (BitVec.ofNat (w + 1) v).toInt := by
  have hw : 2 ^ (w + 1) = 2 * 2 ^ w := by rw [Nat.pow_succ, Nat.mul_comm]
  simp only [sext, BitVec.toInt_eq_toNat_cond, BitVec.toNat_ofNat, Nat.add_sub_cancel]
  by_cases h : v % 2 ^ (w + 1) < 2 ^ w
  · rw [if_pos h, if_pos (by omega)]
  · rw [if_neg h, if_neg (by omega)]
    norm_cast

theorem ltS_eq_toInt (f : Firing) : ltS 64 f.va f.vb = decide (f.xa.toInt < f.xb.toInt) := by
  rw [ltS, sext_eq_toInt 63, sext_eq_toInt 63]
  rfl

theorem leS_eq_toInt (f : Firing) : leS 64 f.va f.vb = decide (f.xa.toInt ≤ f.xb.toInt) := by
  rw [leS, sext_eq_toInt 63, sext_eq_toInt 63]
  rfl

theorem setBitsOf_eq_filter (n v : Nat) : setBitsOf n v = (List.range n).filter v.testBit := by
  simp [setBitsOf, bit_eq_testBit]

theorem popcount_eq_countP (n v : Nat) : popcount n v = (List.range n).countP v.testBit := by
  rw [popcount, setBitsOf_eq_filter, List.countP_eq_length_filter]

/-! ### Operands are words -/

theorem Firing.va_lt (f : Firing) : f.va < 2 ^ 64 := by
  unfold Firing.va
  split
  · exact BitVec.isLt _
  · split
    · exact Nat.mod_lt _ (by decide)
    · decide

/-- A modifier is 16 bits wide (R58). -/
theorem wMod_lt (w : Nat) : wMod w < 2 ^ 16 := by
  unfold wMod
  split
  · exact Nat.mod_lt _ (by decide)
  · decide

/-! ### Set bits (R180) -/

/-- FFS with modifier bit 0 set: the index is that of a set bit, and no set bit lies above it. -/
theorem firstSet_high {a : Nat} (h : a ≠ 0) :
    a.testBit (firstSet true a) = true ∧ ∀ j, a.testBit j = true → j ≤ firstSet true a := by
  rw [show firstSet true a = a.log2 by simp [firstSet, h]]
  exact ⟨Nat.testBit_log2 h, fun j hj => (Nat.le_log2 h).mpr (Nat.ge_two_pow_of_testBit hj)⟩

/-- FFS with modifier bit 0 clear: the index is that of a set bit, and no set bit lies below it. -/
theorem firstSet_low {a : Nat} (h : a ≠ 0) (ha : a < 2 ^ 64) :
    a.testBit (firstSet false a) = true ∧ ∀ j, a.testBit j = true → firstSet false a ≤ j := by
  have hmem (j : Nat) (hj : a.testBit j = true) : j ∈ (List.range 64).filter a.testBit := by
    have : j < 64 := (Nat.pow_lt_pow_iff_right (by decide)).mp (Nat.lt_of_le_of_lt (Nat.ge_two_pow_of_testBit hj) ha)
    simp [this, hj]
  have hsorted : ((List.range 64).filter a.testBit).Pairwise (· < ·) := List.pairwise_lt_range.filter _
  have hset : ∀ i ∈ (List.range 64).filter a.testBit, a.testBit i = true := fun i hi => (List.mem_filter.mp hi).2
  rw [show firstSet false a = ((List.range 64).filter a.testBit).headD 64 by simp [firstSet, h, setBitsOf_eq_filter]]
  generalize (List.range 64).filter a.testBit = l at hmem hsorted hset
  cases l with
  | nil => exact absurd (hmem _ (Nat.testBit_log2 h)) (by simp)
  | cons i r =>
    refine ⟨hset i (by simp), fun j hj => ?_⟩
    obtain rfl | hj := List.mem_cons.mp (hmem j hj)
    · exact Nat.le_refl _
    · exact Nat.le_of_lt (List.rel_of_pairwise_cons hsorted hj)

/-- FFS finds the lowest or the highest set bit, by modifier bit 0. -/
theorem firstSet_first {a : Nat} (m : Nat) (h : a ≠ 0) (ha : a < 2 ^ 64) :
    a.testBit (firstSet (bit m 0) a) = true ∧
      ∀ j, a.testBit j = true → if m % 2 = 0 then firstSet (bit m 0) a ≤ j else j ≤ firstSet (bit m 0) a := by
  by_cases hm : m % 2 = 0
  · simpa only [show bit m 0 = false by simp [bit_eq_testBit, hm], if_pos hm] using firstSet_low h ha
  · simpa only [show bit m 0 = true by simpa [bit_eq_testBit] using hm, if_neg hm] using firstSet_high h

/-- A fold that numbers the entries it adds up. -/
theorem foldl_numbered (g : Nat → Nat → Nat) (l : List Nat) (a k : Nat) :
    (l.foldl (fun (x : Nat × Nat) i => (x.1 + g x.2 i, x.2 + 1)) (a, k)).1 =
      a + (l.mapIdx fun j i => g (k + j) i).sum := by
  induction l generalizing a k with
  | nil => simp
  | cons i r ih => simp [ih, List.mapIdx_cons, Nat.add_assoc, Nat.add_comm 1]

theorem scatter_eq_sum (a b : Nat) : scatter a b =
    (((List.range 64).filter b.testBit).mapIdx fun k i => if a.testBit k then 2 ^ i else 0).sum := by
  rw [scatter, foldl_numbered (fun k i => b2n (bit a k) * 2 ^ i), setBitsOf_eq_filter]
  simp only [bit_eq_testBit, b2n_mul, Nat.zero_add]

theorem gather_eq_sum (a b : Nat) : gather a b =
    (((List.range 64).filter b.testBit).mapIdx fun k i => if a.testBit i then 2 ^ k else 0).sum := by
  rw [gather, foldl_numbered (fun k i => b2n (bit a i) * 2 ^ k), setBitsOf_eq_filter]
  simp only [bit_eq_testBit, b2n_mul, Nat.zero_add]

/-! ### Fields (R161, R181) -/

theorem unscrambled_eq (sh : Nat) (tab : Tbl Nat) (a : Nat) :
    unscrambled sh tab a = setBits a (sh + 11) sh (Tbl.get 0 tab (a / 2 ^ sh % 4096)) := by
  simp [unscrambled, bits, show sh + 11 + 1 - sh = 12 by omega]

/-- The modifier of GETTAG holds ACT below PORT. -/
theorem wMod_fields (w : Nat) : bits (wMod w) 13 0 = wMod w % 2 ^ 14 ∧ bits (wMod w) 15 14 = wMod w / 2 ^ 14 := by
  have := wMod_lt w
  simp only [bits]
  omega

/-! ### Lanes (R185) -/

/-- A word holds as many lanes as a byte-wide count divides into. -/
theorem laneW_count (m : Nat) : 64 / laneW m = 8 / 2 ^ (m % 4) := by
  rw [laneW, show 64 = 8 * 8 from rfl, Nat.mul_div_mul_left _ _ (by decide)]

theorem lanesOf_eq_lanes (f : Firing) (m : Nat) : lanesOf (laneW m) f.va = f.lanes m := by
  rw [lanesOf, laneW_count]
  rfl

theorem Firing.lanes_ne_nil (f : Firing) (m : Nat) : f.lanes m ≠ [] := by
  have hpow : 2 ^ (m % 4) ≤ 2 ^ 3 := Nat.pow_le_pow_right (by decide) (by omega)
  have hcount : 8 / 2 ^ (m % 4) ≠ 0 := Nat.ne_of_gt (Nat.div_pos hpow (Nat.two_pow_pos _))
  simp [Firing.lanes, hcount]

/-- No lane exceeds the largest word of its width. -/
theorem Firing.le_of_mem_lanes {f : Firing} {m x : Nat} (h : x ∈ f.lanes m) : x ≤ 2 ^ laneW m - 1 := by
  obtain ⟨i, -, rfl⟩ := List.mem_map.mp h
  exact Nat.le_sub_one_of_lt (Nat.mod_lt _ (Nat.two_pow_pos _))

theorem hsum_eq_sum (f : Firing) (m : Nat) : hsum m f.va = (f.lanes m).sum := by
  rw [hsum, lanesOf_eq_lanes, List.sum_eq_foldl]

/-- HMAXU gives the greatest lane. -/
theorem hmaxu_greatest (f : Firing) (m : Nat) : hmaxu m f.va ∈ f.lanes m ∧ ∀ x ∈ f.lanes m, x ≤ hmaxu m f.va := by
  obtain ⟨v, hv⟩ := Option.isSome_iff_exists.mp (List.isSome_max?_of_ne_nil (f.lanes_ne_nil m))
  have hfold : hmaxu m f.va = v := by
    rw [hmaxu, lanesOf_eq_lanes]
    exact List.foldl_max.trans (by rw [hv, Option.getD_some, Nat.zero_max])
  rw [hfold]
  exact List.max?_eq_some_iff.mp hv

/-- HMINU gives the least lane. -/
theorem hminu_least (f : Firing) (m : Nat) : hminu m f.va ∈ f.lanes m ∧ ∀ x ∈ f.lanes m, hminu m f.va ≤ x := by
  obtain ⟨v, hv⟩ := Option.isSome_iff_exists.mp (List.isSome_min?_of_ne_nil (f.lanes_ne_nil m))
  have hleast := List.min?_eq_some_iff.mp hv
  have hfold : hminu m f.va = v := by
    rw [hminu, lanesOf_eq_lanes]
    exact List.foldl_min.trans (by rw [hv, Option.getD_some, Nat.min_eq_right (Firing.le_of_mem_lanes hleast.1)])
  rw [hfold]
  exact hleast

/-- Lanes from place k on are worth the sum of each in its place. -/
theorem ofLanes_map_shifted (w k : Nat) {α : Type} (g : α → Nat) (l : List α) :
    2 ^ (w * k) * ofLanes w (l.map g) = (l.mapIdx fun i x => g x * 2 ^ (w * (k + i))).sum := by
  induction l generalizing k with
  | nil => rfl
  | cons x r ih =>
    calc 2 ^ (w * k) * ofLanes w ((x :: r).map g)
        = g x * 2 ^ (w * k) + 2 ^ (w * (k + 1)) * ofLanes w (r.map g) := by
          simp only [ofLanes, List.map_cons, List.foldr_cons]
          rw [Nat.mul_add, Nat.mul_comm _ (g x), ← Nat.mul_assoc, ← Nat.pow_add, Nat.mul_add w k 1, Nat.mul_one]
      _ = ((x :: r).mapIdx fun i x => g x * 2 ^ (w * (k + i))).sum := by
          simp [ih, List.mapIdx_cons, Nat.add_assoc, Nat.add_comm 1]

/-- The value of a list of lanes is the sum of each in its place. -/
theorem ofLanes_map (w : Nat) {α : Type} (g : α → Nat) (l : List α) :
    ofLanes w (l.map g) = (l.mapIdx fun i x => g x * 2 ^ (w * i)).sum := by
  simpa using ofLanes_map_shifted w 0 g l

/-- HNZ gives one bit for each lane, set where the lane is not zero. -/
theorem hnz_eq_sum (f : Firing) (m : Nat) :
    hnz m f.va = ((f.lanes m).mapIdx fun i x => if x = 0 then 0 else 2 ^ i).sum := by
  rw [hnz, lanesOf_eq_lanes, ofLanes_map]
  simp only [b2n_mul, bne_iff_ne, ne_eq, ite_not, Nat.one_mul]

theorem mapIdx_range {α : Type} (g : Nat → Nat → α) (n : Nat) :
    (List.range n).mapIdx g = (List.range n).map fun i => g i i := by
  apply List.ext_getElem <;> simp

/-- VADDSU adds lane by lane, saturating. -/
theorem vaddsu_eq_sum (m a b : Nat) : vaddsu m a b =
    ((List.range (8 / 2 ^ (m % 4))).map fun i =>
      min (2 ^ laneW m - 1) (a / 2 ^ (laneW m * i) % 2 ^ laneW m + b / 2 ^ (laneW m * i) % 2 ^ laneW m) *
        2 ^ (laneW m * i)).sum := by
  rw [vaddsu, lanesOf, lanesOf, List.zipWith_map, List.zipWith_self, ofLanes_map, mapIdx_range, laneW_count]
  rfl

/-! ### Timing-dependent results of a single package (R191, R430) -/

/-- A single package journals no value and waits for none. -/
theorem State.timedVal_of_alone {s : State} (h : s.alone) (pe : Nat) (f : Firing) (v : Nat) (p : Bool) :
    s.timedVal pe f v p = some (v, p, s) := by
  obtain ⟨hstate, hvalues, -⟩ := h
  have hj : s.journals = false := by simp [State.journals, hstate]
  have hs : s.standby = false := by simp [State.standby, hstate]
  simp [State.timedVal, hvalues, hs, State.jrnlRoom, hj, State.jrnl_off]

end Sys2Proof.Machine
end

section
/-! SUPPORT. A firing fault (R187): nothing is sent, one event record is asked for, and a live job is killed as lost. -/

namespace Sys2Proof.Machine
open Sys2Proof

/-- With room at the intake an event request enters it, stamped. -/
theorem State.eventReq_intake (e : EvReq) {s : State} (h : s.rcd.intake.length < 64) :
    (s.eventReq e).rcd.intake = intakeAdd s.rcd.intake { e with time := s.time, coarse := s.coarse } := by
  simp [State.eventReq, Nat.not_le.mpr h]

/-- The loss of a context touches the context manager alone. -/
theorem State.loseCtx_only (ctx cause : Nat) (u : Bool) (s : State) : ∃ c, s.loseCtx ctx cause u = { s with cm := c } := by
  unfold State.loseCtx
  split
  · exact ⟨s.cm, rfl⟩
  · exact ⟨_, rfl⟩

/-- The loss of a live job's context asks for the kill of its job. -/
theorem State.loseCtx_live {s : State} {ctx : Nat} (cause : Nat) (u : Bool) (h0 : ctx ≠ 0) (hlive : s.ctxLive ctx = true)
    (hjob : (Tbl.find s.cm.jobs (s.ctx ctx).job).isSome = true) : s.loseCtx ctx cause u =
      s.askKill { job := (s.ctx ctx).job, end_ := 3, cause := cause, fault := [ctx], unver := u } := by
  have hfind : Tbl.find s.cm.jobs (s.ctx ctx).job ≠ none := Option.isSome_iff_ne_none.mp hjob
  simp [State.loseCtx, h0, hlive, hfind]

/-- A firing outside the classes R, C and T leaves no record when it ends (R137). -/
theorem State.traceEnd_of_untraced {f : Firing} (h : [Cls.r, .c, .t].contains (opClass (wOpc f.word)) = false)
    (pe pipe : Nat) (s : State) : s.traceEnd pe pipe f = s := by
  rw [State.traceEnd, h, when_false]

/-- The event request of a firing fault. -/
def Firing.faultEvent (f : Firing) (pe cause : Nat) : EvReq :=
  { code := 0x8100 + cause, cls := cPe, inst := pe, arg := f.tag, extra := (wOpc f.word, 0) }

theorem State.firingFault_of_untraced {f : Firing} (h : [Cls.r, .c, .t].contains (opClass (wOpc f.word)) = false)
    (pe cause : Nat) (s : State) :
    s.firingFault pe cause f = (s.eventReq (f.faultEvent pe cause)).loseCtx f.ctx cause false := by
  rw [State.firingFault, State.faultWith, State.traceEnd_of_untraced h]
  rfl

/-- A command takes a firing out of its slot and raises its fault: nothing is sent, one event record is asked for, and the
job of a live context is to be killed as lost. -/
def Faults (s : State) (c : Instr) (pe pipe slot : Nat) (f : Firing) (cause : Nat) : Prop :=
  ∃ t e, exec c s = .next t ∧ Tbl.find (t.pe pe).fire slot = none ∧ t.gone pe pipe = s.gone pe pipe ∧ t.net = s.net ∧
    t.rcd.intake = intakeAdd s.rcd.intake e ∧ e.code = 0x8100 + cause ∧ e.cls = 4 ∧ e.inst = pe ∧
    (f.ctx ≠ 0 → s.ctxLive f.ctx = true → (Tbl.find s.cm.jobs (s.ctx f.ctx).job).isSome = true →
      ∃ k, t.cm.killQ = s.cm.killQ ++ [k] ∧ k.job = (s.ctx f.ctx).job ∧ k.end_ = 3 ∧ k.cause = cause ∧ k.fault = [f.ctx])

/-- A held firing whose opcode faults it. -/
theorem faults_of_firingFault {s : State} {c : Instr} {pe pipe slot op cause : Nat} {f : Firing} {g : Firing → State → State}
    (h : s.holds pe slot op f) (hc : exec c s = State.plain (State.onFire pe slot op g) s)
    (hg : g f (s.taken pe slot) = (s.taken pe slot).firingFault pe cause f)
    (huntraced : [Cls.r, .c, .t].contains (opClass op) = false) (hroom : s.rcd.intake.length < 64) :
    Faults s c pe pipe slot f cause := by
  have hact := State.onFire_of_holds h g
  obtain ⟨⟨-, -, rfl, -⟩, -⟩ := h
  unfold Faults
  rw [hc, State.plain_eq, hact, hg, State.firingFault_of_untraced huntraced]
  have hintake := State.eventReq_intake (f.faultEvent pe cause) (s := s.taken pe slot) hroom
  refine ⟨_, { f.faultEvent pe cause with time := s.time, coarse := s.coarse }, rfl, ?_⟩
  obtain ⟨m, hm⟩ := State.loseCtx_only f.ctx cause false ((s.taken pe slot).eventReq (f.faultEvent pe cause))
  refine ⟨?fire, ?gone, ?net, ?intake, rfl, rfl, rfl, fun h0 hlive hjob => ?kill⟩
  case kill =>
    rw [State.loseCtx_live (s := (s.taken pe slot).eventReq (f.faultEvent pe cause)) cause false h0 hlive hjob]
    exact ⟨_, rfl, rfl, rfl, rfl, rfl⟩
  all_goals rw [hm]
  case fire => exact (congrArg (fun x : Pe => Tbl.find x.fire slot) (s.taken_pe pe slot)).trans (by simp)
  case gone => exact s.taken_gone pe slot pipe
  case net => rfl
  case intake => exact hintake

end Sys2Proof.Machine
end

section
/-! The comparison and steering opcodes. -/

namespace Sys2Proof.Machine
open Sys2Proof

/-- SWITCH picks one destination by a control bit (R154). -/
theorem switch_sends {s : State} {pe pipe : Nat} {f : Firing} (h : s.holds pe pipe 0x28 f) :
    Sends s (.switch pe pipe) pe pipe pipe
      (f.result (if f.vc.testBit (f.vb % 64) then 0 else 1) f.va f.poisoned f.iter f.outFlow) := by
  refine sends_of_onFire h rfl ?_
  rw [← bit_eq_testBit]
  exact State.emitted_emit1 _ pe pipe f _ _ _ _ _ (State.taken_block h)

/-- GATE passes its value or sends nothing; either way its firing completes (R154). -/
theorem gate_sends {s : State} {pe pipe : Nat} {f : Firing} (h : s.holds pe pipe 0x2A f) :
    Sends s (.gate pe pipe) pe pipe pipe
      (if f.vc.testBit (f.vb % 64) then f.results f.va f.poisoned f.iter f.outFlow else []) := by
  refine sends_of_onFire h rfl ?_
  rw [← bit_eq_testBit]
  split
  · exact State.emitted_emitAs _ pe pipe f _ _ _ _ (State.taken_block h)
  · exact .refl _ pe pipe

/-- Settles O2: each comparison's value is that of the spec, and each steering opcode sends what its control bit selects. -/
theorem compareAndSteerResults : Obligations.CompareAndSteerResults := by
  unfold Obligations.CompareAndSteerResults
  intro s pe pipe f
  refine ⟨?ceq, ?cne, ?clt, ?cle, ?cltu, ?cleu, ?btst, switch_sends, ?merge, gate_sends, ?fan, ?setflow⟩
  case ceq => exact fun h => gives_of_calc h rfl (by simp [b2n_eq_ite])
  case cne => exact fun h => gives_of_calc h rfl (by simp [b2n_eq_ite])
  case clt => exact fun h => gives_of_calc h rfl (by simp [b2n_eq_ite, ltS_eq_toInt])
  case cle => exact fun h => gives_of_calc h rfl (by simp [b2n_eq_ite, leS_eq_toInt])
  case cltu => exact fun h => gives_of_calc h rfl (by simp [b2n_eq_ite])
  case cleu => exact fun h => gives_of_calc h rfl (by simp [b2n_eq_ite])
  case btst => exact fun h => gives_of_calc h rfl (b2n_bit f.va (f.vb % 64))
  case merge => exact fun h => gives_of_calc h rfl (by simp [bit_eq_testBit])
  case fan => exact fun h => gives_of_calc h rfl rfl
  case setflow => exact fun h => sends_of_emitAs h rfl rfl

end Sys2Proof.Machine
end

section
/-! The tag, bit, reduction and time opcodes. -/

namespace Sys2Proof.Machine
open Sys2Proof

/-- A held firing whose opcode sends its value a with another ITER: it does so while the ITER lies in 28 bits, and is
faulted else (R157). -/
theorem withIter_results {s : State} {c : Instr} {pe pipe op : Nat} {f : Firing} {g : Firing → State → State} {i : Int}
    (h : s.holds pe pipe op f) (hc : exec c s = State.plain (State.onFire pe pipe op g) s)
    (hg : ∀ u, g f u = u.withIter pe pipe f i) (huntraced : [Cls.r, .c, .t].contains (opClass op) = false) :
    (∀ n : Nat, i = n → n ≤ 0xFFFFFFF → Sends s c pe pipe pipe (f.results f.va f.poisoned n f.outFlow)) ∧
    (i < 0 ∨ 0xFFFFFFF < i → s.rcd.intake.length < 64 → Faults s c pe pipe pipe f 0x21) := by
  constructor
  · rintro n rfl hn
    refine sends_of_emitAs h hc ((hg _).trans ?_)
    rw [State.withIter, if_pos (by simp only [Bool.and_eq_true, decide_eq_true_eq]; omega), Int.toNat_natCast]
  · intro hi hroom
    refine faults_of_firingFault h hc ((hg _).trans ?_) huntraced hroom
    rw [State.withIter, if_neg (by simp only [Bool.and_eq_true, decide_eq_true_eq]; omega)]

/-- RDTIME of a single package acts as soon as its firing is held, on the time of its issue (R152, R191). -/
theorem rdtime_gives {s : State} {pe pipe : Nat} {f : Firing} (h : s.holds pe pipe 0x18 f) (ha : s.alone) :
    Gives s (.rdtime pe pipe) pe pipe pipe f f.issued := by
  refine sends_of_emitted (t := (s.taken pe pipe).emitAs pe pipe f f.issued f.poisoned f.iter f.outFlow) ?_
    (State.emitted_emitAs _ pe pipe f _ _ _ _ (State.taken_block h))
  have hact := State.onFire_of_holds h
  obtain ⟨⟨hdom, hfind, -, -⟩, -⟩ := h
  change execRdtime pe pipe s = _
  simp only [execRdtime, State.inDom, State.plain_eq, hdom, hfind, if_true, State.valueWaits, State.timedVal_of_alone ha,
    State.timedVal_of_alone (s := s.taken pe pipe) ha, hact, Option.isNone_some, Bool.false_eq_true, if_false]

/-- UNSCRAMBLE through a loaded map (R181). -/
theorem unscramble_gives {s : State} {pe pipe sh : Nat} {tab : Tbl Nat} {f : Firing} (h : s.holds pe pipe 0x84 f)
    (hb : f.vb < 16) (hmap : Tbl.find s.maps f.vb = some (sh, tab)) :
    Gives s (.unscramble pe pipe) pe pipe pipe f
      (setBits f.va (sh + 11) sh (Tbl.get 0 tab (f.va / 2 ^ sh % 4096))) := by
  refine sends_of_emitAs h rfl ?_
  simp only [if_neg (Nat.not_le.mpr hb), State.taken_maps, hmap, unscrambled_eq]
  rfl

/-- Settles O3: the two ITER opcodes by the range of the new ITER, every other opcode by the value it gives. -/
theorem tagAndBitResults : Obligations.TagAndBitResults := by
  unfold Obligations.TagAndBitResults
  intro s pe pipe f
  refine ⟨?iter, ?gettag, ?popc, ?ffsZero, ?ffs, ?bitscatter, ?bitgather, fun sh tab => unscramble_gives, ?hsum, ?hmaxu,
    ?hminu, ?hnz, ?vaddsu, rdtime_gives⟩
  case iter =>
    rintro c i (⟨rfl, h, rfl⟩ | ⟨rfl, h, rfl⟩)
    · exact withIter_results h rfl (fun u => by simp only [sext_eq_toInt 15]) (by decide)
    · exact withIter_results h rfl (fun u => rfl) (by decide)
  case gettag =>
    obtain ⟨hact, hport⟩ := wMod_fields f.word
    exact fun h => gives_of_calc h rfl (by rw [hact, hport])
  case popc => exact fun h => gives_of_calc h rfl (popcount_eq_countP 64 f.va)
  case ffsZero => exact fun h h0 => gives_of_calc h rfl (by simp [firstSet, h0])
  case ffs =>
    intro h h0
    obtain ⟨hset, hfirst⟩ := firstSet_first (wMod f.word) h0 f.va_lt
    exact ⟨_, hset, hfirst, gives_of_calc h rfl rfl⟩
  case bitscatter => exact fun h => gives_of_calc h rfl (scatter_eq_sum f.va f.vb)
  case bitgather => exact fun h => gives_of_calc h rfl (gather_eq_sum f.va f.vb)
  case hsum => exact fun h => gives_of_calc h rfl (hsum_eq_sum f _)
  case hmaxu =>
    obtain ⟨hmem, hle⟩ := hmaxu_greatest f (wMod f.word)
    exact fun h => ⟨_, hmem, hle, gives_of_calc h rfl rfl⟩
  case hminu =>
    obtain ⟨hmem, hle⟩ := hminu_least f (wMod f.word)
    exact fun h => ⟨_, hmem, hle, gives_of_calc h rfl rfl⟩
  case hnz => exact fun h => gives_of_calc h rfl (hnz_eq_sum f _)
  case vaddsu => exact fun h => gives_of_calc h rfl (vaddsu_eq_sum (wMod f.word) f.va f.vb)

end Sys2Proof.Machine
end

section
/-! SUPPORT. A mailbox command that firmware serves and that is not journalled (R407 to R409): it is carried out on its
arguments, and its completion leaves the mailbox DONE. -/

namespace Sys2Proof.Machine
open Sys2Proof

/-- The state on which the command of a mailbox is carried out: its id and tag are taken, and it is IN_SERVICE. -/
def State.inService (m : Nat) (s : State) : State :=
  (s.updMb m fun x => { x with id := x.cmdId, tag := x.cmdTag, rspLen := 0, st := (Tbl.get {} s.st.routes m).st }).updMb m
    fun x => { x with state := 2 }

@[simp] theorem State.inService_sec (m : Nat) (s : State) : (s.inService m).sec = s.sec := rfl
@[simp] theorem State.inService_boot (m : Nat) (s : State) : (s.inService m).boot = s.boot := rfl
@[simp] theorem State.inService_otp (m : Nat) (s : State) : (s.inService m).otp = s.otp := rfl
@[simp] theorem State.inService_mb (m : Nat) (s : State) : (s.inService m).mb m =
    { s.mb m with id := (s.mb m).cmdId, tag := (s.mb m).cmdTag, rspLen := 0, st := (Tbl.get {} s.st.routes m).st,
                  state := 2 } := by
  simp [State.inService]

/-- Byte 0 of the arguments, which numbers a command's form. -/
theorem fld_byte_zero (a : List Byte) : fld a 0 1 = (a.getD 0 0).toNat := by
  cases a <;> simp [fld, slice, leNat]

/-- A command that firmware serves, in the form that its row has, is carried out. -/
theorem State.serveMb_of_serves {s : State} {m id forms form len : Nat} {named : List (Nat × Nat)} {a : List Byte}
    (h : s.mbServes m id len named a) (hplain : mbJournalled id = false)
    (hform : forms ≤ 1 ∨ fld a 0 1 = form ∧ form < forms) (arb : Bool) (act : List Byte → State → State) :
    State.serveMb m id forms form len named okArgs noAbsent arb act s = act a (s.inService m) := by
  obtain ⟨-, hqueued, hid, rfl, hdom, hcheck, -, -⟩ := h
  have hrow : ¬(1 < forms ∧ fld (s.mb m).args 0 1 ≠ form ∧ ¬(form = 0 ∧ forms ≤ fld (s.mb m).args 0 1)) := by omega
  have hknown : forms ≤ 1 ∨ fld (s.mb m).args 0 1 < forms := by omega
  rw [fld_byte_zero] at hrow hknown
  unfold State.serveMb
  dsimp only
  rw [if_neg (by simpa [hqueued, hid] using hrow), if_neg (by simp [hdom]),
    show (okArgs (s.mb m).args && _) = true by simpa [okArgs] using hknown, show noAbsent (s.mb m).args = false from rfl,
    hcheck]
  simp only [hplain, State.mbWaits, State.inService, Bool.and_false, Bool.false_and, Bool.false_eq_true, if_false, when_false]

/-- A completion that is not journalled leaves its mailbox DONE. -/
theorem State.finish_eq_mbDone {s : State} {m : Nat} (hm : m < 16) (hplain : mbJournalled (s.mb m).id = false) (c : Nat)
    (r : List Byte) : s.finish m c r = s.mbDone m c r := by
  rw [State.finish, if_neg (Nat.not_le.mpr hm), hplain]
  rfl

@[simp] theorem State.finish_sec (m c : Nat) (r : List Byte) (s : State) : (s.finish m c r).sec = s.sec := by
  obtain ⟨_, _, _, e⟩ := s.finish_only m c r
  rw [e]

@[simp] theorem State.finish_boot (m c : Nat) (r : List Byte) (s : State) : (s.finish m c r).boot = s.boot := by
  obtain ⟨_, _, _, e⟩ := s.finish_only m c r
  rw [e]

@[simp] theorem State.finish_otp (m c : Nat) (r : List Byte) (s : State) : (s.finish m c r).otp = s.otp := by
  obtain ⟨_, _, _, e⟩ := s.finish_only m c r
  rw [e]

/-- A served command of the security engine ends: its mailbox is DONE for it, whatever the engine has changed of its own. -/
theorem State.doneWith_finish {s : State} {m : Nat} (hm : m < 16) (hplain : mbJournalled (s.mb m).cmdId = false)
    (g : Sec → Sec) (c : Nat) (r : List Byte) :
    ((((s.inService m).updSec g).finish m c r).mb m).doneWith (s.mb m) c r := by
  have hmb : ((s.inService m).updSec g).mb m = (s.inService m).mb m := rfl
  rw [State.finish_eq_mbDone hm (by simpa [hmb] using hplain), State.mbDone_mb, hmb, State.inService_mb]
  exact ⟨rfl, rfl, rfl, rfl, rfl, rfl⟩

end Sys2Proof.Machine
end

section
/-! SUPPORT. The mailbox commands of the security engine (R512 to R515, R520). -/

namespace Sys2Proof.Machine
open Sys2Proof

@[simp] theorem State.inService_tamperKey (m : Nat) (s : State) : (s.inService m).tamperKey = s.tamperKey := rfl

/-- The key that answers are checked under (R520). -/
theorem State.tamperKey_eq (s : State) : s.tamperKey =
    if s.otp.extHash = [] then Config.vendorKey s.otp.vendorHash else s.flBytes 1 0x2200004 97 := by
  simp only [State.tamperKey, List.isEmpty_iff]

/-- The latch clears: boot goes back to step 3 in TAMPER_HOLD, and the KEK is derived in any other device state (R520). -/
theorem State.latchClear_eq (s : State) : s.latchClear =
    { s with
      boot := if s.boot.dev = 3 then { s.boot with dev := 0, step := 3 } else s.boot
      sec := { s.sec with
        latch := false, src := 0,
        kek := if s.boot.dev = 3 then s.sec.kek else some (Config.kdf s.otp.root (leBytes 8 s.otp.serial)) } } := by
  unfold State.latchClear
  split <;> rfl

/-- A command of the security engine, whose domain runs, is carried out. -/
theorem secCommand_acts {s : State} {c : Instr} {m id forms form len : Nat} {named : List (Nat × Nat)} {a : List Byte}
    {act : List Byte → State → State} (h : s.mbServes m id len named a) (hdom : s.domOn 2 = true)
    (hc : exec c s = State.plain
      (State.secServe m id (State.serveMb m id forms form len named okArgs noAbsent false act)) s)
    (hplain : mbJournalled id = false) (hform : forms ≤ 1 ∨ fld a 0 1 = form ∧ form < forms) :
    exec c s = .next ((act a (s.inService m)).keep s) := by
  rw [hc, State.plain_eq, State.secServe, if_neg (by simp [hdom]), State.serveMb_of_serves h hplain hform]

/-- A command of the security engine that changes the engine and completes. -/
theorem secCommand_answers {s : State} {c : Instr} {m id forms form len status : Nat} {named : List (Nat × Nat)}
    {a rsp : List Byte} {act : List Byte → State → State} {g : Sec → Sec} (h : s.mbServes m id len named a)
    (hdom : s.domOn 2 = true)
    (hc : exec c s = State.plain
      (State.secServe m id (State.serveMb m id forms form len named okArgs noAbsent false act)) s)
    (hplain : mbJournalled id = false) (hform : forms ≤ 1 ∨ fld a 0 1 = form ∧ form < forms)
    (hact : act a (s.inService m) = ((s.inService m).updSec g).finish m status rsp) :
    ∃ t, exec c s = .next t ∧ (t.mb m).doneWith (s.mb m) status rsp ∧ t.sec = g s.sec := by
  have hexec := secCommand_acts h hdom hc hplain hform
  obtain ⟨hm, -, rfl, -⟩ := h
  rw [hact] at hexec
  exact ⟨_, hexec, State.doneWith_finish hm hplain g status rsp, State.finish_sec ..⟩

/-! ### KEY_LOAD (R513) -/

/-- Why KEY_LOAD stores no key, in the order of its checks, with the status of each. -/
inductive KeyLoadRefused (x : Sec) (a : List Byte) : Nat → Prop
  | noId (h0 : fld a 0 2 = 0) : KeyLoadRefused x a BAD_ARG
  | locked (h0 : fld a 0 2 ≠ 0) (hlocked : x.latch = true ∨ x.kek = none) : KeyLoadRefused x a DENIED
  | bad {kek : List Byte} (h0 : fld a 0 2 ≠ 0) (hopen : x.latch = false) (hkek : x.kek = some kek)
      (hunwrap : Config.keyUnwrap kek (slice a 8 40) = none) : KeyLoadRefused x a VERIFY_FAIL
  | full {kek key : List Byte} (h0 : fld a 0 2 ≠ 0) (hopen : x.latch = false) (hkek : x.kek = some kek)
      (hunwrap : Config.keyUnwrap kek (slice a 8 40) = some key)
      (hfull : Tbl.find x.keys (fld a 0 2) = none ∧ 16 ≤ x.keys.length) : KeyLoadRefused x a DENIED

/-- KEY_LOAD that stores no key answers with the status of the check that fails. -/
theorem keyLoad_refuses {s : State} {m status : Nat} {a : List Byte} (h : s.mbServes m 0x71 48 [(0, 2), (8, 40)] a)
    (hdom : s.domOn 2 = true) (hwhy : KeyLoadRefused s.sec a status) :
    ∃ t, exec (.keyLoad m) s = .next t ∧ (t.mb m).doneWith (s.mb m) status [] ∧ t.sec.keys = s.sec.keys := by
  have hanswers := secCommand_answers (c := .keyLoad m) (g := fun x => { x with stat := status }) (rsp := [])
    (status := status) h hdom rfl rfl (.inl (Nat.le_refl 1)) (by
    cases hwhy with
    | noId h0 =>
      simp only [h0, if_true]
      rfl
    | locked h0 hlocked =>
      obtain hlatch | hkek := hlocked
      · simp only [h0, if_false, State.inService_sec, hlatch, if_true]
        rfl
      · simp only [h0, if_false, State.inService_sec, hkek, ite_self]
        rfl
    | bad h0 hopen hkek hunwrap =>
      simp only [h0, if_false, State.inService_sec, hopen, hkek, hunwrap, Bool.false_eq_true]
      rfl
    | full h0 hopen hkek hunwrap hfull =>
      simp only [h0, if_false, State.inService_sec, hopen, hkek, hunwrap, hfull, Bool.false_eq_true, Option.isNone_none,
        decide_true, Bool.and_self, if_true]
      rfl)
  obtain ⟨t, hexec, hdone, hsec⟩ := hanswers
  exact ⟨t, hexec, hdone, by rw [hsec]⟩

/-- KEY_LOAD of a key that unwraps, with its id loaded or a place free. -/
theorem keyLoad_stores {s : State} {m : Nat} {a kek key : List Byte} (h : s.mbServes m 0x71 48 [(0, 2), (8, 40)] a)
    (hdom : s.domOn 2 = true) (h0 : fld a 0 2 ≠ 0) (hopen : s.sec.latch = false) (hkek : s.sec.kek = some kek)
    (hunwrap : Config.keyUnwrap kek (slice a 8 40) = some key)
    (hroom : ¬(Tbl.find s.sec.keys (fld a 0 2) = none ∧ 16 ≤ s.sec.keys.length)) :
    ∃ t, exec (.keyLoad m) s = .next t ∧ (t.mb m).doneWith (s.mb m) OK [] ∧
      t.sec.keys = s.sec.keys.put (fld a 0 2) key := by
  obtain ⟨t, hexec, hdone, hsec⟩ := secCommand_answers (c := .keyLoad m)
    (g := fun x => { x with keys := x.keys.put (fld a 0 2) key, stat := OK }) (rsp := []) (status := OK) h hdom rfl rfl
    (.inl (Nat.le_refl 1)) (by
    rw [← State.inService_sec m s] at hopen hkek hroom
    simp only [h0, if_false, hopen, hkek, hunwrap, Bool.false_eq_true, Bool.and_eq_true, Option.isNone_iff_eq_none,
      decide_eq_true_eq, hroom]
    rfl)
  exact ⟨t, hexec, hdone, by rw [hsec]⟩

/-! ### TAMPER_CLEAR (R515, R520) -/

/-- Step 0 needs the entropy source. -/
theorem tamperClearChallenge_denied {s : State} {m : Nat} {a : List Byte} (h : s.mbServes m 0x70 1 [(0, 1)] a)
    (hdom : s.domOn 2 = true) (hform : fld a 0 1 = 0) (hbad : s.sec.entropyBad = true) :
    ∃ t, exec (.tamperClearChallenge m) s = .next t ∧ (t.mb m).doneWith (s.mb m) DENIED [] ∧ t.sec = s.sec := by
  refine secCommand_answers (g := id) h hdom rfl rfl (.inr ⟨hform, by decide⟩) ?_
  simp only [State.inService_sec, hbad, if_true]
  rfl

/-- Step 0 answers with the DRBG's next output, which becomes the nonce. -/
theorem tamperClearChallenge_nonce {s : State} {m : Nat} {a : List Byte} (h : s.mbServes m 0x70 1 [(0, 1)] a)
    (hdom : s.domOn 2 = true) (hform : fld a 0 1 = 0) (hgood : s.sec.entropyBad = false) :
    ∃ t, exec (.tamperClearChallenge m) s = .next t ∧
      (t.mb m).doneWith (s.mb m) OK (padTo 32 (Config.drbg s.sec.drbg)) ∧
      t.sec = { s.sec with nonce := some (padTo 32 (Config.drbg s.sec.drbg)), drbg := s.sec.drbg + 1 } := by
  refine secCommand_answers
    (g := fun x => { x with nonce := some (padTo 32 (Config.drbg s.sec.drbg)), drbg := x.drbg + 1 }) h hdom rfl rfl
    (.inr ⟨hform, by decide⟩) ?_
  simp only [State.inService_sec, hgood, Bool.false_eq_true, if_false]

/-- Step 1 without a latched alarm or without a nonce. -/
theorem tamperClearAnswer_notActive {s : State} {m : Nat} {a : List Byte} (h : s.mbServes m 0x70 104 [(0, 1), (8, 96)] a)
    (hdom : s.domOn 2 = true) (hform : fld a 0 1 = 1) (hwhy : s.sec.latch = false ∨ s.sec.nonce = none) :
    ∃ t, exec (.tamperClearAnswer m) s = .next t ∧ (t.mb m).doneWith (s.mb m) NOT_ACTIVE [] ∧
      t.sec = { s.sec with nonce := none } := by
  refine secCommand_answers (g := fun x => { x with nonce := none }) h hdom rfl rfl (.inr ⟨hform, by decide⟩) ?_
  obtain hlatch | hnonce := hwhy
  · simp only [State.inService_sec, hlatch, Bool.false_eq_true, if_false]
    rfl
  · simp only [State.inService_sec, hnonce, ite_self]
    rfl

/-- Step 1 after eight failed answers. -/
theorem tamperClearAnswer_denied {s : State} {m : Nat} {a n : List Byte} (h : s.mbServes m 0x70 104 [(0, 1), (8, 96)] a)
    (hdom : s.domOn 2 = true) (hform : fld a 0 1 = 1) (hlatch : s.sec.latch = true) (hnonce : s.sec.nonce = some n)
    (hfails : 8 ≤ s.sec.fails) :
    ∃ t, exec (.tamperClearAnswer m) s = .next t ∧ (t.mb m).doneWith (s.mb m) DENIED [] ∧
      t.sec = { s.sec with nonce := none } := by
  refine secCommand_answers (g := fun x => { x with nonce := none }) h hdom rfl rfl (.inr ⟨hform, by decide⟩) ?_
  simp only [State.inService_sec, hlatch, hnonce, hfails, if_true]
  rfl

/-- Step 1 with a signature that does not verify. -/
theorem tamperClearAnswer_fails {s : State} {m : Nat} {a n : List Byte} (h : s.mbServes m 0x70 104 [(0, 1), (8, 96)] a)
    (hdom : s.domOn 2 = true) (hform : fld a 0 1 = 1) (hlatch : s.sec.latch = true) (hnonce : s.sec.nonce = some n)
    (hfails : s.sec.fails < 8)
    (hbad : Config.ecdsaOk s.tamperKey (Config.sha384 (n ++ leBytes 8 s.otp.serial)) (slice a 8 96) = false) :
    ∃ t, exec (.tamperClearAnswer m) s = .next t ∧ (t.mb m).doneWith (s.mb m) VERIFY_FAIL [] ∧
      t.sec = { s.sec with nonce := none, fails := s.sec.fails + 1 } := by
  refine secCommand_answers (g := fun x => { x with nonce := none, fails := x.fails + 1 }) h hdom rfl rfl
    (.inr ⟨hform, by decide⟩) ?_
  simp only [State.inService_sec, State.inService_otp, State.inService_tamperKey, hlatch, hnonce, Nat.not_le.mpr hfails, hbad,
    Bool.false_eq_true, if_true, if_false]
  rfl

/-- Step 1 with a signature that verifies: the latch clears. -/
theorem tamperClearAnswer_clears {s : State} {m : Nat} {a n : List Byte} (h : s.mbServes m 0x70 104 [(0, 1), (8, 96)] a)
    (hdom : s.domOn 2 = true) (hform : fld a 0 1 = 1) (hlatch : s.sec.latch = true) (hnonce : s.sec.nonce = some n)
    (hfails : s.sec.fails < 8)
    (hgood : Config.ecdsaOk s.tamperKey (Config.sha384 (n ++ leBytes 8 s.otp.serial)) (slice a 8 96) = true) :
    ∃ t, exec (.tamperClearAnswer m) s = .next t ∧ (t.mb m).doneWith (s.mb m) OK [] ∧
      t.sec.nonce = none ∧ t.sec.latch = false ∧ t.sec.src = 0 ∧
      (s.boot.dev = 3 → t.boot.dev = 0 ∧ t.boot.step = 3) ∧
      (s.boot.dev ≠ 3 → t.sec.kek = some (Config.kdf s.otp.root (leBytes 8 s.otp.serial))) := by
  have hexec := secCommand_acts (c := .tamperClearAnswer m) h hdom rfl rfl (.inr ⟨hform, by decide⟩)
  simp only [State.inService_sec, State.inService_otp, State.inService_tamperKey, hlatch, hnonce, Nat.not_le.mpr hfails, hgood,
    if_true, if_false, State.fin] at hexec
  obtain ⟨hm, -, hid, -⟩ := h
  rw [State.latchClear_eq] at hexec
  refine ⟨_, hexec, State.doneWith_finish (s := s) hm (by rw [hid]; rfl) _ OK [], ?_⟩
  simp only [State.keep, State.finish_sec, State.finish_boot, State.finish_otp, State.updSec_sec, State.updSec_boot,
    State.updSec_otp, State.inService_boot, State.inService_otp, true_and]
  exact ⟨fun h3 => by simp [h3], fun h3 => by simp [h3]⟩

end Sys2Proof.Machine
end

section
/-! SUPPORT. A tamper alarm (R518, R519): what it writes of the security engine, its alert, and the boot that it interrupts. -/

namespace Sys2Proof.Machine
open Sys2Proof

/-! ### Alerts -/

/-- What a change leaves alone it leaves alone also when it is made on a condition. -/
theorem when_keeps {α : Type} (p : State → α) (b : Bool) {f : State → State} {s : State} (h : p (f s) = p s) :
    p (when b f s) = p s := by
  obtain e | e := when_eq b f s
  · rw [e]
  · rw [e, h]

/-- What an alert does in the host's copy of the alert bits (R420). -/
def State.alertHost (k : Nat) (s : State) : State :=
  if bit s.host.alert k then s else
    when (bit s.alertEn k) (State.msix0 (18 + k))
      ((s.note (.rose .host k) 1).updHost fun h => { h with alert := h.alert + 2 ^ k })

/-- What an alert does in the BMC's copy of the alert bits (R428). -/
def State.alertBmc (k : Nat) (s : State) : State :=
  if bit s.host.bmcAlert k then s else
    when (bit s.bmcAlertEn k) (State.ibi k)
      ((s.note (.rose .bmc k) 1).updHost fun h => { h with bmcAlert := h.bmcAlert + 2 ^ k })

theorem State.alert_eq {k : Nat} {s : State} (hk : k = 7 → s.hasBridge = true) :
    s.alert k = (((s.note (.w1c .host k) 1).note (.w1c .bmc k) 1).alertHost k).alertBmc k :=
  if_neg (by simpa using hk)

theorem State.alertHost_testBit (k : Nat) (s : State) : (s.alertHost k).host.alert.testBit k = true := by
  unfold State.alertHost
  split
  · next hbit => rwa [bit_eq_testBit] at hbit
  · next hbit =>
    rw [bit_eq_testBit, Bool.not_eq_true] at hbit
    rw [when_keeps (f := State.msix0 (18 + k)) (fun u => u.host.alert) _ rfl]
    change (s.host.alert + 2 ^ k).testBit k = true
    rw [Nat.add_comm, Nat.testBit_two_pow_add_eq, hbit, Bool.not_false]

theorem State.alertBmc_alert (k : Nat) (s : State) : (s.alertBmc k).host.alert = s.host.alert := by
  unfold State.alertBmc
  split
  · rfl
  · exact when_keeps (fun u => u.host.alert) _ rfl

/-- An alert's bit is set, in a part that has the alert (R419, R429). -/
theorem State.alert_testBit {k : Nat} {s : State} (hk : k = 7 → s.hasBridge = true) :
    (s.alert k).host.alert.testBit k = true := by
  rw [State.alert_eq hk, State.alertBmc_alert, State.alertHost_testBit]

/-! ### Halts -/

/-- A state differs from an earlier one at most by what the halt of a site writes (R248). -/
def State.HaltWrites (s t : State) : Prop :=
  ∃ si la lg rd p r n, t = { s with sites := si, lanes := la, lgs := lg, readers := rd, pair := p, rcd := r, fc := n }

theorem State.HaltWrites.refl (s : State) : s.HaltWrites s :=
  ⟨s.sites, s.lanes, s.lgs, s.readers, s.pair, s.rcd, s.fc, rfl⟩

theorem State.HaltWrites.trans {s t u : State} (h : s.HaltWrites t) (k : t.HaltWrites u) : s.HaltWrites u := by
  obtain ⟨_, _, _, _, _, _, _, rfl⟩ := h
  obtain ⟨_, _, _, _, _, _, _, rfl⟩ := k
  exact ⟨_, _, _, _, _, _, _, rfl⟩

theorem State.HaltWrites.foldl {α : Type} {f : State → α → State} (h : ∀ (u : State) x, u.HaltWrites (f u x)) (l : List α)
    (s : State) : s.HaltWrites (l.foldl f s) :=
  List.foldlRecOn (motive := s.HaltWrites) l f (.refl s) fun u hu x _ => hu.trans (h u x)

theorem State.HaltWrites.of_when {s : State} {f : State → State} (b : Bool) (h : s.HaltWrites (f s)) :
    s.HaltWrites (when b f s) := by
  obtain e | e := when_eq b f s
  · rw [e]
    exact .refl s
  · rw [e]
    exact h

theorem State.siteCnt_writes (k off n : Nat) (s : State) : s.HaltWrites (s.siteCnt k off n) := by
  unfold State.siteCnt
  split
  · exact .foldl (fun _ _ => ⟨_, _, _, _, _, _, _, rfl⟩) _ s
  · exact .refl s

theorem State.opSkipped_writes (k op : Nat) (s : State) : s.HaltWrites (s.opSkipped k op) :=
  State.HaltWrites.trans ⟨_, _, _, _, _, _, _, rfl⟩ (State.siteCnt_writes k 0x09 1 ((s.opHalted k op).opDropped k op))

theorem State.jrnl_writes (ty : Nat) (l : List Nat) (d : List Byte) (s : State) : s.HaltWrites (s.jrnl ty l d) := by
  obtain ⟨_, e⟩ := s.jrnl_only ty l d
  exact ⟨_, _, _, _, _, _, _, e⟩

theorem State.cutBursts_writes (k : Nat) (s : State) : s.HaltWrites (s.cutBursts k) := by
  have hcut := State.HaltWrites.foldl (f := fun s op => if s.opNow k op then s.opSkipped k op else s.opHalted k op)
    (fun u op => by
      split
      · exact u.opSkipped_writes k op
      · exact ⟨_, _, _, _, _, _, _, rfl⟩) (s.site k).inHand s
  have hall := hcut.trans (u := State.updPair (fun p => { p with branchPts := p.branchPts.filter fun b => b.1 != k }) _)
    ⟨_, _, _, _, _, _, _, rfl⟩
  unfold State.cutBursts
  dsimp only
  split
  · exact hall.trans (State.jrnl_writes 0x04 [k, (s.site k).next, 1] [] _)
  · exact hall

theorem State.stallEnd_writes (l : Nat) (s : State) : s.HaltWrites (s.stallEnd l) := by
  unfold State.stallEnd
  split
  · exact .refl s
  · exact ⟨_, _, _, _, _, _, _, rfl⟩

theorem State.dropVectors_writes (k : Nat) (s : State) : s.HaltWrites (s.dropVectors k) := by
  have hleave : s.HaltWrites (s.leaveReader k) := ⟨_, _, _, _, _, _, _, rfl⟩
  have hstall := hleave.trans (.foldl (fun u l => u.stallEnd_writes l) (s.site k).laneList _)
  exact hstall.trans ⟨_, _, _, _, _, _, _, rfl⟩

theorem State.haltFlits_writes (k : Nat) (s : State) : s.HaltWrites (s.haltFlits k) := by
  unfold State.haltFlits
  exact State.HaltWrites.trans ⟨_, _, _, _, _, _, _, rfl⟩ (.foldl (fun _ _ => ⟨_, _, _, _, _, _, _, rfl⟩) _ _)

theorem State.haltSite_writes (k cause ctx act : Nat) (flit : Bool) (s : State) :
    s.HaltWrites (s.haltSite k cause ctx act flit) := by
  unfold State.haltSite
  split
  · exact .of_when _ (s.haltFlits_writes k)
  · have hcut := (s.cutBursts_writes k).trans (State.siteCnt_writes k 0x0D 1 _)
    have hrecord := hcut.trans (u := State.haltRecord k cause ctx act _) ⟨_, _, _, _, _, _, _, rfl⟩
    have hdrop := hrecord.trans (State.dropVectors_writes k _)
    have hmark := hdrop.trans (u := State.updSite k
      (fun x => { x with halted := true, haltedAt := s.time, haltCause := cause, haltFlit := false }) _)
      ⟨_, _, _, _, _, _, _, rfl⟩
    exact hmark.trans (.of_when flit (State.haltFlits_writes k _))

theorem State.haltAll_writes (s : State) : s.HaltWrites s.haltAll := by
  refine .foldl (fun u k => ?_) _ s
  split
  · exact u.haltSite_writes k hcSentinel 0 0 true
  · exact .refl u

/-! ### The alarm -/

/-- The end of encrypted loads changes nothing of the security engine but the status of its last key operation. -/
theorem State.abortLoads_sec (s : State) : ∃ c, s.abortLoads.sec = { s.sec with stat := c } := by
  refine List.foldlRecOn (motive := fun t : State => ∃ c, t.sec = { s.sec with stat := c }) _ _ ⟨s.sec.stat, rfl⟩ ?_
  rintro t ⟨c, ht⟩ m -
  dsimp only
  split
  · split
    · exact ⟨ABORTED_TAMPER, (State.finish_sec ..).trans (by simp [ht])⟩
    · exact ⟨c, ht⟩
  · exact ⟨c, ht⟩

theorem State.purgeBlocks_sec (s : State) : ∃ p, s.purgeBlocks.sec = { s.sec with purge := p } := ⟨_, rfl⟩

@[simp] theorem State.alert_sec (k : Nat) (s : State) : (s.alert k).sec = s.sec := by
  obtain ⟨_, _, _, e⟩ := s.alert_only k
  rw [e]

/-- The security engine latches an alarm of a source, counts it and zeroizes the unsealed keys; the resident encrypted blocks
are to be unloaded (R518). -/
def Sec.latched (source : Nat) (blocks : List Nat) (x : Sec) : Sec :=
  { x with latch := true, src := x.src ||| 2 ^ source, cnt := sat32 x.cnt 1, kek := none, keys := [], nonce := none,
           purge := blocks }

/-- An alarm up to its life-ledger total: what it does whatever the settings and the boot are. -/
def State.alarmed (source : Nat) (s : State) : State :=
  (((s.updSec (Sec.latched source s.encBlocks)).abortLoads.purgeBlocks.event cSec 0 0x8008 (s.sec.src ||| 2 ^ source)).alert
    9).tot 2

theorem State.alarm_eq (source : Nat) (s : State) :
    s.alarm source = when s.booting State.tamperHold (when (bit s.sec.tmpCfg 6) State.haltAll (s.alarmed source)) := rfl

/-- What follows the latching of an alarm changes of the security engine only its list of blocks and the last status. -/
theorem State.alarmed_sec (source : Nat) (s : State) :
    ∃ c p, (s.alarmed source).sec = { s.sec.latched source s.encBlocks with stat := c, purge := p } := by
  obtain ⟨c, hloads⟩ := State.abortLoads_sec (s.updSec (Sec.latched source s.encBlocks))
  obtain ⟨p, hpurge⟩ := State.purgeBlocks_sec (s.updSec (Sec.latched source s.encBlocks)).abortLoads
  rw [hloads] at hpurge
  exact ⟨c, p, (State.alert_sec 9 _).trans hpurge⟩

/-- The alarm sets alert bit 9 (R518). -/
theorem State.alarmed_alert (source : Nat) (s : State) : (s.alarmed source).host.alert.testBit 9 = true :=
  State.alert_testBit fun h => absurd h (by decide)

/-- What follows an alarm, the halt of every site and TAMPER_HOLD, leaves the security engine and the alerts as they are. -/
theorem State.alarm_keeps (source : Nat) (s : State) :
    (s.alarm source).sec = (s.alarmed source).sec ∧ (s.alarm source).host = (s.alarmed source).host := by
  obtain ⟨_, _, _, _, _, _, _, hhalts⟩ := State.HaltWrites.of_when (bit s.sec.tmpCfg 6) (s.alarmed source).haltAll_writes
  rw [State.alarm_eq, when_keeps State.sec _ rfl, when_keeps State.host _ rfl, hhalts]
  exact ⟨rfl, rfl⟩

/-- An alarm that meets the boot on its way puts it into TAMPER_HOLD, and no steward core runs (R519). -/
theorem State.alarm_holds {source : Nat} {s : State} (h : s.booting = true) :
    (s.alarm source).boot.dev = 3 ∧ (s.alarm source).st.cores = [] := by
  rw [State.alarm_eq, h]
  exact ⟨rfl, rfl⟩

theorem State.booting_iff (s : State) : s.booting = true ↔ 1 ≤ s.boot.step ∧ s.boot.dev ≤ 1 := by
  simp only [State.booting, Bool.and_eq_true, Bool.or_eq_true, bne_iff_ne, beq_iff_eq]
  omega

/-- An enabled source, or a rule, alarms. -/
theorem tamperAlarm_enabled {s : State} {k : Nat} (hk : k ≤ 6) (hsource : k = 6 ∨ s.sec.tmpCfg.testBit k = true) :
    exec (.tamperAlarm k) s = .next ((s.alarm k).keep s) := by
  change execTamperAlarm k s = _
  rw [execTamperAlarm, State.plain_eq, if_pos (by simpa [bit_eq_testBit, hk] using hsource)]

/-- A disabled source does nothing (R517). -/
theorem tamperAlarm_disabled {s : State} {k : Nat} (hk : k < 6) (hsource : s.sec.tmpCfg.testBit k = false) :
    exec (.tamperAlarm k) s = .next s := by
  change execTamperAlarm k s = _
  rw [execTamperAlarm, State.plain_eq, if_neg (by simp [bit_eq_testBit, hsource, Nat.ne_of_lt hk]), State.keep_self]

end Sys2Proof.Machine
end

section
/-! The statement on the security engine. -/

namespace Sys2Proof.Machine
open Sys2Proof

/-- Settles O51: each command of the security engine by the outcome of its checks, an alarm by what it writes. -/
theorem securityCommands : Obligations.SecurityCommands := by
  unfold Obligations.SecurityCommands
  intro s m k a hdom
  refine ⟨?keyLoad, ?challenge, ?answer, ?alarm, tamperAlarm_disabled, ⟨_, rfl, rfl⟩⟩
  case keyLoad =>
    rintro h rfl
    refine ⟨fun h0 => ?noId, fun h0 hlocked => ?locked, fun kek h0 hopen hkek => ?wrapped⟩
    case noId => exact keyLoad_refuses h hdom (.noId h0)
    case locked => exact keyLoad_refuses h hdom (.locked h0 hlocked)
    case wrapped =>
      cases hunwrap : Config.keyUnwrap kek (slice a 8 40) with
      | none => exact keyLoad_refuses h hdom (.bad h0 hopen hkek hunwrap)
      | some key =>
        by_cases hfull : Tbl.find s.sec.keys (fld a 0 2) = none ∧ 16 ≤ s.sec.keys.length
        · simp only [if_pos hfull]
          exact keyLoad_refuses h hdom (.full h0 hopen hkek hunwrap hfull)
        · obtain ⟨t, hexec, hdone, hkeys⟩ := keyLoad_stores h hdom h0 hopen hkek hunwrap hfull
          simp only [if_neg hfull]
          exact ⟨t, hexec, hdone, fun j => by rw [hkeys, Tbl.find_put]⟩
  case challenge =>
    intro h hform
    refine ⟨tamperClearChallenge_denied h hdom hform, fun hgood => ?_⟩
    obtain ⟨t, hexec, hdone, hsec⟩ := tamperClearChallenge_nonce h hdom hform hgood
    exact ⟨t, _, hexec, by simp [padTo, zeros], hdone, hsec⟩
  case answer =>
    intro h hform
    refine ⟨tamperClearAnswer_notActive h hdom hform, fun n => tamperClearAnswer_denied h hdom hform, ?_⟩
    rintro n key hlatch hnonce hfails hkey
    rw [← State.tamperKey_eq] at hkey
    subst hkey
    split
    · next hgood =>
      obtain ⟨t, hexec, hdone, hused, hclear⟩ := tamperClearAnswer_clears h hdom hform hlatch hnonce hfails hgood
      exact ⟨t, hexec, hused, hdone, hclear⟩
    · next hbad =>
      obtain ⟨t, hexec, hdone, hsec⟩ :=
        tamperClearAnswer_fails h hdom hform hlatch hnonce hfails (Bool.eq_false_iff.mpr hbad)
      exact ⟨t, hexec, by rw [hsec], hdone, by rw [hsec, hlatch], by rw [hsec]⟩
  case alarm =>
    intro hk hsource
    obtain ⟨hsec, hhost⟩ := s.alarm_keeps k
    obtain ⟨c, p, halarm⟩ := s.alarmed_sec k
    rw [halarm] at hsec
    refine ⟨_, tamperAlarm_enabled hk hsource, congrArg Sec.latch hsec, congrArg Sec.kek hsec, congrArg Sec.keys hsec,
      congrArg Sec.nonce hsec, congrArg Sec.src hsec, congrArg Sec.cnt hsec, ?_, rfl, fun hstep hdev => ?_⟩
    · exact (congrArg (fun x : HostIf => x.alert.testBit 9) hhost).trans (s.alarmed_alert k)
    · exact State.alarm_holds (s.booting_iff.mpr ⟨hstep, hdev⟩)

end Sys2Proof.Machine
end
